-- ==== Sys2Proof/Word.lean ====
section
/-! DEFINITION. The plain value types of the Dovrane DV416 (spec/00_scope.md, 0.8 Conventions). -/

namespace Sys2Proof

/-- One byte of frame memory or of a record. -/
abbrev Byte := BitVec 8

/-- "Word" always means one 64-bit Frame Port word (0.8, Words and bytes). -/
abbrev Word := BitVec 64

/-- A value of the time base, a wrapping 32-bit count of microseconds (R26). -/
abbrev Time := BitVec 32

/-- A requester tag, 0 to 15 (R189). -/
abbrev Tag := BitVec 4

/-- Cameras are numbered 0 to 15 (0.8, Names). -/
abbrev Camera := Fin 16

/-- Screens are numbered 0 to 3. -/
abbrev Screen := Fin 4

/-- Doors are numbered 0 to 11. -/
abbrev Door := Fin 12

/-- Holds are numbered 0 to 15; the number of a place is the hold's id (R134). -/
abbrev HoldId := Fin 16

/-- Zones of a camera picture are numbered 0 to 47 (R42). -/
abbrev Zone := Fin 48

end Sys2Proof
end

