-- ==== Sys2Proof/Syntax.lean ====
section
/-! DEFINITION. The commands of the DV416: one constructor of `Instr` for each row of
spec/opcode_table.json. A beat's command carries what the beat carries (R189): its requester tag,
whether it is the last beat of its request, where in its region it falls, and for a write its byte
enables and data word. The command of a Command Word write carries the command's fields; the bytes
that 11.3 does not list for it stand in `spare`, because they still reach frame memory (R152). -/

namespace Sys2Proof

/-- The seven guard kinds of 10.4. -/
inductive GuardKind where
  | slotWrite | screenWrite | landingRole | landingRange | landingDisabled | controlRole | unmapped
  deriving DecidableEq, Repr

/-- Who sends a beat: the requester tag (R189), and whether the beat is the last of its request
(R190: a request completes with its last beat). -/
structure Requester where
  tag : Tag
  last : Bool
  deriving DecidableEq, Repr

/-- What a write beat carries besides its place: its 8 byte enables and its data word (R189). -/
structure WriteData where
  enables : BitVec 8
  data : Word
  deriving DecidableEq, Repr

/-- The commands a Command Word can spell (8.2, 11.3). -/
inductive Command where
  | load (table first count : Byte)
  | commit
  | abortClear
  | learn (mask : BitVec 16)
  | learnSuspend (mask : BitVec 16)
  | learnResume (mask : BitVec 16)
  | spotSet (screen layout level : Byte)
  | spotClear (screen : Byte)
  | holdTake (camera post : Byte)
  | holdRelease (id : Byte)
  | holdLock
  | snapshot
  | restart
  | undefinedCode (code : Byte)
  deriving DecidableEq, Repr

/-- One constructor per row of spec/opcode_table.json. -/
inductive Instr where
  /-- POWER_ON_RESET: release of RESET_N after a valid low pulse; `straps` is CPS1-CPS0 (R192). -/
  | powerOnReset (straps : BitVec 2)
  /-- PLAIN_WRITE_BEAT: a write beat at byte address `addr` of the plain window. -/
  | plainWriteBeat (r : Requester) (addr : BitVec 29) (w : WriteData)
  /-- PLAIN_READ_BEAT: a read beat at byte address `addr` of the plain window. -/
  | plainReadBeat (r : Requester) (addr : BitVec 29)
  /-- ZERO_WORD_READ: a read beat of a landing window or of unmapped space. -/
  | zeroWordRead (r : Requester) (addr : BitVec 32)
  /-- SCREEN_WRITE: a write beat at word `word` of screen `s`'s window. -/
  | screenWrite (r : Requester) (s : Screen) (word : BitVec 21) (w : WriteData)
  /-- UNMAPPED_WRITE: a write beat at 0x3400_0000 or above. -/
  | unmappedWrite (r : Requester) (addr : BitVec 32) (w : WriteData)
  /-- LANDING_WRITE: a write beat at word `word` of camera `c`'s landing window. -/
  | landingWrite (r : Requester) (c : Camera) (word : BitVec 21) (w : WriteData)
  /-- SCREEN_READ: a read beat at word `word` of screen `s`'s window. -/
  | screenRead (r : Requester) (s : Screen) (word : BitVec 21)
  /-- STATUS_WINDOW_READ: a read beat of control page word 0 to 3. -/
  | statusWindowRead (r : Requester) (word : Fin 4)
  /-- CONTROL_PAGE_WRITE: a write beat at word `word`, 0 to 511, of the control page. -/
  | controlPageWrite (r : Requester) (word : BitVec 9) (w : WriteData)
  /-- CONSUMER_INDEX: a write beat of control page word 16. -/
  | consumerIndex (r : Requester) (w : WriteData)
  /-- STAGING_WRITE: a write beat at word `word`, 0 to 255, of the staging area. -/
  | stagingWrite (r : Requester) (word : BitVec 8) (w : WriteData)
  /-- LOAD: a full write of the Command Word with code 0x01. -/
  | load (r : Requester) (tag table first count : Byte) (spare : BitVec 24)
  /-- COMMIT: code 0x02. -/
  | commit (r : Requester) (tag : Byte) (spare : BitVec 48)
  /-- ABORT_CLEAR: code 0x03. -/
  | abortClear (r : Requester) (tag : Byte) (spare : BitVec 48)
  /-- LEARN: code 0x10. -/
  | learn (r : Requester) (tag : Byte) (mask : BitVec 16) (spare : BitVec 32)
  /-- LEARN_SUSPEND: code 0x11. -/
  | learnSuspend (r : Requester) (tag : Byte) (mask : BitVec 16) (spare : BitVec 32)
  /-- LEARN_RESUME: code 0x12. -/
  | learnResume (r : Requester) (tag : Byte) (mask : BitVec 16) (spare : BitVec 32)
  /-- SPOT_SET: code 0x20. -/
  | spotSet (r : Requester) (tag screen layout level : Byte) (spare : BitVec 24)
  /-- SPOT_CLEAR: code 0x21. -/
  | spotClear (r : Requester) (tag screen : Byte) (spare : BitVec 40)
  /-- HOLD_TAKE: code 0x30. -/
  | holdTake (r : Requester) (tag camera post : Byte) (spare : BitVec 32)
  /-- HOLD_RELEASE: code 0x31. -/
  | holdRelease (r : Requester) (tag id : Byte) (spare : BitVec 40)
  /-- HOLD_LOCK: code 0x32. -/
  | holdLock (r : Requester) (tag : Byte) (spare : BitVec 48)
  /-- SNAPSHOT: code 0x40. -/
  | snapshot (r : Requester) (tag : Byte) (spare : BitVec 48)
  /-- RESTART: code 0x50. -/
  | restart (r : Requester) (tag : Byte) (spare : BitVec 48)
  /-- UNDEFINED_CODE: a full write of the Command Word whose code byte no command uses. -/
  | undefinedCode (r : Requester) (code tag : Byte) (spare : BitVec 48)
  /-- STALE_TIMEOUT: camera `c`'s stale timeout runs out. -/
  | staleTimeout (c : Camera)
  /-- SAMPLE_INSTANT: the sample instant; the operands are the levels standing on the 25 lines. -/
  | sampleInstant (opens alerts : BitVec 12) (reverse : Bool)
  /-- LINGER_EXPIRY: the linger of screen `s`'s governing entry runs out. -/
  | lingerExpiry (s : Screen)
  /-- GUARD_EPISODE_CLOSE: the quiet period of kind `k`'s episode runs out. -/
  | guardEpisodeClose (k : GuardKind)
  /-- APPLYING_OVERTIME: 250 ms have passed in APPLYING. -/
  | applyingOvertime
  /-- RESET_N_FALL: RESET_N goes low, for `lowMicros` microseconds, with REFCLK running or not. -/
  | resetNFall (lowMicros : Nat) (refclk : Bool)
  deriving DecidableEq, Repr

end Sys2Proof
end

