-- ==== Sys2Proof/Decode.lean ====
section
/-! DEFINITION. Reading words. The command table gives no row any bits (every row's "fields" is
empty), so `decodeTableWord` answers `none`. The one word that spells a command is the Command Word
of the control page (11.3, R200), read and written here. -/

namespace Sys2Proof

/-- The command that a table word spells: the table gives no row any bits. -/
def decodeTableWord (_nbits _w : Nat) : Option Instr := none

/-- Byte `i` of a word, byte 0 the least significant (0.8). -/
def commandByte (w : Word) (i : Nat) : Byte := w.extractLsb' (8 * i) 8

/-- The camera mask of a learning command: bytes 2 and 3, read as 16 bits (R200). -/
def commandMask (w : Word) : BitVec 16 := w.extractLsb' 16 16

/-- The tag of a Command Word: byte 1 (11.3). -/
def commandTag (w : Word) : Byte := commandByte w 1

/-- The command a Command Word spells, by its code byte alone (11.3, R200). -/
def decodeCommand (w : Word) : Command :=
  let code := commandByte w 0
  if code = 0x01#8 then .load (commandByte w 2) (commandByte w 3) (commandByte w 4)
  else if code = 0x02#8 then .commit
  else if code = 0x03#8 then .abortClear
  else if code = 0x10#8 then .learn (commandMask w)
  else if code = 0x11#8 then .learnSuspend (commandMask w)
  else if code = 0x12#8 then .learnResume (commandMask w)
  else if code = 0x20#8 then .spotSet (commandByte w 2) (commandByte w 3) (commandByte w 4)
  else if code = 0x21#8 then .spotClear (commandByte w 2)
  else if code = 0x30#8 then .holdTake (commandByte w 2) (commandByte w 3)
  else if code = 0x31#8 then .holdRelease (commandByte w 2)
  else if code = 0x32#8 then .holdLock
  else if code = 0x40#8 then .snapshot
  else if code = 0x50#8 then .restart
  else .undefinedCode code

/-- The code byte of a command (11.3). -/
def commandCode : Command → Byte
  | .load .. => 0x01
  | .commit => 0x02
  | .abortClear => 0x03
  | .learn _ => 0x10
  | .learnSuspend _ => 0x11
  | .learnResume _ => 0x12
  | .spotSet .. => 0x20
  | .spotClear _ => 0x21
  | .holdTake .. => 0x30
  | .holdRelease _ => 0x31
  | .holdLock => 0x32
  | .snapshot => 0x40
  | .restart => 0x50
  | .undefinedCode code => code

/-- A code byte that some command of 11.3 uses. -/
def codeDefined (code : Byte) : Bool :=
  [0x01#8, 0x02#8, 0x03#8, 0x10#8, 0x11#8, 0x12#8, 0x20#8, 0x21#8, 0x30#8, 0x31#8, 0x32#8, 0x40#8,
    0x50#8].contains code

/-- A Command Word from its code, its tag and its argument bytes 2 to 7 (11.3). -/
def commandWord (code tag : Byte) (args : BitVec 48) : Word := args ++ tag ++ code

/-- The argument bytes of LOAD and of SPOT_SET: three bytes, then the bytes not read. -/
def threeArgs (a b c : Byte) (spare : BitVec 24) : BitVec 48 := spare ++ c ++ b ++ a

/-- The argument bytes of HOLD_TAKE. -/
def twoArgs (a b : Byte) (spare : BitVec 32) : BitVec 48 := spare ++ b ++ a

/-- The argument bytes of SPOT_CLEAR and HOLD_RELEASE. -/
def oneArg (a : Byte) (spare : BitVec 40) : BitVec 48 := spare ++ a

/-- The argument bytes of the learning commands. -/
def maskArg (mask : BitVec 16) (spare : BitVec 32) : BitVec 48 := spare ++ mask

/-- The Command Word that a Command Word row spells, with its requester; nothing for the other rows. -/
def Instr.commandWord? : Instr → Option (Requester × Word)
  | .load r tag table first count spare => some (r, commandWord 0x01 tag (threeArgs table first count spare))
  | .commit r tag spare => some (r, commandWord 0x02 tag spare)
  | .abortClear r tag spare => some (r, commandWord 0x03 tag spare)
  | .learn r tag mask spare => some (r, commandWord 0x10 tag (maskArg mask spare))
  | .learnSuspend r tag mask spare => some (r, commandWord 0x11 tag (maskArg mask spare))
  | .learnResume r tag mask spare => some (r, commandWord 0x12 tag (maskArg mask spare))
  | .spotSet r tag screen layout level spare => some (r, commandWord 0x20 tag (threeArgs screen layout level spare))
  | .spotClear r tag screen spare => some (r, commandWord 0x21 tag (oneArg screen spare))
  | .holdTake r tag camera post spare => some (r, commandWord 0x30 tag (twoArgs camera post spare))
  | .holdRelease r tag id spare => some (r, commandWord 0x31 tag (oneArg id spare))
  | .holdLock r tag spare => some (r, commandWord 0x32 tag spare)
  | .snapshot r tag spare => some (r, commandWord 0x40 tag spare)
  | .restart r tag spare => some (r, commandWord 0x50 tag spare)
  | .undefinedCode r code tag spare => some (r, commandWord code tag spare)
  | .powerOnReset _ => none
  | .plainWriteBeat .. => none
  | .plainReadBeat .. => none
  | .zeroWordRead .. => none
  | .screenWrite .. => none
  | .unmappedWrite .. => none
  | .landingWrite .. => none
  | .screenRead .. => none
  | .statusWindowRead .. => none
  | .controlPageWrite .. => none
  | .consumerIndex .. => none
  | .stagingWrite .. => none
  | .staleTimeout _ => none
  | .sampleInstant .. => none
  | .lingerExpiry _ => none
  | .guardEpisodeClose _ => none
  | .applyingOvertime => none
  | .resetNFall .. => none

end Sys2Proof
end

