-- ==== Sys2Proof/Config.lean ====
section
/-! DEFINITION. The figures that the manual fixes for every DV416, and the values that it leaves to
the implementation. The one free value is the level of ATTN in the state that R198 calls undefined;
the figures marked DESIGN CHOICE are explained in the assumption log. -/

namespace Sys2Proof.Config

/-- The attached frame memory holds 512 MiB (0.2). -/
def memoryBytes : Nat := 536870912

/-- What a byte of frame memory that nothing has written reads as.
DESIGN CHOICE (unsafe, log entry 1): R24 says only that the bytes are whatever the memory holds at
power-up. -/
def unwrittenByte : Byte := 0

/-- Base of the landing windows (0.3). -/
def landingBase : Nat := 0x20000000

/-- Base of the screen windows (0.3). -/
def screenBase : Nat := 0x30000000

/-- First address of unmapped space (0.3). -/
def unmappedBase : Nat := 0x34000000

/-- Bytes of one landing or screen window, 16 MiB (0.3). -/
def windowBytes : Nat := 0x01000000

/-- Bytes of the control page, 4 KiB (R192). -/
def pageBytes : Nat := 4096

/-- One unit of the slot size, 64 KiB (1.1). -/
def slotUnit : Nat := 65536

/-- Bytes of one report record (R176). -/
def reportBytes : Nat := 32

/-- The quiet period after which a guard episode closes, in microseconds (R196). -/
def guardQuiet : Nat := 10000

/-- The end of the APPLYING wait, in microseconds (R168). -/
def applyingLimit : Nat := 250000

/-- Half a period of the blink phase, in microseconds (R80 step 7). -/
def blinkHalf : Nat := 250000

/-- The level of ATTN after a low pulse of RESET_N that is no power-on reset, at a value of the time
base: a free value, since R198 calls the state of the part undefined there (log entry 28). -/
opaque undefinedAttn : Nat → Bool

/-- The shortest low pulse of RESET_N that counts as a power-on reset, in microseconds (R198). -/
def resetPulse : Nat := 10

/-- The largest value of the counts that saturate in 16 bits: lost count (R177), drop count (R195). -/
def sixteenMax : Nat := 65535

/-- Judged frames in a learning run (R59). -/
def learnFrames : Nat := 64

/-- Candidates after which a learning run fails TOO_DARK (R60). -/
def learnLimit : Nat := 4096

/-- Largest gradient sum of one zone. DESIGN CHOICE (safe, log entry 11): R45 says that the sums
saturate at their largest value and does not give the width; this is more than the largest frame
can sum, 765 for each of 1920 x 1200 / 4 words. -/
def gradientMax : Nat := 4294967295

/-- Largest luma sum of one zone and of a frame. DESIGN CHOICE (safe, log entry 11), as
`gradientMax`. -/
def lumaMax : Nat := 4294967295

/-- Largest word count of one zone. DESIGN CHOICE (safe, log entry 11), as `gradientMax`. -/
def zoneWordsMax : Nat := 16777215

/-- The code of "no next pane" in a PANE record and of an empty layout's head (R73, R74). -/
def noPane : Nat := 255

/-- Panes of the pane store (R74). -/
def paneCount : Nat := 224

/-- The longest chain of a committed layout (R75). -/
def chainMax : Nat := 8

/-- The largest number of entries of a spotlight list (R121). -/
def spotMax : Nat := 8

/-- The code of partner NONE in a CAMERA record (11.6). -/
def noPartner : Nat := 255

end Sys2Proof.Config
end

