-- ==== Sys2Proof/Machine/State.lean ====
section
/-! DEFINITION. Everything the manual gives the DV416 to hold, block by block (0.4), as plain data,
with its values after power-on reset. The blocks' states stand in one flat record, each piece with
one home; what the manual derives (STARVED, ATTN, the free count, ECHO) is computed where it is
read. -/

namespace Sys2Proof.Machine

/-! ### Reset line and pins -/

/-- What the RESET_N line has done to the part (R197, R198). `heldInReset`: RESET_N is low, and long
enough with REFCLK running for its release to count. `lowPulse left`: RESET_N is low in a pulse that
does not count, for `left` microseconds more. `undefinedState`: such a pulse has ended, and the state
is undefined until a valid release. -/
inductive Condition where
  | running | heldInReset | lowPulse (left : Nat) | undefinedState
  deriving DecidableEq, Repr

/-- RESET_N is low. -/
def Condition.low : Condition → Bool
  | .running => false
  | .heldInReset => true
  | .lowPulse _ => true
  | .undefinedState => false

/-- The levels of the 25 door and reversing lines (6.1); bit d belongs to door d. -/
structure Lines where
  opens : BitVec 12
  alerts : BitVec 12
  reverse : Bool
  deriving DecidableEq, Repr

/-- A word returned on FP_RD, with FP_RD_TAG and FP_RD_LAST (10.6). -/
structure ReadReturn where
  tag : Tag
  data : Word
  last : Bool
  deriving DecidableEq, Repr

/-- What the Frame Port last drove out: the last word returned, and the tag of the last write
completion (R190). -/
structure PortOut where
  read : Option ReadReturn
  completed : Option Tag
  deriving DecidableEq, Repr

/-! ### Table records (11.6) -/

/-- The four requester roles (0.6). -/
inductive Role where
  | general | capture | display | control
  deriving DecidableEq, Repr

/-- A spotlight request description: of a door's open or alert line (R115) or of REVERSE. -/
structure SpotRequest where
  level : Nat
  lingerMs : Nat
  mask : BitVec 4
  layout : Nat
  deriving DecidableEq, Repr

/-- The SETUP record. `slotUnits` is the slot size in units of 64 KiB; `roleMap` holds tag t's role
code in bits 2t and 2t + 1. -/
structure SetupRec where
  slotBase : Nat
  slotUnits : Nat
  slotCount : Nat
  holdReserve : Nat
  ringBase : Nat
  ringCapacity : Nat
  debounce : Nat
  roleMap : BitVec 32
  darkGate : Nat
  glareGate : Nat
  onLevel : Nat
  offLevel : Nat
  partFrac : Nat
  obscFrac : Nat
  reverse : SpotRequest
  deriving DecidableEq, Repr

/-- A CAMERA record. `partner` is 255 for NONE; bit z of `excl` excludes zone z. -/
structure CameraRec where
  enable : Bool
  lensOn : Bool
  k : Nat
  w : Nat
  h : Nat
  period : Nat
  partner : Nat
  judge : Nat
  noise : Nat
  excl : BitVec 48
  deriving DecidableEq, Repr

/-- A DOOR record (R115). -/
structure DoorRec where
  enable : Bool
  holdFlag : Bool
  post : Nat
  camera : Nat
  openReq : SpotRequest
  alertReq : SpotRequest
  deriving DecidableEq, Repr

/-- A SCREEN record (R71). -/
structure ScreenRec where
  enable : Bool
  width : Nat
  height : Nat
  stride : Nat
  base : Nat
  deriving DecidableEq, Repr

/-- A colour: one luma and the chroma pair. -/
structure Color where
  y : Byte
  cb : Byte
  cr : Byte
  deriving DecidableEq, Repr

/-- A LAYOUT record: its head pane index, 255 when empty, and its background colour (R73). -/
structure LayoutRec where
  head : Nat
  background : Color
  deriving DecidableEq, Repr

/-- A PANE record (R74). -/
structure PaneRec where
  x : Nat
  y : Nat
  w : Nat
  h : Nat
  camera : Nat
  d : Nat
  cropX : Nat
  cropY : Nat
  border : Bool
  lensBand : Bool
  subst : Bool
  next : Nat
  deriving DecidableEq, Repr

/-! ### Slot Manager -/

/-- The member states of a ring member (R3). -/
inductive MemberState where
  | empty | filling | ready
  deriving DecidableEq, Repr

/-- The dispositions of a slot (R3). -/
inductive Disposition where
  | free
  | ring (c : Camera) (m : MemberState)
  | held (h : HoldId)
  | retiring
  deriving DecidableEq, Repr

/-- The frame number and capture time of an accepted frame (R3). -/
structure FrameStamp where
  number : BitVec 32
  captured : Time
  deriving DecidableEq, Repr

/-- A slot record (R3). -/
structure SlotRec where
  disp : Disposition
  pins : Nat
  frame : Option FrameStamp
  deriving DecidableEq, Repr

/-- The slot table with the geometry it was built for (R1); its length is the slot count. -/
structure SlotPool where
  base : Nat
  units : Nat
  slots : List SlotRec
  deriving DecidableEq, Repr

/-- The landing phases (1.5). -/
inductive Phase where
  | waiting | inFrame | dropping
  deriving DecidableEq, Repr

/-- A camera's ring, in its three parts front to back (R5), its landing phase, torn mark and
word-write count (R10, R11), and its four counts (R23). -/
structure RingRec where
  ready : List Nat
  filling : Option Nat
  empty : List Nat
  phase : Phase
  tornMark : Bool
  writes : Nat
  frameCount : BitVec 32
  accepted : BitVec 16
  torn : BitVec 16
  starvedDrop : BitVec 16
  deriving DecidableEq, Repr

/-! ### Cadence Monitor -/

/-- The cadence states (R27). -/
inductive CadenceState where
  | off | acquiring | locked | stale
  deriving DecidableEq, Repr

/-- A camera's cadence record (R27). -/
structure CadenceRec where
  state : CadenceState
  good : Nat
  slip : Nat
  previous : Option Time
  staleRef : Time
  sigAcc : Option (BitVec 16)
  prevSig : Option (BitVec 16)
  run : Nat
  frozen : Bool
  deriving DecidableEq, Repr

/-! ### Lens Monitor -/

/-- The lens states (R43). -/
inductive LensState where
  | unlearned | clean | part | obscured
  deriving DecidableEq, Repr

/-- The frame classes (R54). -/
inductive FrameClass where
  | clean | part | obscured
  deriving DecidableEq, Repr

/-- The learn activities (R43). -/
inductive LearnActivity where
  | idle | running | suspended
  deriving DecidableEq, Repr

/-- The accumulators of one zone: gradient sum S, luma sum L, word count w (R43). -/
structure ZoneAcc where
  gradient : Nat
  luma : Nat
  words : Nat
  deriving DecidableEq, Repr

/-- The frame accumulators (R43). -/
structure FrameAcc where
  zones : Vector ZoneAcc 48
  total : Nat
  deriving DecidableEq, Repr

/-- A learned baseline: each zone's B, and the set of usable zones (R59). -/
structure Baseline where
  b : Vector Nat 48
  usable : Vector Bool 48
  deriving DecidableEq, Repr

/-- A camera's lens record (R43). -/
structure LensRec where
  acc : Option FrameAcc
  noiseInUse : Nat
  lastMean : Nat
  lastDark : Nat
  eligible : Nat
  baseline : Option Baseline
  usableCount : Nat
  scores : Vector Nat 48
  flags : Vector Bool 48
  history : List FrameClass
  state : LensState
  learn : LearnActivity
  sums : Vector Nat 48
  learned : Nat
  candidates : Nat
  deriving DecidableEq, Repr

/-! ### Scan Compositor -/

/-- The lens band of a pane entry (R102). -/
inductive LensBand where
  | none | rows8 | rows16
  deriving DecidableEq, Repr

/-- The border colour of a pane entry (R103). -/
inductive Border where
  | none | openAmber | alertRed
  deriving DecidableEq, Repr

/-- A slot latched for a pane entry: its index and its slot address (R83). -/
structure Latched where
  slot : Nat
  addr : Nat
  deriving DecidableEq, Repr

/-- A pane entry of a scan context (R76). -/
structure PaneEntry where
  pane : Nat
  copy : PaneRec
  own : Camera
  shown : Camera
  shownW : Nat
  shownH : Nat
  latched : Option Latched
  dim : Bool
  staleBand : Bool
  marker : Bool
  band : LensBand
  border : Border
  deriving DecidableEq, Repr

/-- A screen's scan context (R76); `blink` is the blink phase, true for 1. -/
structure ScanContext where
  width : Nat
  height : Nat
  stride : Nat
  layout : Nat
  background : Color
  panes : List PaneEntry
  blink : Bool
  deriving DecidableEq, Repr

/-! ### Door Line Unit -/

/-- A debouncer (R113): `none` as accepted level is UNKNOWN. -/
structure Debouncer where
  accepted : Option Bool
  candidate : Option Bool
  run : Nat
  deriving DecidableEq, Repr

/-- The door states (R116). -/
inductive DoorState where
  | closed | opened | alert | unknown
  deriving DecidableEq, Repr

/-- The Door Line Unit's state: the time base value that the next sample instant is counted from,
one debouncer per line and one state per door (R112 to R116). -/
structure DoorUnit where
  lastSample : Time
  opens : Vector Debouncer 12
  alerts : Vector Debouncer 12
  reverse : Debouncer
  states : Vector DoorState 12
  deriving DecidableEq, Repr

/-! ### Spotlight Arbiter -/

/-- The 26 spotlight origins (R119). -/
inductive Origin where
  | doorAlert (d : Door)
  | doorOpen (d : Door)
  | reverse
  | manual
  deriving DecidableEq, Repr

/-- A spotlight entry (R121). `linger` is the remaining linger in microseconds; `order` is the entry's
place in the order of activation, which the arbiter keeps apart from the activation time. -/
structure SpotEntry where
  origin : Origin
  level : Nat
  layout : Nat
  active : Bool
  linger : Nat
  activated : Time
  order : Nat
  deriving DecidableEq, Repr

/-- A screen's spotlight list (R121), the time t0 at which the governing entry's linger count began
(R124), and the number of entries created so far. -/
structure SpotList where
  entries : List SpotEntry
  counting : Option Time
  created : Nat
  deriving DecidableEq, Repr

/-! ### Evidence Hold Unit -/

/-- The role of a slot-list entry (R134). -/
inductive HoldRole where
  | pre | post
  deriving DecidableEq, Repr

/-- An entry of a hold's slot list (R134); the capture time is kept with the PRE entry. -/
structure HoldSlot where
  slot : Nat
  frame : BitVec 32
  role : HoldRole
  captured : Option Time
  deriving DecidableEq, Repr

/-- The states of a hold (R134). -/
inductive HoldState where
  | collecting | complete
  deriving DecidableEq, Repr

/-- The causes of completion (R134). -/
inductive HoldCause where
  | atTake | count | noSlot | disable | restart
  deriving DecidableEq, Repr

/-- A hold record (R134). -/
structure Hold where
  state : HoldState
  origin : Origin
  camera : Camera
  event : Time
  post : Nat
  slots : List HoldSlot
  short : Bool
  staleSource : Bool
  cause : Option HoldCause
  deriving DecidableEq, Repr

/-- The hold table, the order of creation, oldest first (R135), and the hold lock (R146). -/
structure HoldUnit where
  table : Vector (Option Hold) 16
  order : List HoldId
  lock : Bool
  deriving DecidableEq, Repr

/-! ### Command Engine -/

/-- The engine states (8.3). -/
inductive EngineState where
  | idle | staging | applying | aborted
  deriving DecidableEq, Repr

/-- A command's result (R154). -/
inductive Result where
  | none | done | invalid | refused | aborted | overtime
  deriving DecidableEq, Repr

/-- The reasons of 11.2. -/
inductive Reason where
  | none | badTable | badCount | outOfRange | overcount | short | otherCommand | nothingStaged
  | badCode | badArg | listFull | locked | cameraOff | lensOff | notLearning | tableFull | noFrame
  | noSlot | badRange | badOrder | badRoles | badRing | badArea | busySlots | busyCamera | badLink
  | chainLoop | chainLong | badPane | restarted
  deriving DecidableEq, Repr

/-- The six tables (R157). -/
inductive TableId where
  | setup | cameras | screens | layouts | panes | doors
  deriving DecidableEq, Repr

/-- The table, first record and count of the LOAD that opened the staging (R157). -/
structure LoadInfo where
  table : TableId
  first : Nat
  count : Nat
  deriving DecidableEq, Repr

/-- The Command Engine's state: the engine state, the staging buffer of 32 records of 8 words, the
staged word count, the load it belongs to, the last tag, the last result with its table and index,
TOGGLE, and the pending set and start of an APPLYING wait (R157, R167, R169, R175). -/
structure Engine where
  state : EngineState
  buffer : Vector Word 256
  staged : Nat
  load : LoadInfo
  lastTag : Byte
  result : Result
  reason : Reason
  table : Byte
  index : BitVec 16
  toggle : Bool
  pending : BitVec 4
  waitStart : Time
  deriving DecidableEq, Repr

/-! ### Report Writer and Access Guard -/

/-- The Report Writer's ring configuration, indices and lost count (R176). -/
structure ReportRing where
  base : Nat
  capacity : Nat
  configured : Bool
  producer : Nat
  consumer : Nat
  lost : Nat
  deriving DecidableEq, Repr

/-- An open guard episode (R195). -/
structure Episode where
  tag : Tag
  addr : BitVec 32
  opened : Time
  lastDrop : Time
  count : Nat
  deriving DecidableEq, Repr

/-! ### The machine -/

/-- Frame memory: the bytes that differ from what nothing has written, addresses strictly rising. -/
abbrev Memory := List Host.Cell

/-- The whole DV416, and the queue of commands waiting, first in, first out. -/
structure State where
  condition : Condition
  straps : BitVec 2
  lines : Lines
  port : PortOut
  time : Time
  mem : Memory
  setup : SetupRec
  cameras : Vector CameraRec 16
  doors : Vector DoorRec 12
  screens : Vector ScreenRec 4
  layouts : Vector LayoutRec 32
  panes : Vector PaneRec 224
  pool : SlotPool
  rings : Vector RingRec 16
  cadence : Vector CadenceRec 16
  lens : Vector LensRec 16
  contexts : Vector (Option ScanContext) 4
  doorUnit : DoorUnit
  spots : Vector SpotList 4
  holds : HoldUnit
  engine : Engine
  ring : ReportRing
  episodes : Vector (Option Episode) 7
  pending : List Instr
  deriving DecidableEq, Repr

/-- Why the machine can stop with a fault. -/
inductive Fault where
  /-- Raised by every command but POWER_ON_RESET and RESET_N_FALL while the state of the part is
  undefined: after a low pulse of RESET_N that R198 does not count as a power-on reset, "the state of
  the part after it is undefined until a release of RESET_N that meets these limits". Safe: nothing
  is claimed of the part there. -/
  | undefinedPart
  deriving DecidableEq, Repr

/-- Why the machine can refuse a command. -/
inductive Refusal where
  /-- Raised by an arm of `exec` that has no meaning yet; no arm of this model does so. Safe. -/
  | notModelled (mnemonic : String)
  deriving DecidableEq, Repr

/-! ### Values after power-on reset -/

/-- Black fill (0.8, Fixed colours). -/
def blackFill : Color := ⟨16, 128, 128⟩

/-- The power-on request descriptions: levels 2, 4 and 3, all else 0 (R115). -/
def powerOnRequest (level : Nat) : SpotRequest := ⟨level, 0, 0, 0⟩

/-- SETUP at power-on (R175): not loaded; every tag holds CONTROL, code 3. -/
def SetupRec.powerOn : SetupRec :=
  { slotBase := 0, slotUnits := 0, slotCount := 0, holdReserve := 0, ringBase := 0,
    ringCapacity := 0, debounce := 1000, roleMap := 0xFFFFFFFF, darkGate := 40, glareGate := 235,
    onLevel := 112, offLevel := 160, partFrac := 4, obscFrac := 10, reverse := powerOnRequest 3 }

/-- A CAMERA record at power-on (R175). -/
def CameraRec.powerOn : CameraRec :=
  { enable := false, lensOn := false, k := 0, w := 0, h := 0, period := 0,
    partner := Config.noPartner, judge := 0, noise := 0, excl := 0 }

/-- A DOOR record at power-on (R115). -/
def DoorRec.powerOn : DoorRec :=
  { enable := false, holdFlag := false, post := 0, camera := 0, openReq := powerOnRequest 2,
    alertReq := powerOnRequest 4 }

/-- A SCREEN record at power-on (R71). -/
def ScreenRec.powerOn : ScreenRec :=
  { enable := false, width := 0, height := 0, stride := 0, base := 0 }

/-- A LAYOUT record at power-on (R73). -/
def LayoutRec.powerOn : LayoutRec := { head := Config.noPane, background := blackFill }

/-- A PANE record at power-on (R74). -/
def PaneRec.powerOn : PaneRec :=
  { x := 0, y := 0, w := 0, h := 0, camera := 0, d := 0, cropX := 0, cropY := 0, border := false,
    lensBand := false, subst := false, next := 0 }

/-- A FREE slot record (R1). -/
def SlotRec.fresh : SlotRec := { disp := .free, pins := 0, frame := none }

/-- A camera's ring state at power-on (R24). -/
def RingRec.powerOn : RingRec :=
  { ready := [], filling := none, empty := [], phase := .waiting, tornMark := false, writes := 0,
    frameCount := 0, accepted := 0, torn := 0, starvedDrop := 0 }

/-- A cadence record at power-on (R40). -/
def CadenceRec.powerOn : CadenceRec :=
  { state := .off, good := 0, slip := 0, previous := none, staleRef := 0, sigAcc := none,
    prevSig := none, run := 0, frozen := false }

/-- A lens record at power-on (R69). -/
def LensRec.powerOn : LensRec :=
  { acc := none, noiseInUse := 0, lastMean := 0, lastDark := 0, eligible := 0, baseline := none,
    usableCount := 0, scores := Vector.replicate 48 256, flags := Vector.replicate 48 false, history := [],
    state := .unlearned, learn := .idle, sums := Vector.replicate 48 0, learned := 0,
    candidates := 0 }

/-- A debouncer at power-on and after a warm restart (R131, R132). -/
def Debouncer.unknown : Debouncer := { accepted := none, candidate := none, run := 0 }

/-- The Door Line Unit at power-on (R131): the first sample instant falls at time base 1,000. -/
def DoorUnit.powerOn : DoorUnit :=
  { lastSample := 0, opens := Vector.replicate 12 .unknown, alerts := Vector.replicate 12 .unknown,
    reverse := .unknown, states := Vector.replicate 12 .closed }

/-- An empty spotlight list (R131). -/
def SpotList.empty : SpotList := { entries := [], counting := none, created := 0 }

/-- The Evidence Hold Unit at power-on (R150). -/
def HoldUnit.powerOn : HoldUnit := { table := Vector.replicate 16 none, order := [], lock := false }

/-- The Command Engine at power-on (R175). -/
def Engine.powerOn : Engine :=
  { state := .idle, buffer := Vector.replicate 256 0, staged := 0, load := ⟨.setup, 0, 0⟩,
    lastTag := 0, result := .none, reason := .none, table := 0, index := 0, toggle := false,
    pending := 0, waitStart := 0 }

/-- The Report Writer at power-on (R176). -/
def ReportRing.powerOn : ReportRing :=
  { base := 0, capacity := 0, configured := false, producer := 0, consumer := 0, lost := 0 }

/-- The machine right after power-on reset with the straps unconnected (R198: they then select base
0x0000_0000). Every block holds the power-on values of its chapter; frame memory lists nothing. -/
def State.reset : State :=
  { condition := .running, straps := 0, lines := ⟨0, 0, false⟩, port := ⟨none, none⟩, time := 0,
    mem := [], setup := .powerOn, cameras := Vector.replicate 16 .powerOn,
    doors := Vector.replicate 12 .powerOn, screens := Vector.replicate 4 .powerOn,
    layouts := Vector.replicate 32 .powerOn, panes := Vector.replicate 224 .powerOn,
    pool := ⟨0, 0, []⟩, rings := Vector.replicate 16 .powerOn,
    cadence := Vector.replicate 16 .powerOn, lens := Vector.replicate 16 .powerOn,
    contexts := Vector.replicate 4 none, doorUnit := .powerOn, spots := Vector.replicate 4 .empty,
    holds := .powerOn, engine := .powerOn, ring := .powerOn, episodes := Vector.replicate 7 none,
    pending := [] }

end Sys2Proof.Machine
end

