-- ==== Sys2Proof/Machine/Ops.lean ====
section
/-! DEFINITION. The named operations over bytes, frame memory, time and the State's parts that every
block's file builds on. -/

namespace Sys2Proof.Machine

/-! ### Bytes, bits and words -/

/-- Byte `i` of a word; bytes are numbered 0 (least significant) to 7 (0.8). -/
def byteOf (w : Word) (i : Nat) : Byte := w.extractLsb' (8 * i) 8

/-- The `n` bytes of a multi-byte field, little-endian (chapter 11). -/
def leBytes : Nat → Nat → List Byte
  | 0, _ => []
  | n + 1, v => BitVec.ofNat 8 v :: leBytes n (v / 256)

/-- The number that bytes hold, little-endian. -/
def leValue : List Byte → Nat
  | [] => 0
  | b :: bs => b.toNat + 256 * leValue bs

/-- The word whose bytes, from byte 0, are the list's. -/
def wordOfBytes (bs : List Byte) : Word := BitVec.ofNat 64 (leValue bs)

/-- The eight bytes of a word, from byte 0. -/
def bytesOfWord (w : Word) : List Byte := (List.range 8).map (byteOf w)

/-- `1` for set, `0` for clear. -/
def bit (b : Bool) : Nat := if b then 1 else 0

/-- The number whose bit `i` is the list's entry `i`. -/
def packBits : List Bool → Nat
  | [] => 0
  | b :: bs => bit b + 2 * packBits bs

/-- Replaces the entry of a fixed-length table at an index. -/
def upd {α : Type} {n : Nat} (v : Vector α n) (i : Fin n) (x : α) : Vector α n := v.set i.val x i.isLt

/-! ### Frame memory -/

/-- The byte of frame memory at an address; an unlisted address reads `Config.unwrittenByte`. -/
def Memory.read : Memory → Nat → Byte
  | [], _ => Config.unwrittenByte
  | (k, v) :: rest, a => if k = a then v else Memory.read rest a

/-- Writes one byte, keeping addresses strictly rising and listing no byte that an unlisted address
reads as. -/
def Memory.write : Memory → Nat → Byte → Memory
  | [], a, b => if b = Config.unwrittenByte then [] else [(a, b)]
  | (k, v) :: rest, a, b =>
    if a < k then
      if b = Config.unwrittenByte then (k, v) :: rest else (a, b) :: (k, v) :: rest
    else if a = k then
      if b = Config.unwrittenByte then rest else (a, b) :: rest
    else (k, v) :: Memory.write rest a b

/-- The canonical form: addresses strictly rising, within the 512 MiB of frame memory and above
`floor`, and no entry equal to what an unlisted address reads as. -/
def Memory.wfAbove : Nat → Memory → Bool
  | _, [] => true
  | floor, (k, v) :: rest =>
    decide (floor ≤ k) && decide (k < Config.memoryBytes) && decide (v ≠ Config.unwrittenByte) &&
      Memory.wfAbove (k + 1) rest

/-- The canonical form of frame memory. -/
def Memory.wf (m : Memory) : Bool := Memory.wfAbove 0 m

/-- The frame memory byte that an address names: frame memory has 512 MiB, and an address beyond it
wraps (log entry 10; no run reaches one). -/
def physical (a : Nat) : Nat := a % Config.memoryBytes

/-- Writes a list of bytes from an address up. -/
def Memory.writeBytes : Memory → Nat → List Byte → Memory
  | m, _, [] => m
  | m, a, b :: bs => Memory.writeBytes (m.write (physical a) b) (a + 1) bs

/-- Writes the bytes of a word whose enables are set, from byte `i` on. -/
def Memory.writeEnabled : Memory → Nat → WriteData → Nat → Nat → Memory
  | m, _, _, _, 0 => m
  | m, a, w, i, n + 1 =>
    Memory.writeEnabled (if w.enables.getLsbD i then m.write (physical (a + i)) (byteOf w.data i) else m) a w
      (i + 1) n

/-- Writes the bytes of a word whose enables are set (R189). -/
def Memory.writeWord (m : Memory) (a : Nat) (w : WriteData) : Memory := m.writeEnabled a w 0 8

/-- The word of frame memory at an address. -/
def Memory.readWord (m : Memory) (a : Nat) : Word :=
  wordOfBytes ((List.range 8).map fun i => m.read (physical (a + i)))

/-! ### Time -/

/-- The time elapsed from `t0` to `t`, modulo 2^32 (R26). -/
def elapsed (t0 t : Time) : Nat := (t - t0).toNat

/-! ### Parts of the State -/

/-- Replaces a CAMERA record. -/
def State.setCamera (s : State) (c : Camera) (r : CameraRec) : State := { s with cameras := upd s.cameras c r }

/-- Replaces a DOOR record. -/
def State.setDoor (s : State) (d : Door) (r : DoorRec) : State := { s with doors := upd s.doors d r }

/-- Replaces a SCREEN record. -/
def State.setScreen (s : State) (i : Screen) (r : ScreenRec) : State := { s with screens := upd s.screens i r }

/-- Replaces a LAYOUT record. -/
def State.setLayout (s : State) (i : Fin 32) (r : LayoutRec) : State := { s with layouts := upd s.layouts i r }

/-- Replaces a PANE record. -/
def State.setPane (s : State) (i : Fin 224) (r : PaneRec) : State := { s with panes := upd s.panes i r }

/-- Replaces a camera's ring state. -/
def State.setRing (s : State) (c : Camera) (r : RingRec) : State := { s with rings := upd s.rings c r }

/-- Replaces a camera's cadence record. -/
def State.setCadence (s : State) (c : Camera) (r : CadenceRec) : State := { s with cadence := upd s.cadence c r }

/-- Replaces a camera's lens record. -/
def State.setLens (s : State) (c : Camera) (r : LensRec) : State := { s with lens := upd s.lens c r }

/-- Replaces a screen's scan context. -/
def State.setContext (s : State) (i : Screen) (x : Option ScanContext) : State :=
  { s with contexts := upd s.contexts i x }

/-- Replaces a screen's spotlight list. -/
def State.setSpot (s : State) (i : Screen) (l : SpotList) : State := { s with spots := upd s.spots i l }

/-- Replaces a guard episode. -/
def State.setEpisode (s : State) (k : Fin 7) (e : Option Episode) : State :=
  { s with episodes := upd s.episodes k e }

/-- Replaces the hold in a place of the hold table. -/
def State.setHold (s : State) (h : HoldId) (x : Option Hold) : State :=
  { s with holds := { s.holds with table := upd s.holds.table h x } }

/-- Replaces frame memory. -/
def State.setMem (s : State) (m : Memory) : State := { s with mem := m }

/-- Replaces the Command Engine's state. -/
def State.setEngine (s : State) (e : Engine) : State := { s with engine := e }

/-- The slot record of slot `i` (R3). -/
def State.slot (s : State) (i : Nat) : SlotRec := s.pool.slots.getD i .fresh

/-- Replaces the slot record of slot `i`. -/
def State.setSlot (s : State) (i : Nat) (r : SlotRec) : State :=
  { s with pool := { s.pool with slots := s.pool.slots.set i r } }

/-- Bytes of one slot (R1). -/
def SlotPool.slotBytes (p : SlotPool) : Nat := p.units * Config.slotUnit

/-- The first byte of slot `i` (R1). -/
def SlotPool.slotAddr (p : SlotPool) (i : Nat) : Nat := p.base + i * p.slotBytes

/-- The address lies in the slot area of the slot table in force (R2). -/
def SlotPool.inArea (p : SlotPool) (a : Nat) : Bool :=
  decide (p.base ≤ a ∧ a < p.base + p.slots.length * p.slotBytes)

/-- The role of a role code (11.2). -/
def roleOfCode (n : Nat) : Role :=
  if n = 1 then .capture else if n = 2 then .display else if n = 3 then .control else .general

/-- Tag `t`'s role in a role map (11.6). -/
def roleIn (m : BitVec 32) (t : Tag) : Role := roleOfCode (m.extractLsb' (2 * t.toNat) 2).toNat

/-- The role the role map in force gives a tag (R191). -/
def State.roleOf (s : State) (t : Tag) : Role := roleIn s.setup.roleMap t

/-- The control page base that the sampled straps chose (R192). -/
def pageBaseOf (straps : BitVec 2) : Nat :=
  if straps = 0#2 then 0x00000000
  else if straps = 1#2 then 0x00100000
  else if straps = 2#2 then 0x10000000
  else 0x1FFFF000

/-- The control page base in force (R192). -/
def State.pageBase (s : State) : Nat := pageBaseOf s.straps

/-- ATTN (R181), low while RESET_N is low (R198). After a low pulse that R198 does not count the state
of the part is undefined, and so is this level: it is a free value (log entry 28). -/
def State.attn (s : State) : Bool :=
  match s.condition with
  | .running => s.ring.configured && decide (s.ring.producer ≠ s.ring.consumer)
  | .heldInReset => false
  | .lowPulse _ => false
  | .undefinedState => Config.undefinedAttn s.time.toNat

/-- Runs an operation of the part: it takes place while the part runs. While RESET_N is low the part
takes nothing and every block waits for its power-on values (R197); after a low pulse that R198 does
not count, the state of the part is undefined. -/
def whileRunning (s : State) (f : State → State) : Host.Outcome State Fault Refusal :=
  match s.condition with
  | .running => .next (f s)
  | .heldInReset => .next s
  | .lowPulse _ => .next s
  | .undefinedState => .fault .undefinedPart

/-- The Frame Port returns a read word (R190). -/
def State.returnWord (s : State) (r : Requester) (w : Word) : State :=
  { s with port := { s.port with read := some ⟨r.tag, w, r.last⟩ } }

/-- The Frame Port completes a write request with its last beat (R190): posted, dropped or not. -/
def State.completeWrite (s : State) (r : Requester) : State :=
  { s with port := { s.port with completed := if r.last then some r.tag else s.port.completed } }

/-- A full write: all 8 byte enables set. -/
def isFull (w : WriteData) : Bool := decide (w.enables = 0xFF#8)

end Sys2Proof.Machine
end

