-- ==== Sys2Proof/Machine/Codes.lean ====
section
/-! DEFINITION. The codes of 11.2 and 11.5: the number each named value is written as. -/

namespace Sys2Proof.Machine

/-- Table codes. -/
def TableId.code : TableId → Nat
  | .setup => 0 | .cameras => 1 | .screens => 2 | .layouts => 3 | .panes => 4 | .doors => 5

/-- The table of a table code, if it names one. -/
def tableOfCode (b : Byte) : Option TableId :=
  if b = 0#8 then some .setup
  else if b = 1#8 then some .cameras
  else if b = 2#8 then some .screens
  else if b = 3#8 then some .layouts
  else if b = 4#8 then some .panes
  else if b = 5#8 then some .doors
  else none

/-- The number of records of a table (R157). -/
def TableId.records : TableId → Nat
  | .setup => 1 | .cameras => 16 | .screens => 4 | .layouts => 32 | .panes => 224 | .doors => 12

/-- Engine state codes. -/
def EngineState.code : EngineState → Nat
  | .idle => 0 | .staging => 1 | .applying => 2 | .aborted => 3

/-- Result codes. -/
def Result.code : Result → Nat
  | .none => 0 | .done => 1 | .invalid => 2 | .refused => 3 | .aborted => 4 | .overtime => 5

/-- Cadence state codes. -/
def CadenceState.code : CadenceState → Nat
  | .off => 0 | .acquiring => 1 | .locked => 2 | .stale => 3

/-- Lens state codes. -/
def LensState.code : LensState → Nat
  | .unlearned => 0 | .clean => 1 | .part => 2 | .obscured => 3

/-- Learn activity codes. -/
def LearnActivity.code : LearnActivity → Nat
  | .idle => 0 | .running => 1 | .suspended => 2

/-- Door state codes. -/
def DoorState.code : DoorState → Nat
  | .closed => 0 | .opened => 1 | .alert => 2 | .unknown => 3

/-- Member state codes. -/
def MemberState.code : MemberState → Nat
  | .empty => 0 | .filling => 1 | .ready => 2

/-- An origin's code, which equals its origin rank (R119). -/
def Origin.rank : Origin → Nat
  | .doorAlert d => d.val
  | .doorOpen d => 12 + d.val
  | .reverse => 24
  | .manual => 25

/-- Guard kind codes. -/
def guardCode : GuardKind → Nat
  | .slotWrite => 1 | .screenWrite => 2 | .landingRole => 3 | .landingRange => 4
  | .landingDisabled => 5 | .controlRole => 6 | .unmapped => 7

/-- The place of a guard kind's episode. -/
def guardIndex : GuardKind → Fin 7
  | .slotWrite => 0 | .screenWrite => 1 | .landingRole => 2 | .landingRange => 3
  | .landingDisabled => 4 | .controlRole => 5 | .unmapped => 6

/-- Reason codes. -/
def Reason.code : Reason → Nat
  | .none => 0 | .badTable => 1 | .badCount => 2 | .outOfRange => 3 | .overcount => 4 | .short => 5
  | .otherCommand => 6 | .nothingStaged => 7 | .badCode => 8 | .badArg => 9 | .listFull => 10
  | .locked => 11 | .cameraOff => 12 | .lensOff => 13 | .notLearning => 14 | .tableFull => 15
  | .noFrame => 16 | .noSlot => 17 | .badRange => 18 | .badOrder => 19 | .badRoles => 20
  | .badRing => 21 | .badArea => 22 | .busySlots => 23 | .busyCamera => 24 | .badLink => 25
  | .chainLoop => 26 | .chainLong => 27 | .badPane => 28 | .restarted => 29

/-- Completion cause codes, 7 when absent (11.5). -/
def holdCauseCode : Option HoldCause → Nat
  | some .atTake => 0 | some .count => 1 | some .noSlot => 2 | some .disable => 3
  | some .restart => 4 | none => 7

end Sys2Proof.Machine
end

