-- ==== Sys2Proof/Machine/Reports.lean ====
section
/-! DEFINITION. The report records (9.5, 11.5) and the Report Writer (chapter 9): `Report` says what a
block reports, `Report.detail` lays its detail out, and `State.emit` is the whole of R177. -/

namespace Sys2Proof.Machine

/-- CADENCE causes (R39), numbered in this order (11.5). -/
inductive CadenceCause where
  | enable | disable | lock | slip | timeout | resume | restart
  deriving DecidableEq, Repr

/-- FROZEN causes (R39). -/
inductive FrozenCause where
  | signature | disable | restart
  deriving DecidableEq, Repr

/-- LENS causes (R56). -/
inductive LensCause where
  | judged | learned | enable | config | restart
  deriving DecidableEq, Repr

/-- LEARN_END discard causes (R62). -/
inductive DiscardCause where
  | disable | lensOff | config | restart
  deriving DecidableEq, Repr

/-- LEARN_END results (R63). -/
inductive LearnResult where
  | complete | featureless | tooDark | discarded (cause : DiscardCause)
  deriving DecidableEq, Repr

/-- DOOR causes (R117). -/
inductive DoorCause where
  | lines | enable | disable | restart
  deriving DecidableEq, Repr

/-- What a CAMERA_STATUS record carries (R184). -/
structure CameraStatus where
  enable : Bool
  frozen : Bool
  starved : Bool
  cadence : CadenceState
  lens : LensState
  learn : LearnActivity
  members : List (Nat × MemberState)
  accepted : BitVec 16
  torn : BitVec 16
  starvedDrop : BitVec 16
  flags : Vector Bool 48
  lastMean : Nat
  lastDark : Nat
  deriving DecidableEq, Repr

/-- An entry place of a SPOT_LIST record (R185): the coarse remaining linger and age. -/
structure SpotPlace where
  origin : Origin
  level : Nat
  layout : Nat
  active : Bool
  linger : Nat
  age : Nat
  deriving DecidableEq, Repr

/-- A report as its block hands it to the Report Writer: its kind, its subject and its detail (R182). -/
inductive Report where
  | commandDone (code tag : Byte) (result : Result) (reason : Reason) (table : Byte) (index : BitVec 16)
  | cadence (c : Camera) (old new : CadenceState) (cause : CadenceCause) (interval : Option Nat)
  | frozen (c : Camera) (set : Bool) (cause : FrozenCause) (signature : Option (BitVec 16))
  | starved (c : Camera) (begins : Bool)
  | lens (c : Camera) (old new : LensState) (cause : LensCause) (zu : Option (Nat × Nat))
  | learnEnd (c : Camera) (result : LearnResult) (learned candidates : Nat) (usable : Option Nat)
  | door (d : Door) (old new : DoorState) (cause : DoorCause)
  | spotGoverning (s : Screen) (new : Option (Origin × Nat)) (old : Option Origin)
  | spotEvicted (s : Screen) (removed : Origin) (removedLevel : Nat) (inserted : Origin) (insertedLevel : Nat)
  | spotRefused (s : Screen) (origin : Origin) (level lastLevel : Nat)
  | holdTaken (h : HoldId) (hold : Hold)
  | holdRefused (camera : Camera) (origin : Origin) (post : Nat) (reason : Reason)
  | holdComplete (h : HoldId) (hold : Hold)
  | holdReleased (h : HoldId) (hold : Hold) (freed retiring : Nat)
  | guard (kind : GuardKind) (episode : Episode)
  | cameraStatus (c : Camera) (status : CameraStatus)
  | spotList (s : Screen) (places : List SpotPlace)
  | holdList (h : HoldId) (hold : Hold)
  deriving DecidableEq, Repr

/-- The kind byte (11.5). -/
def Report.kind : Report → Nat
  | .commandDone .. => 1 | .cadence .. => 2 | .frozen .. => 3 | .starved .. => 4 | .lens .. => 5
  | .learnEnd .. => 6 | .door .. => 7 | .spotGoverning .. => 8 | .spotEvicted .. => 8
  | .spotRefused .. => 8 | .holdTaken .. => 9 | .holdRefused .. => 9 | .holdComplete .. => 9
  | .holdReleased .. => 9 | .guard .. => 10 | .cameraStatus .. => 11 | .spotList .. => 12
  | .holdList .. => 13

/-- The subject byte (R182). -/
def Report.subject : Report → Nat
  | .commandDone .. => 0
  | .cadence c .. => c.val | .frozen c .. => c.val | .starved c _ => c.val | .lens c .. => c.val
  | .learnEnd c .. => c.val
  | .door d .. => d.val
  | .spotGoverning s .. => s.val | .spotEvicted s .. => s.val | .spotRefused s .. => s.val
  | .holdTaken h _ => h.val | .holdRefused c .. => c.val | .holdComplete h _ => h.val
  | .holdReleased h .. => h.val
  | .guard k _ => guardCode k
  | .cameraStatus c _ => c.val | .spotList s _ => s.val | .holdList h _ => h.val

/-- CADENCE cause codes (11.5). -/
def CadenceCause.code : CadenceCause → Nat
  | .enable => 0 | .disable => 1 | .lock => 2 | .slip => 3 | .timeout => 4 | .resume => 5 | .restart => 6

/-- FROZEN cause codes. -/
def FrozenCause.code : FrozenCause → Nat
  | .signature => 0 | .disable => 1 | .restart => 2

/-- LENS cause codes. -/
def LensCause.code : LensCause → Nat
  | .judged => 0 | .learned => 1 | .enable => 2 | .config => 3 | .restart => 4

/-- LEARN_END result codes. -/
def LearnResult.code : LearnResult → Nat
  | .complete => 0 | .featureless => 1 | .tooDark => 2 | .discarded _ => 3

/-- LEARN_END discard cause codes, 0xFF when absent (R201). -/
def LearnResult.causeCode : LearnResult → Nat
  | .discarded .disable => 0 | .discarded .lensOff => 1 | .discarded .config => 2
  | .discarded .restart => 3 | .complete => 0xFF | .featureless => 0xFF | .tooDark => 0xFF

/-- DOOR cause codes. -/
def DoorCause.code : DoorCause → Nat
  | .lines => 0 | .enable => 1 | .disable => 2 | .restart => 3

/-- One byte of detail. -/
def b8 (n : Nat) : Byte := BitVec.ofNat 8 n

/-- A governing origin's byte, 0xFF when there is none (R201). -/
def originByte : Option Origin → Byte
  | some o => b8 o.rank
  | none => 0xFF

/-- The completion byte of a hold (11.5). -/
def completionByte (h : Hold) : Byte :=
  b8 (holdCauseCode h.cause + 8 * bit h.short + 16 * bit h.staleSource + 32 * h.slots.length)

/-- The slot indices of a hold's entries 0 to 3, 0xFF for an unused entry (R201). -/
def holdSlotBytes (h : Hold) : List Byte :=
  (List.range 4).map fun i => (h.slots[i]?.map fun e => b8 e.slot).getD 0xFF

/-- The frame numbers of a hold's entries 0 to 3, 0 for an unused entry (R201). -/
def holdFrameBytes (h : Hold) : List Byte :=
  (List.range 4).flatMap fun i => leBytes 4 ((h.slots[i]?.map fun e => e.frame.toNat).getD 0)

/-- The hold of a COMPLETE or HOLD_LIST detail from byte 9 on (11.5). -/
def holdDetail (h : Hold) : List Byte :=
  [b8 h.origin.rank, b8 h.camera.val, completionByte h] ++ holdSlotBytes h ++ holdFrameBytes h

/-- Entry place `e` of a SPOT_LIST record as its 24-bit value; origin 31 marks an unused place. -/
def spotPlaceValue : Option SpotPlace → Nat
  | none => 31
  | some p => p.origin.rank + 32 * bit p.active + 64 * p.level + 512 * p.layout + 16384 * p.linger + 524288 * p.age

/-- Member `m`'s state code in a CAMERA_STATUS record, 3 when unused (R201). -/
def memberCode (members : List (Nat × MemberState)) (m : Nat) : Nat :=
  (members[m]?.map fun x => x.2.code).getD 3

/-- The CAMERA_STATUS detail (11.5). -/
def CameraStatus.detail (x : CameraStatus) : List Byte :=
  [b8 (bit x.enable + 2 * bit x.frozen + 4 * bit x.starved + 8 * x.members.length),
   b8 (x.cadence.code + 4 * x.lens.code + 16 * x.learn.code)]
  ++ leBytes 2 (((List.range 6).map fun m => memberCode x.members m * 4 ^ m).foldl (· + ·) 0)
  ++ ((List.range 6).map fun m => (x.members[m]?.map fun y => b8 y.1).getD 0xFF)
  ++ leBytes 2 x.accepted.toNat ++ leBytes 2 x.torn.toNat ++ leBytes 2 x.starvedDrop.toNat
  ++ leBytes 6 (packBits x.flags.toList) ++ [b8 x.lastMean, b8 x.lastDark]

/-- The detail bytes from byte 8 on, before they are filled up with zero bytes (11.5, R201). -/
def Report.detail : Report → List Byte
  | .commandDone code tag result reason table index =>
    [code, tag, b8 result.code, b8 reason.code, table, 0] ++ leBytes 2 index.toNat
  | .cadence _ old new cause interval =>
    [b8 old.code, b8 new.code, b8 cause.code, b8 (bit interval.isSome)] ++ leBytes 4 (interval.getD 0)
  | .frozen _ set cause signature =>
    [b8 (bit set), b8 cause.code, b8 (bit signature.isSome), 0] ++ leBytes 2 (signature.getD 0).toNat
  | .starved _ begins => [b8 (bit begins)]
  | .lens _ old new cause zu =>
    [b8 old.code, b8 new.code, b8 cause.code, b8 ((zu.map Prod.fst).getD 0xFF), b8 ((zu.map Prod.snd).getD 0xFF)]
  | .learnEnd _ result learned candidates usable =>
    [b8 result.code, b8 result.causeCode, b8 learned, b8 (usable.getD 0xFF)] ++ leBytes 2 candidates
  | .door _ old new cause => [b8 old.code, b8 new.code, b8 cause.code]
  | .spotGoverning _ new old =>
    [0, originByte (new.map Prod.fst), (new.map fun x => b8 x.2).getD 0xFF, originByte old]
  | .spotEvicted _ removed removedLevel inserted insertedLevel =>
    [1, b8 removed.rank, b8 removedLevel, b8 inserted.rank, b8 insertedLevel]
  | .spotRefused _ origin level lastLevel => [2, b8 origin.rank, b8 level, b8 lastLevel]
  | .holdTaken _ h =>
    [0, b8 h.origin.rank, b8 h.camera.val, b8 h.post, b8 (2 * bit h.staleSource),
      (h.slots[0]?.map fun e => b8 e.slot).getD 0xFF, 0, 0]
    ++ leBytes 4 ((h.slots[0]?.map fun e => e.frame.toNat).getD 0)
    ++ leBytes 4 ((h.slots[0]?.bind fun e => e.captured).getD 0).toNat
  | .holdRefused _ origin post reason => [1, b8 origin.rank, b8 post, b8 reason.code]
  | .holdComplete _ h => 2 :: holdDetail h
  | .holdReleased _ h freed retiring => [3, b8 h.camera.val, b8 h.slots.length, b8 freed, b8 retiring]
  | .guard _ e =>
    [b8 e.tag.toNat, 0, 0, 0] ++ leBytes 4 e.addr.toNat ++ leBytes 4 e.opened.toNat ++ leBytes 2 e.count
  | .cameraStatus _ x => x.detail
  | .spotList _ places => (List.range 8).flatMap fun e => leBytes 3 (spotPlaceValue places[e]?)
  | .holdList _ h =>
    b8 (bit (decide (h.state = .complete)) + 2 * h.post) :: holdDetail h

/-- A report record's 32 bytes: common fields, then the detail filled up with zero bytes (R182, R201). -/
def Report.bytes (r : Report) (time : Time) (lost : Nat) : List Byte :=
  [b8 r.kind, b8 r.subject] ++ leBytes 2 lost ++ leBytes 4 time.toNat
    ++ (r.detail ++ List.replicate 24 0).take 24

/-- The ring is full: advancing the producer would make it equal to the consumer index (R177). -/
def ReportRing.full (r : ReportRing) : Bool := decide ((r.producer + 1) % r.capacity = r.consumer)

/-- A report would be written, not lost or discarded (R177). -/
def ReportRing.writable (r : ReportRing) : Bool := r.configured && !r.full

/-- The ring after a report is taken (R177). -/
def ReportRing.afterReport (r : ReportRing) : ReportRing :=
  if !r.configured then r
  else if r.full then { r with lost := min (r.lost + 1) Config.sixteenMax }
  else { r with lost := 0, producer := (r.producer + 1) % r.capacity }

/-- The first byte of the ring's place `p` (R176). -/
def ReportRing.placeAddr (r : ReportRing) (p : Nat) : Nat := r.base + p * Config.reportBytes

/-- The Report Writer takes a report: it discards, loses or writes it (R177). The time field is the
time base at the event, and every operation of the part is taken at one time base value. -/
def State.emit (s : State) (r : Report) : State :=
  { s with
    mem := if s.ring.writable
      then s.mem.writeBytes (s.ring.placeAddr s.ring.producer) (r.bytes s.time s.ring.lost) else s.mem
    ring := s.ring.afterReport }

/-- The Report Writer takes reports in their order. -/
def State.emitAll (s : State) (rs : List Report) : State := rs.foldl State.emit s

/-- A SETUP record's ring base and capacity are applied (R176): a change configures the ring afresh. -/
def ReportRing.reconfigure (r : ReportRing) (base capacity : Nat) : ReportRing :=
  if r.base = base ∧ r.capacity = capacity then r
  else { base, capacity, configured := true, producer := 0, consumer := 0, lost := 0 }

/-- A consumer index write (R179): both bytes of the field enabled, and a value below C. -/
def ReportRing.consume (r : ReportRing) (w : WriteData) : ReportRing :=
  let v := (w.data.extractLsb' 0 16).toNat
  if w.enables.getLsbD 0 ∧ w.enables.getLsbD 1 ∧ v < r.capacity then { r with consumer := v } else r

end Sys2Proof.Machine
end

