-- ==== Sys2Proof/Machine/Slots.lean ====
section
/-! DEFINITION. The Slot Manager (chapter 1): free pool, rings, landing targets, starvation, pins, and
the slot changes behind enables, disables and holds. What the other monitors do at an acceptance or
an enable stands in their own files. -/

namespace Sys2Proof.Machine

/-! ### The free pool -/

/-- The lowest index of a FREE slot, counting from `i` (R4). -/
def lowestFree : List SlotRec → Nat → Option Nat
  | [], _ => none
  | r :: rest, i => if r.disp = .free then some i else lowestFree rest (i + 1)

/-- The lowest FREE slot of the pool (R4). -/
def State.lowestFree (s : State) : Option Nat := Machine.lowestFree s.pool.slots 0

/-- The free count (R4). -/
def State.freeCount (s : State) : Nat := s.pool.slots.countP fun r => decide (r.disp = .free)

/-- A new pool for a new geometry: every slot FREE with pin count 0 (R1). -/
def freshPool (base units count : Nat) : SlotPool := ⟨base, units, List.replicate count .fresh⟩

/-- A SETUP record's geometry is applied (R1): the table is rebuilt only when base, size or count
differs. -/
def SlotPool.regeometry (p : SlotPool) (base units count : Nat) : SlotPool :=
  if p.base = base ∧ p.units = units ∧ p.slots.length = count then p else freshPool base units count

/-! ### Rings -/

/-- The ring members front to back, with their member states (R5). -/
def RingRec.members (r : RingRec) : List (Nat × MemberState) :=
  r.ready.map (fun i => (i, .ready)) ++ r.filling.toList.map (fun i => (i, .filling))
    ++ r.empty.map (fun i => (i, .empty))

/-- The newest READY member (R5). -/
def RingRec.newest (r : RingRec) : Option Nat := r.ready.getLast?

/-- A camera is STARVED while it is enabled and its ring has no FILLING member (R17). -/
def State.starved (s : State) (c : Camera) : Bool := s.cameras[c].enable && s.rings[c].filling.isNone

/-- The choice of a landing target, steps 1 and 2 of R16: the front EMPTY member, else the oldest
READY member with pin count 0 other than the newest. -/
def targetChoice (pins : Nat → Nat) (r : RingRec) : Option (Nat × RingRec) :=
  match r.empty with
  | i :: rest => some (i, { r with empty := rest, filling := some i })
  | [] =>
    match r.ready.dropLast.find? fun i => pins i = 0 with
    | some i => some (i, { r with ready := r.ready.erase i, filling := some i })
    | none => none

/-- The chosen member becomes FILLING, its frame number and capture time discarded (R16), if there is
one to choose. -/
def State.takeTarget (s : State) (c : Camera) : Option State :=
  match targetChoice (fun i => (s.slot i).pins) s.rings[c] with
  | some (i, r) => some ((s.setRing c r).setSlot i ⟨.ring c .filling, (s.slot i).pins, none⟩)
  | none => none

/-- Step 4 of an acceptance: a landing target is chosen, or the camera becomes STARVED (R16, R17). -/
def State.chooseTarget (s : State) (c : Camera) : State :=
  match s.takeTarget c with
  | some s' => s'
  | none => s.emit (.starved c true)

/-- A request has reached a STARVED camera's ring (R18): the member found becomes FILLING. -/
def State.endStarved (s : State) (c : Camera) : State :=
  match s.takeTarget c with
  | some s' => s'.emit (.starved c false)
  | none => s

/-- Camera `c` takes the lowest FREE slot as an EMPTY slot record (R4); the slot's index, or nothing
when the pool is empty. -/
def State.claimSlot (s : State) (c : Camera) : Option (Nat × State) :=
  match s.lowestFree with
  | some i => some (i, s.setSlot i ⟨.ring c .empty, 0, none⟩)
  | none => none

/-- Camera `c` takes up to `n` FREE slots, lowest index first (R6). -/
def State.claimSlots (s : State) (c : Camera) : Nat → List Nat × State
  | 0 => ([], s)
  | n + 1 =>
    match s.claimSlot c with
    | some (i, s') => let (is, s'') := s'.claimSlots c n; (i :: is, s'')
    | none => ([], s)

/-- Camera `c` receives a ring of `k` members: the first slot taken FILLING, the others EMPTY; its
landing phase is WAITING, its torn mark clear and its word-write count 0 (R6, R25). -/
def State.buildRing (s : State) (c : Camera) (k : Nat) : State :=
  let (is, s') := s.claimSlots c k
  let r := { s'.rings[c] with
    ready := [], filling := is.head?, empty := is.tail, phase := .waiting, tornMark := false, writes := 0 }
  match is with
  | [] => s'.setRing c r
  | i :: _ => (s'.setRing c r).setSlot i ⟨.ring c .filling, 0, none⟩

/-- The Slot Manager's part of an enable (R6): a ring of k members and its counts at 0. -/
def State.slotsEnable (s : State) (c : Camera) : State :=
  let s' := s.buildRing c s.cameras[c].k
  s'.setRing c { s'.rings[c] with frameCount := 0, accepted := 0, torn := 0, starvedDrop := 0 }

/-- A slot record of ring `c` after the ring is dissolved (R7): FREE, or RETIRING while pinned. -/
def SlotRec.dissolved (r : SlotRec) (c : Camera) : SlotRec :=
  match r.disp with
  | .ring c' _ =>
    if c' = c then
      if r.pins = 0 then .fresh else { disp := .retiring, pins := r.pins, frame := none }
    else r
  | .free => r
  | .held _ => r
  | .retiring => r

/-- The Slot Manager's part of a disable (R7): the ring is dissolved; the counts keep their values. -/
def State.slotsDisable (s : State) (c : Camera) : State :=
  { s with pool := { s.pool with slots := s.pool.slots.map fun r => SlotRec.dissolved r c } }.setRing c
    { s.rings[c] with
      ready := [], filling := none, empty := [], phase := .waiting, tornMark := false, writes := 0 }

/-- The number of ring members that R7 would make FREE: all but the pinned READY members (R163). -/
def State.freedByDisable (s : State) (c : Camera) : Nat :=
  s.pool.slots.countP fun r =>
    match r.disp with
    | .ring c' _ => decide (c' = c) && decide (r.pins = 0)
    | .free => false
    | .held _ => false
    | .retiring => false

/-! ### Pins -/

/-- A pin request (R19): the newest READY member of an enabled camera is pinned and its index
answered, or "no slot". -/
def State.pin (s : State) (c : Camera) : State × Option Nat :=
  match s.cameras[c].enable, s.rings[c].newest with
  | true, some i => (s.setSlot i { s.slot i with pins := (s.slot i).pins + 1 }, some i)
  | _, _ => (s, none)

/-- What follows when a slot's pin count has reached 0 (R20). -/
def State.unpinned (s : State) (i : Nat) : State :=
  match (s.slot i).disp with
  | .ring c .ready =>
    if s.starved c ∧ s.rings[c].newest ≠ some i then s.endStarved c else s
  | .ring _ .empty => s
  | .ring _ .filling => s
  | .retiring => s.setSlot i .fresh
  | .held _ => s
  | .free => s

/-- An unpin request (R20). -/
def State.unpin (s : State) (i : Nat) : State :=
  let r := s.slot i
  if r.pins = 0 then s
  else
    let s' := s.setSlot i { r with pins := r.pins - 1 }
    if r.pins = 1 then s'.unpinned i else s'

/-! ### Slots for holds -/

/-- An EMPTY member joins the back of ring `c`'s EMPTY part. -/
def State.joinEmpty (s : State) (c : Camera) (i : Nat) : State :=
  s.setRing c { s.rings[c] with empty := s.rings[c].empty ++ [i] }

/-- READY member `i` of camera `c` leaves the ring and becomes HELD(h), keeping its frame number,
capture time and pin count. -/
def State.liftMember (s : State) (c : Camera) (h : HoldId) (i : Nat) : State :=
  (s.setRing c { s.rings[c] with ready := s.rings[c].ready.erase i }).setSlot i
    { s.slot i with disp := .held h }

/-- What the Slot Manager answers to a take or a collection: slot index, frame number, capture time. -/
structure Taken where
  slot : Nat
  stamp : FrameStamp
  deriving DecidableEq, Repr

/-- The stamp of slot `i`; a READY member always holds one. -/
def State.stampOf (s : State) (i : Nat) : FrameStamp := (s.slot i).frame.getD ⟨0, 0⟩

/-- The transfer shared by a take and a collection: READY member `i` becomes HELD(h) and the lowest
FREE slot joins the ring as EMPTY (R21, R22); nothing when the pool is empty. -/
def State.transfer (s : State) (c : Camera) (h : HoldId) (i : Nat) : Option (Taken × State) :=
  match s.lowestFree with
  | none => none
  | some j =>
    some (⟨i, s.stampOf i⟩,
      ((s.liftMember c h i).setSlot j ⟨.ring c .empty, 0, none⟩).joinEmpty c j)

/-- A take request (R21): the newest READY member is transferred; a STARVED camera leaves that
condition when the replacement joins. `none` is the answer "not taken". -/
def State.takeRequest (s : State) (c : Camera) (h : HoldId) : Option (Taken × State) :=
  match s.rings[c].newest with
  | none => none
  | some i =>
    match s.transfer c h i with
    | none => none
    | some (t, s') => some (t, if s.starved c then s'.endStarved c else s')

/-- A slot record of hold `h` after its release (R22). -/
def SlotRec.released (r : SlotRec) (h : HoldId) : SlotRec :=
  if r.disp = .held h then
    if r.pins = 0 then .fresh else { disp := .retiring, pins := r.pins, frame := none }
  else r

/-- A release request (R22). -/
def State.releaseSlots (s : State) (h : HoldId) : State :=
  { s with pool := { s.pool with slots := s.pool.slots.map fun r => SlotRec.released r h } }

/-- Slots of hold `h` with the given pinned condition, as a release finds them (R144). -/
def State.heldCount (s : State) (h : HoldId) (pinned : Bool) : Nat :=
  s.pool.slots.countP fun r => decide (r.disp = .held h) && (decide (r.pins ≠ 0) == pinned)

/-! ### Warm restart -/

/-- A slot record after steps 1 and 2 of R25. -/
def SlotRec.restarted (r : SlotRec) : SlotRec :=
  match r.disp with
  | .held _ => { r with pins := 0 }
  | .free => .fresh
  | .ring _ _ => .fresh
  | .retiring => .fresh

/-- A camera's ring state after steps 1, 2 and 4 of R25; the first three counts are kept (R23). -/
def RingRec.restarted (r : RingRec) : RingRec :=
  { r with ready := [], filling := none, empty := [], phase := .waiting, tornMark := false, writes := 0,
           frameCount := 0 }

/-- The Slot Manager's part of a warm restart (R25). -/
def State.slotsRestart (s : State) : State :=
  let cleared := { s with
    pool := { s.pool with slots := s.pool.slots.map SlotRec.restarted }
    rings := Vector.ofFn fun c : Fin 16 => s.rings[c].restarted }
  (List.finRange 16).foldl (fun s c => if s.cameras[c].enable then s.buildRing c s.cameras[c].k else s) cleared

end Sys2Proof.Machine
end

