-- ==== Sys2Proof/Machine/Holds.lean ====
section
/-! DEFINITION. The Evidence Hold Unit (chapter 7): taking, collecting, completing and releasing holds,
and the hold lock. -/

namespace Sys2Proof.Machine

/-- The lowest empty place of the hold table (R135). -/
def State.emptyPlace (s : State) : Option HoldId :=
  (List.finRange 16).find? fun h => (s.holds.table.get h).isNone

/-- The hold count (R135). -/
def State.holdCount (s : State) : Nat := (List.finRange 16).countP fun h => (s.holds.table.get h).isSome

/-- Stores a new hold in its place, at the back of the order of creation (R135, R139). -/
def State.addHold (s : State) (h : HoldId) (x : Hold) : State :=
  { s with holds := { s.holds with table := upd s.holds.table h (some x), order := s.holds.order ++ [h] } }

/-- The hold record that a take makes (R139). -/
def newHold (o : Origin) (c : Camera) (t : Time) (post : Nat) (x : Taken) (stale : Bool) : Hold :=
  { state := if post = 0 then .complete else .collecting
    origin := o, camera := c, event := t, post := post
    slots := [⟨x.slot, x.stamp.number, .pre, some x.stamp.captured⟩]
    short := false, staleSource := stale
    cause := if post = 0 then some .atTake else none }

/-- What a take answers (R137): the hold's id, or the reason of the refusal. -/
inductive TakeAnswer where
  | taken (h : HoldId)
  | refused (reason : Reason)
  deriving DecidableEq, Repr

/-- A refused take: a HOLD report of event REFUSED, and nothing else (R138). -/
def State.refuseTake (s : State) (o : Origin) (c : Camera) (post : Nat) (reason : Reason) : State × TakeAnswer :=
  (s.emit (.holdRefused c o post reason), .refused reason)

/-- The hold is made from the Slot Manager's answer (R139). -/
def State.makeHold (s : State) (h : HoldId) (o : Origin) (c : Camera) (post : Nat) (x : Taken) : State × TakeAnswer :=
  let hold := newHold o c s.time post x (decide (s.cadence[c].state = .stale))
  let s' := (s.addHold h hold).emit (.holdTaken h hold)
  (if post = 0 then s'.emit (.holdComplete h hold) else s', .taken h)

/-- A take (R138): the three checks in order, then the take request and the hold record. One command
is taken whole, so "not taken" finds the checks' state unchanged and gives the reason R138 names. -/
def State.take (s : State) (o : Origin) (c : Camera) (post : Nat) : State × TakeAnswer :=
  match s.emptyPlace with
  | none => s.refuseTake o c post .tableFull
  | some h =>
    if !s.cameras[c].enable || s.rings[c].ready.isEmpty then s.refuseTake o c post .noFrame
    else if s.freeCount = 0 then s.refuseTake o c post .noSlot
    else
      match s.takeRequest c h with
      | some (x, s') => s'.makeHold h o c post x
      | none => s.refuseTake o c post (if s.rings[c].ready.isEmpty then .noFrame else .noSlot)

/-- The oldest COLLECTING hold of a camera, by the order of creation (R141). -/
def State.collectingHold (s : State) (c : Camera) : Option (HoldId × Hold) :=
  s.holds.order.findSome? fun h =>
    match s.holds.table.get h with
    | some x => if x.state = .collecting ∧ x.camera = c then some (h, x) else none
    | none => none

/-- A hold that becomes COMPLETE with the given cause and SHORT flag (R141, R142). -/
def Hold.completed (x : Hold) (cause : HoldCause) (short : Bool) : Hold :=
  { x with state := .complete, cause := some cause, short := short }

/-- The hold becomes COMPLETE and its COMPLETE report is emitted. -/
def State.completeHold (s : State) (h : HoldId) (x : Hold) (cause : HoldCause) (short : Bool) : State :=
  (s.setHold h (some (x.completed cause short))).emit (.holdComplete h (x.completed cause short))

/-- The number of POST entries of a hold (R134). -/
def Hold.postCount (x : Hold) : Nat := x.slots.countP fun e => decide (e.role = .post)

/-- A frame joins a hold as a POST entry (R141). -/
def Hold.withPost (x : Hold) (t : Taken) : Hold :=
  { x with slots := x.slots ++ [⟨t.slot, t.stamp.number, .post, none⟩] }

/-- Step 3 of an acceptance: the frame just accepted, in slot `i`, is offered to the oldest COLLECTING
hold of the camera (R141, R142). -/
def State.offerFrame (s : State) (c : Camera) (i : Nat) : State :=
  match s.collectingHold c with
  | none => s
  | some (h, x) =>
    match s.transfer c h i with
    | none => s.completeHold h x .noSlot true
    | some (t, s') =>
      let x' := x.withPost t
      if x'.postCount = x.post then s'.completeHold h x' .count false else s'.setHold h (some x')

/-- The camera has been disabled, or the part restarts: every COLLECTING hold that `which` names
completes SHORT, in the order of creation (R142, R151). -/
def State.completeShort (s : State) (which : Hold → Bool) (cause : HoldCause) : State :=
  s.holds.order.foldl
    (fun s h =>
      match s.holds.table.get h with
      | some x => if x.state = .collecting ∧ which x then s.completeHold h x cause true else s
      | none => s)
    s

/-- A hold id byte as a present hold, if it names one (R144). -/
def State.presentHold (s : State) (id : Byte) : Option (HoldId × Hold) :=
  if h : id.toNat < 16 then
    match s.holds.table.get ⟨id.toNat, h⟩ with
    | some x => some (⟨id.toNat, h⟩, x)
    | none => none
  else none

/-- A release (R144) of present hold `h` with the lock clear. -/
def State.releaseHold (s : State) (h : HoldId) (x : Hold) : State :=
  let freed := s.heldCount h false
  let retiring := s.heldCount h true
  let s' := s.releaseSlots h
  { s' with holds := { s'.holds with
      table := upd s'.holds.table h none, order := s'.holds.order.filter fun y => decide (y ≠ h) } }.emit
    (.holdReleased h x freed retiring)

end Sys2Proof.Machine
end

