-- ==== Sys2Proof/Machine/Spots.lean ====
section
/-! DEFINITION. The Spotlight Arbiter (6.3 to 6.6): raises, ends, linger counting and expiry in the
list of one screen. -/

namespace Sys2Proof.Machine

/-- Entry `a` stands before entry `b` (R121): by level, then by activation; of two activated at the
same time base value the lower origin rank first. -/
def standsBefore (a b : SpotEntry) : Bool :=
  decide (b.level < a.level)
    || (decide (a.level = b.level)
        && (if a.activated = b.activated then decide (a.origin.rank < b.origin.rank) else decide (a.order < b.order)))

/-- Inserts an entry at its position (R121). -/
def insertSpot (e : SpotEntry) : List SpotEntry → List SpotEntry
  | [] => [e]
  | b :: bs => if standsBefore e b then e :: b :: bs else b :: insertSpot e bs

/-- The entry of an origin, if the list holds one (R121: at most one per origin). -/
def SpotList.entryOf (l : SpotList) (o : Origin) : Option SpotEntry := l.entries.find? fun e => e.origin = o

/-- The governing entry (R121). -/
def SpotList.governing (l : SpotList) : Option SpotEntry := l.entries.head?

/-- The time counted on the governing entry's linger since t0 (R124). -/
def SpotList.counted (l : SpotList) (t : Time) : Nat :=
  match l.counting with
  | none => 0
  | some t0 => elapsed t0 t

/-- The remaining linger of an entry as it stands at `t` (R130). -/
def SpotList.lingerAt (l : SpotList) (t : Time) (e : SpotEntry) : Nat :=
  if l.governing.map SpotEntry.origin = some e.origin then e.linger - l.counted t else e.linger

/-- The GOVERNING report of a change, if the governing entry has changed (R125). -/
def governingReports (s : Screen) (old new : List SpotEntry) : List Report :=
  if old.head?.map (fun e => (e.origin, e.layout)) = new.head?.map (fun e => (e.origin, e.layout)) then []
  else [.spotGoverning s (new.head?.map fun e => (e.origin, e.layout)) (old.head?.map SpotEntry.origin)]

/-- Counting goes on through a change: the same entry governs, still inactive, its linger not set anew. -/
def countingGoesOn (old : SpotList) (new : List SpotEntry) (renewed : Bool) : Bool :=
  old.counting.isSome && !renewed
    && decide (old.governing.map SpotEntry.origin = new.head?.map SpotEntry.origin)
    && (new.head?.map fun e => !e.active).getD false

/-- At the stop of counting the remaining linger becomes the remainder less the time counted (R124). -/
def bankLinger (old : SpotList) (t : Time) (new : List SpotEntry) : List SpotEntry :=
  match old.counting, old.governing with
  | some t0, some g => new.map fun e => if e.origin = g.origin then { e with linger := e.linger - elapsed t0 t } else e
  | _, _ => new

/-- Closes an operation on a list (R124, R125): counting goes on, stops or starts, and a change of the
governing entry is reported. `renewed` says that the operation set the governing entry's remaining
linger anew. -/
def closeChange (s : Screen) (t : Time) (old : SpotList) (new : List SpotEntry) (created : Nat) (renewed : Bool) :
    SpotList × List Report :=
  let goesOn := countingGoesOn old new renewed
  let entries := if goesOn || renewed then new else bankLinger old t new
  let counting :=
    if goesOn then old.counting
    else match new.head? with
      | some e => if e.active then none else some t
      | none => none
  ({ entries, counting, created }, governingReports s old.entries new)

/-- What became of a raise (R128). -/
inductive RaiseOutcome where
  | refreshed | inserted | refused
  deriving DecidableEq, Repr

/-- A raise that finds an entry of its origin: the entry is refreshed, and moves only when its level
changes (R122). -/
def refreshEntry (entries : List SpotEntry) (e : SpotEntry) (level layout : Nat) : List SpotEntry :=
  let e' := { e with active := true, level, layout }
  if level = e.level then entries.map fun x => if x.origin = e.origin then e' else x
  else insertSpot e' (entries.filter fun x => decide (x.origin ≠ e.origin))

/-- A raise of origin `o` with level and layout in the list of screen `s` (R122). -/
def raiseIn (s : Screen) (t : Time) (o : Origin) (level layout : Nat) (l : SpotList) :
    SpotList × List Report × RaiseOutcome :=
  match l.entryOf o with
  | some e =>
    let x := closeChange s t l (refreshEntry l.entries e level layout) l.created false
    (x.1, x.2, .refreshed)
  | none =>
    let e : SpotEntry :=
      { origin := o, level, layout, active := true, linger := 0, activated := t, order := l.created }
    if l.entries.length < Config.spotMax then
      let x := closeChange s t l (insertSpot e l.entries) (l.created + 1) false
      (x.1, x.2, .inserted)
    else
      match l.entries.getLast? with
      | none => (l, [], .refused)
      | some last =>
        if standsBefore e last then
          let x := closeChange s t l (insertSpot e l.entries.dropLast) (l.created + 1) false
          (x.1, .spotEvicted s last.origin last.level o level :: x.2, .inserted)
        else (l, [.spotRefused s o level last.level], .refused)

/-- An end of origin `o` with a linger in milliseconds in the list of screen `s` (R123). -/
def endIn (s : Screen) (t : Time) (o : Origin) (lingerMs : Nat) (l : SpotList) : SpotList × List Report :=
  match l.entryOf o with
  | none => (l, [])
  | some _ =>
    if lingerMs = 0 then
      closeChange s t l (l.entries.filter fun x => decide (x.origin ≠ o)) l.created false
    else
      closeChange s t l
        (l.entries.map fun x => if x.origin = o then { x with active := false, linger := lingerMs * 1000 } else x)
        l.created (decide (l.governing.map SpotEntry.origin = some o))

/-- The governing entry's counted linger has reached its remaining linger (R124). -/
def SpotList.expired (l : SpotList) (t : Time) : Bool :=
  match l.counting, l.governing with
  | some t0, some g => !g.active && decide (g.linger ≤ elapsed t0 t)
  | _, _ => false

/-- A linger expires: the governing entry is removed (R124). -/
def expireIn (s : Screen) (t : Time) (l : SpotList) : SpotList × List Report :=
  closeChange s t l l.entries.tail l.created false

/-- Stores a screen's spotlight list and emits its reports. -/
def State.spotTo (s : State) (i : Screen) (x : SpotList × List Report) : State := (s.setSpot i x.1).emitAll x.2

/-- A raise in the list of one screen (R122). -/
def State.raiseOn (s : State) (i : Screen) (o : Origin) (level layout : Nat) : State :=
  let x := raiseIn i s.time o level layout s.spots[i]
  s.spotTo i (x.1, x.2.1)

/-- An end in the list of one screen (R123). -/
def State.endOn (s : State) (i : Screen) (o : Origin) (lingerMs : Nat) : State :=
  s.spotTo i (endIn i s.time o lingerMs s.spots[i])

/-- A raise notice: the origin is raised on each screen of its mask, in ascending number (R120). -/
def State.raiseOrigin (s : State) (o : Origin) (q : SpotRequest) : State :=
  (List.finRange 4).foldl (fun s i => if q.mask.getLsbD i.val then s.raiseOn i o q.level q.layout else s) s

/-- An end notice: the origin ends on every screen that holds an entry for it (R120). -/
def State.endOrigin (s : State) (o : Origin) (lingerMs : Nat) : State :=
  (List.finRange 4).foldl (fun s i => s.endOn i o lingerMs) s

/-- The notice that a changed request description of an active source gives one screen (R120). -/
def State.redescribeOn (s : State) (o : Origin) (old new : SpotRequest) (i : Screen) : State :=
  let was := old.mask.getLsbD i.val
  let is := new.mask.getLsbD i.val
  if is && !was then s.raiseOn i o new.level new.layout
  else if was && !is then s.endOn i o new.lingerMs
  else if is && was && (decide (old.level ≠ new.level) || decide (old.layout ≠ new.layout)) then
    match s.spots[i].entryOf o with
    | some e => if e.active then s.raiseOn i o new.level new.layout else s
    | none => s
  else s

/-- A COMMIT changes the request description of an active source (R120). -/
def State.redescribe (s : State) (o : Origin) (old new : SpotRequest) : State :=
  (List.finRange 4).foldl (fun s i => s.redescribeOn o old new i) s

/-- Screen `i`'s linger expires, if it has run out (R124). -/
def State.lingerExpiry (s : State) (i : Screen) : State :=
  if s.spots[i].expired s.time then s.spotTo i (expireIn i s.time s.spots[i]) else s

/-- The governing layout of a screen, "none" when its list is empty (R126). -/
def State.governingLayout (s : State) (i : Screen) : Option Nat := s.spots[i].governing.map SpotEntry.layout

end Sys2Proof.Machine
end

