-- ==== Sys2Proof/Machine/Doors.lean ====
section
/-! DEFINITION. The Door Line Unit (6.1 to 6.3): debouncing, door states, spotlight notices and hold
triggers. -/

namespace Sys2Proof.Machine

/-- A debouncer after one sample (R113). -/
def Debouncer.sample (d : Debouncer) (x : Bool) : Debouncer :=
  if d.accepted = some x then { d with candidate := none, run := 0 }
  else if d.candidate = some x then
    if d.run + 1 = 3 then { accepted := some x, candidate := none, run := 0 } else { d with run := d.run + 1 }
  else { d with candidate := some x, run := 1 }

/-- The door state formed from the enable and the accepted levels (R116). -/
def doorStateOf (enable : Bool) (alert opn : Option Bool) : DoorState :=
  if !enable then .closed
  else match alert, opn with
    | none, _ => .unknown
    | _, none => .unknown
    | some true, some _ => .alert
    | some false, some true => .opened
    | some false, some false => .closed

/-- An accepted level makes its source active (R119): UNKNOWN makes it inactive. -/
def levelActive (a : Option Bool) : Bool := a == some true

/-- DOOR_OPEN(d) is active (R119). -/
def State.openActive (s : State) (d : Door) : Bool := s.doors[d].enable && levelActive (s.doorUnit.opens.get d).accepted

/-- DOOR_ALERT(d) is active (R119). -/
def State.alertActive (s : State) (d : Door) : Bool :=
  s.doors[d].enable && levelActive (s.doorUnit.alerts.get d).accepted

/-- The notice for a source whose activity goes from `was` to `is` (R120). -/
def State.notice (s : State) (o : Origin) (q : SpotRequest) (was is : Bool) : State :=
  if is && !was then s.raiseOrigin o q
  else if was && !is then s.endOrigin o q.lingerMs
  else s

/-- Stores a door's state; a change emits one DOOR report (R117). -/
def State.setDoorState (s : State) (d : Door) (x : DoorState) (cause : DoorCause) : State :=
  let old := s.doorUnit.states.get d
  let s' := { s with doorUnit := { s.doorUnit with states := upd s.doorUnit.states d x } }
  if x = old then s' else s'.emit (.door d old x cause)

/-- Step 1 of R114: all 25 debouncers take their sample of the line levels. -/
def DoorUnit.sampled (u : DoorUnit) (l : Lines) : DoorUnit :=
  { u with
    opens := Vector.ofFn fun d : Fin 12 => (u.opens.get d).sample (l.opens.getLsbD d.val)
    alerts := Vector.ofFn fun d : Fin 12 => (u.alerts.get d).sample (l.alerts.getLsbD d.val)
    reverse := u.reverse.sample l.reverse }

/-- Step 2 of R114: the door states, in ascending door number. -/
def State.sampleStates (s : State) : State :=
  (List.finRange 12).foldl
    (fun s d =>
      s.setDoorState d
        (doorStateOf s.doors[d].enable (s.doorUnit.alerts.get d).accepted (s.doorUnit.opens.get d).accepted) .lines)
    s

/-- Step 3 of R114: the notices, against the line levels accepted before the sample. -/
def State.sampleNotices (s : State) (before : DoorUnit) : State :=
  let doors := (List.finRange 12).foldl
    (fun s (d : Door) =>
      let en := s.doors[d].enable
      let a := s.notice (.doorOpen d) s.doors[d].openReq (en && levelActive (before.opens.get d).accepted)
        (s.openActive d)
      a.notice (.doorAlert d) a.doors[d].alertReq (en && levelActive (before.alerts.get d).accepted)
        (a.alertActive d))
    s
  doors.notice .reverse doors.setup.reverse (levelActive before.reverse.accepted)
    (levelActive doors.doorUnit.reverse.accepted)

/-- A hold trigger (R136): a take for the door's camera with the door's post count. -/
def State.holdTrigger (s : State) (d : Door) : State :=
  (s.take (.doorAlert d) (Fin.ofNat 16 s.doors[d].camera) s.doors[d].post).1

/-- Step 4 of R114: the hold triggers of the alert lines that rose, in ascending door number. -/
def State.sampleTriggers (s : State) (before : DoorUnit) : State :=
  (List.finRange 12).foldl
    (fun s (d : Door) =>
      if s.doors[d].enable && s.doors[d].holdFlag && levelActive (s.doorUnit.alerts.get d).accepted
          && !levelActive (before.alerts.get d).accepted
      then s.holdTrigger d else s)
    s

/-- One sample of all 25 lines, handled as one operation (R114). -/
def State.sampleLines (s : State) : State :=
  let before := s.doorUnit
  let s1 := { s with doorUnit := before.sampled s.lines }
  (s1.sampleStates.sampleNotices before).sampleTriggers before

/-- The next sample instant has come (R112). -/
def State.sampleDue (s : State) : Bool := decide (s.setup.debounce ≤ elapsed s.doorUnit.lastSample s.time)

/-- A sample instant, if it has come: each falls one debounce period after the one before (R112). -/
def State.sampleInstant (s : State) : State :=
  if s.sampleDue then
    { s with doorUnit := { s.doorUnit with
        lastSample := s.doorUnit.lastSample + BitVec.ofNat 32 s.setup.debounce } }.sampleLines
  else s

/-- A changed debounce period (R112): if the next sample instant has already passed, the sample is taken
at once and the spacing runs on from there. -/
def State.debounceChanged (s : State) : State :=
  if s.sampleDue then { s with doorUnit := { s.doorUnit with lastSample := s.time } }.sampleLines else s

/-- A DOOR record is applied for door `d` (R118, R120). The manual gives no order between the notices of
its open and its alert source here; that the open source goes first, as at a sample instant (R114
step 3), is the model's choice (log entry 30). -/
def State.applyDoor (s : State) (d : Door) (new : DoorRec) : State :=
  let old := s.doors[d]
  let s1 := s.setDoor d new
  let opn := (s1.doorUnit.opens.get d).accepted
  let alert := (s1.doorUnit.alerts.get d).accepted
  if new.enable && !old.enable then
    let s2 := s1.setDoorState d (doorStateOf true alert opn) .enable
    (s2.notice (.doorOpen d) new.openReq false (levelActive opn)).notice (.doorAlert d) new.alertReq false
      (levelActive alert)
  else if old.enable && !new.enable then
    let s2 := s1.setDoorState d .closed .disable
    (s2.notice (.doorOpen d) new.openReq (levelActive opn) false).notice (.doorAlert d) new.alertReq
      (levelActive alert) false
  else
    let s2 := if s1.openActive d then s1.redescribe (.doorOpen d) old.openReq new.openReq else s1
    if s2.alertActive d then s2.redescribe (.doorAlert d) old.alertReq new.alertReq else s2

/-- The Door Line Unit's part of a warm restart (R132): debouncers UNKNOWN, the next sample one period
after the restart, enabled doors UNKNOWN in ascending number. -/
def State.doorsRestart (s : State) : State :=
  let s1 := { s with doorUnit := { s.doorUnit with
    lastSample := s.time, opens := Vector.replicate 12 .unknown, alerts := Vector.replicate 12 .unknown,
    reverse := .unknown } }
  (List.finRange 12).foldl
    (fun s (d : Door) => if s.doors[d].enable then s.setDoorState d .unknown .restart else s) s1

/-- The Spotlight Arbiter's part of a warm restart (R133): every list emptied, without reports. -/
def State.spotsRestart (s : State) : State :=
  { s with spots := Vector.ofFn fun i : Fin 4 => { s.spots[i] with entries := [], counting := none } }

end Sys2Proof.Machine
end

