-- ==== Sys2Proof/Machine/Cadence.lean ====
section
/-! DEFINITION. The Cadence Monitor (chapter 2). Each operation on a cadence record answers the new
record and the reports it emits, in their order. -/

namespace Sys2Proof.Machine

/-- Stores camera `c`'s cadence record and emits its reports. -/
def State.cadenceTo (s : State) (c : Camera) (x : CadenceRec × List Report) : State :=
  (s.setCadence c x.1).emitAll x.2

/-- The interval of an arrival at `t`, when the previous arrival is present (R30). -/
def arrivalInterval (r : CadenceRec) (t : Time) : Option Nat := r.previous.map fun p => elapsed p t

/-- The deviation |interval - P| (R30). -/
def deviation (interval period : Nat) : Nat := (interval - period) + (period - interval)

/-- The cadence judgement of an arrival (R31, R32, R33), before the times are set. -/
def judgeArrival (c : Camera) (period : Nat) (t : Time) (r : CadenceRec) : CadenceRec × List Report :=
  match r.state with
  | .off => (r, [])
  | .acquiring =>
    match arrivalInterval r t with
    | none => (r, [])
    | some i =>
      if deviation i period ≤ period / 16 then
        if r.good + 1 = 4 then
          ({ r with state := .locked, good := 0, slip := 0 }, [.cadence c .acquiring .locked .lock (some i)])
        else ({ r with good := r.good + 1 }, [])
      else ({ r with good := 0 }, [])
  | .locked =>
    match arrivalInterval r t with
    | none => (r, [])
    | some i =>
      if period / 8 < deviation i period then
        if r.slip + 1 = 3 then
          ({ r with state := .acquiring, good := 0, slip := 0 },
            [.cadence c .locked .acquiring .slip (some i)])
        else ({ r with slip := r.slip + 1 }, [])
      else ({ r with slip := 0 }, [])
  | .stale =>
    ({ r with state := .acquiring, good := 0, slip := 0 }, [.cadence c .stale .acquiring .resume none])

/-- The signature comparison of an arrival (R37) with the frame's signature `sig`. -/
def compareSignature (c : Camera) (sig : BitVec 16) (r : CadenceRec) : CadenceRec × List Report :=
  match r.prevSig with
  | none => ({ r with run := 0, prevSig := some sig }, [])
  | some p =>
    if p = sig then
      let run := min (r.run + 1) 8
      if run = 8 ∧ r.frozen = false then
        ({ r with run := run, frozen := true, prevSig := some sig }, [.frozen c true .signature (some sig)])
      else ({ r with run := run, prevSig := some sig }, [])
    else
      ({ r with run := 0, frozen := false, prevSig := some sig },
        if r.frozen then [.frozen c false .signature (some sig)] else [])

/-- An arrival at time `t` (R30): judgement, new times, then the signature (R37); the accumulator
becomes absent (R36). -/
def arrivalOf (c : Camera) (period : Nat) (t : Time) (r : CadenceRec) : CadenceRec × List Report :=
  let j := judgeArrival c period t r
  let timed := { j.1 with previous := some t, staleRef := t, sigAcc := none }
  let f := compareSignature c (r.sigAcc.getD 0) timed
  (f.1, j.2 ++ f.2)

/-- An accepted frame of camera `c` arrives at the Cadence Monitor (R14 step 2). -/
def State.arrival (s : State) (c : Camera) : State :=
  s.cadenceTo c (arrivalOf c s.cameras[c].period s.time s.cadence[c])

/-- The camera has been enabled (R28). -/
def cadenceEnabled (c : Camera) (t : Time) (r : CadenceRec) : CadenceRec × List Report :=
  ({ r with state := .acquiring, good := 0, slip := 0, previous := none, staleRef := t, sigAcc := none,
            prevSig := none, run := 0, frozen := false },
    [.cadence c .off .acquiring .enable none])

/-- The camera has been disabled (R29). -/
def cadenceDisabled (c : Camera) (r : CadenceRec) : CadenceRec × List Report :=
  ({ r with state := .off, good := 0, slip := 0, previous := none, sigAcc := none, prevSig := none,
            run := 0, frozen := false },
    .cadence c r.state .off .disable none :: (if r.frozen then [.frozen c false .disable none] else []))

/-- The stale timeout runs while the cadence state is ACQUIRING or LOCKED (R27). -/
def CadenceRec.timing (r : CadenceRec) : Bool := decide (r.state = .acquiring) || decide (r.state = .locked)

/-- Camera `c`'s stale timeout has run out (R34). -/
def State.staleDue (s : State) (c : Camera) : Bool :=
  s.cadence[c].timing && decide (3 * s.cameras[c].period ≤ elapsed s.cadence[c].staleRef s.time)

/-- The effect of the stale timeout (R34). -/
def cadenceStale (c : Camera) (r : CadenceRec) : CadenceRec × List Report :=
  ({ r with state := .stale, good := 0, slip := 0, previous := none }, [.cadence c r.state .stale .timeout none])

/-- The stale timeout of camera `c`, if it has run out (R34). -/
def State.staleTimeout (s : State) (c : Camera) : State :=
  if s.staleDue c then s.cadenceTo c (cadenceStale c s.cadence[c]) else s

/-- The sum of a word's four luma bytes (R36). -/
def lumaSum (w : Word) : Nat :=
  (byteOf w 0).toNat + (byteOf w 2).toNat + (byteOf w 4).toNat + (byteOf w 6).toNat

/-- A word 0 begins a frame: a new accumulator at 0 (R36). -/
def State.signatureBegin (s : State) (c : Camera) : State := s.setCadence c { s.cadence[c] with sigAcc := some 0 }

/-- A word is handed: its luma bytes are added, modulo 65,536 (R36). -/
def State.signatureAdd (s : State) (c : Camera) (w : Word) : State :=
  s.setCadence c { s.cadence[c] with sigAcc := s.cadence[c].sigAcc.map fun a => a + BitVec.ofNat 16 (lumaSum w) }

/-- The discard notice: the accumulator is dropped (R36). -/
def State.signatureDrop (s : State) (c : Camera) : State := s.setCadence c { s.cadence[c] with sigAcc := none }

/-- The Cadence Monitor's part of a warm restart for one camera (R41). -/
def cadenceRestarted (c : Camera) (enabled : Bool) (t : Time) (r : CadenceRec) : CadenceRec × List Report :=
  if enabled then
    ({ r with state := .acquiring, good := 0, slip := 0, previous := none, staleRef := t, sigAcc := none,
              prevSig := none, run := 0, frozen := false },
      (if r.state = .locked ∨ r.state = .stale then [.cadence c r.state .acquiring .restart none] else [])
        ++ (if r.frozen then [.frozen c false .restart none] else []))
  else ({ r with sigAcc := none }, [])

/-- The Cadence Monitor's part of a warm restart, in ascending camera number (R41). -/
def State.cadenceRestart (s : State) : State :=
  (List.finRange 16).foldl
    (fun s c => s.cadenceTo c (cadenceRestarted c s.cameras[c].enable s.time s.cadence[c])) s

end Sys2Proof.Machine
end

