-- ==== Sys2Proof/Machine/Lens.lean ====
section
/-! DEFINITION. The Lens Monitor (chapter 3). Each operation on a lens record answers the new record
and the reports it emits, in their order. -/

namespace Sys2Proof.Machine

/-- Stores camera `c`'s lens record and emits its reports. -/
def State.lensTo (s : State) (c : Camera) (x : LensRec × List Report) : State :=
  (s.setLens c x.1).emitAll x.2

/-! ### Accumulating a frame -/

/-- The zone of word index `n` (R42). -/
def zoneOf (r : CameraRec) (n : Nat) : Zone :=
  let y := n / (r.w / 4)
  let x := 4 * (n % (r.w / 4))
  Fin.ofNat 48 ((y * 6 / r.h) * 8 + x * 8 / r.w)

/-- One cored gradient, max(0, |b - a| - Tn) (R45). -/
def coredStep (tn : Nat) (a b : Byte) : Nat := ((a.toNat - b.toNat) + (b.toNat - a.toNat)) - tn

/-- The sum of a word's three cored gradients (R45). -/
def coredGradient (tn : Nat) (w : Word) : Nat :=
  coredStep tn (byteOf w 0) (byteOf w 2) + coredStep tn (byteOf w 2) (byteOf w 4)
    + coredStep tn (byteOf w 4) (byteOf w 6)

/-- A zone's accumulators after one word; they saturate (R45). -/
def ZoneAcc.add (z : ZoneAcc) (tn : Nat) (w : Word) : ZoneAcc :=
  { gradient := min (z.gradient + coredGradient tn w) Config.gradientMax
    luma := min (z.luma + lumaSum w) Config.lumaMax
    words := min (z.words + 1) Config.zoneWordsMax }

/-- Empty frame accumulators (R44). -/
def FrameAcc.zero : FrameAcc := ⟨Vector.replicate 48 ⟨0, 0, 0⟩, 0⟩

/-- The frame accumulators after word index `n` is handed with data `w` (R45). -/
def FrameAcc.add (a : FrameAcc) (r : CameraRec) (tn n : Nat) (w : Word) : FrameAcc :=
  { zones := upd a.zones (zoneOf r n) ((a.zones.get (zoneOf r n)).add tn w)
    total := min (a.total + lumaSum w) Config.lumaMax }

/-- A word 0 begins a frame: new accumulators, with the Tn in force (R44). -/
def State.lensBegin (s : State) (c : Camera) : State :=
  s.setLens c { s.lens[c] with acc := some .zero, noiseInUse := s.cameras[c].noise }

/-- A word is handed to the Lens Monitor (R45). -/
def State.lensAdd (s : State) (c : Camera) (n : Nat) (w : Word) : State :=
  s.setLens c { s.lens[c] with
    acc := s.lens[c].acc.map fun a => a.add s.cameras[c] s.lens[c].noiseInUse n w }

/-- The discard notice: the accumulators are dropped (R46). -/
def State.lensDrop (s : State) (c : Camera) : State := s.setLens c { s.lens[c] with acc := none }

/-! ### Figures of an accepted frame -/

/-- The sharpness index of a zone (R47). -/
def sharpness (z : ZoneAcc) : Nat := if z.words = 0 then 0 else z.gradient * 256 / (3 * z.words)

/-- The zone mean luma (R47). -/
def zoneMean (z : ZoneAcc) : Nat := if z.words = 0 then 0 else z.luma / (4 * z.words)

/-- The frame mean luma (R47). -/
def frameMean (r : CameraRec) (a : FrameAcc) : Nat := a.total / (r.w * r.h)

/-- The zones not on the exclusion list. -/
def includedZones (r : CameraRec) : List Zone := (List.finRange 48).filter fun z => !r.excl.getLsbD z.val

/-- The last darkest zone luma of a frame (R47). -/
def darkestZone (r : CameraRec) (a : FrameAcc) : Nat :=
  match (includedZones r).map fun z => zoneMean (a.zones.get z) with
  | [] => frameMean r a
  | m :: ms => ms.foldl min m

/-! ### Judging -/

/-- The ratio of a usable zone (R52). -/
def zoneRatio (si b : Nat) : Nat := min 1023 (si * 256 / b)

/-- The new zone score (R52). -/
def zoneScore (e ratio : Nat) : Nat := (7 * e + ratio + 4) / 8

/-- The new zone flag (R53). -/
def zoneFlag (onLevel offLevel e : Nat) (was : Bool) : Bool :=
  if e < onLevel then true else if offLevel ≤ e then false else was

/-- The frame class (R54). -/
def frameClass (partFrac obscFrac z u : Nat) : FrameClass :=
  if obscFrac * u ≤ 16 * z then .obscured else if partFrac * u ≤ 16 * z then .part else .clean

/-- The lens state that a frame class names. -/
def FrameClass.state : FrameClass → LensState
  | .clean => .clean | .part => .part | .obscured => .obscured

/-- The class history after a class joins: the last 8 (R55). -/
def pushClass (h : List FrameClass) (x : FrameClass) : List FrameClass := (if 8 ≤ h.length then h.tail else h) ++ [x]

/-- The class other than the current lens state that stands at least 5 times in a history of 8 (R55). -/
def newVerdict (state : LensState) (h : List FrameClass) : Option FrameClass :=
  if h.length = 8 then
    [FrameClass.clean, .part, .obscured].find? fun x => decide (x.state ≠ state) && decide (5 ≤ h.count x)
  else none

/-- The verdict on a judged frame with the baseline that stands (R52 to R55). -/
def judgeFrame (c : Camera) (setup : SetupRec) (base : Baseline) (a : FrameAcc) (l : LensRec) :
    LensRec × List Report :=
  let scores := Vector.ofFn fun z : Zone =>
    if base.usable.get z then zoneScore (l.scores.get z) (zoneRatio (sharpness (a.zones.get z)) (base.b.get z))
    else l.scores.get z
  let flags := Vector.ofFn fun z : Zone =>
    if base.usable.get z then zoneFlag setup.onLevel setup.offLevel (scores.get z) (l.flags.get z)
    else l.flags.get z
  let flagged := (List.finRange 48).countP fun z : Zone => base.usable.get z && flags.get z
  let history := pushClass l.history (frameClass setup.partFrac setup.obscFrac flagged l.usableCount)
  let l' := { l with scores, flags, history }
  match newVerdict l.state history with
  | some x => ({ l' with state := x.state }, [.lens c l.state x.state .judged (some (flagged, l.usableCount))])
  | none => (l', [])

/-! ### Learning -/

/-- The learn activity returns to IDLE with sums and counts 0. -/
def LensRec.learnIdle (l : LensRec) : LensRec :=
  { l with learn := .idle, sums := Vector.replicate 48 0, learned := 0, candidates := 0 }

/-- The verdict state as a completed run, an enable or a restart clears it: scores 256, flags clear,
history empty. -/
def LensRec.verdictCleared (l : LensRec) : LensRec :=
  { l with scores := Vector.replicate 48 256, flags := Vector.replicate 48 false, history := [] }

/-- The baseline of a completed run (R59): the rounded means, and the zones that are usable. -/
def learnedBaseline (r : CameraRec) (l : LensRec) : Baseline :=
  { b := Vector.ofFn fun z : Zone => (l.sums.get z + 32) / 64
    usable := Vector.ofFn fun z : Zone => !r.excl.getLsbD z.val && decide (64 ≤ (l.sums.get z + 32) / 64) }

/-- U, the number of usable zones of a baseline (R59). -/
def Baseline.usableZones (b : Baseline) : Nat := b.usable.toList.countP fun x => x

/-- The end of a run at 64 learned frames (R59). -/
def learnComplete (c : Camera) (r : CameraRec) (l : LensRec) : LensRec × List Report :=
  let base := learnedBaseline r l
  let u := base.usableZones
  if u < 12 then (l.learnIdle, [.learnEnd c .featureless l.learned l.candidates (some u)])
  else
    ({ l.verdictCleared.learnIdle with baseline := some base, usableCount := u, state := .clean },
      (if l.state ≠ .clean then [.lens c l.state .clean .learned none] else [])
        ++ [.learnEnd c .complete l.learned l.candidates (some u)])

/-- The failure test of R60. -/
def learnFailTest (c : Camera) (l : LensRec) : LensRec × List Report :=
  if Config.learnLimit ≤ l.candidates ∧ l.learned < Config.learnFrames then
    (l.learnIdle, [.learnEnd c .tooDark l.learned l.candidates none])
  else (l, [])

/-- A judged frame is learned from (R58), then the tests of R59 and R60. -/
def learnFrame (c : Camera) (r : CameraRec) (a : FrameAcc) (l : LensRec) : LensRec × List Report :=
  let l' := { l with
    sums := Vector.ofFn fun z : Zone => l.sums.get z + sharpness (a.zones.get z)
    learned := l.learned + 1 }
  if l'.learned = Config.learnFrames then learnComplete c r l' else learnFailTest c l'

/-- The frame has an eligible camera behind it (R49): `prior` and `frozen` are the cadence state and
FROZEN flag as they stood before the arrival. -/
def frameEligible (r : CameraRec) (prior : CadenceState) (frozen : Bool) : Bool :=
  r.lensOn && decide (prior = .locked) && !frozen

/-- The light gate (R51). -/
def lightGate (setup : SetupRec) (mean : Nat) : Bool := decide (setup.darkGate ≤ mean ∧ mean ≤ setup.glareGate)

/-- Steps 4 to 6 of R48, for a candidate whose eligible counter has been set to 0. -/
def candidateFrame (c : Camera) (r : CameraRec) (setup : SetupRec) (a : FrameAcc) (l : LensRec) :
    LensRec × List Report :=
  let counted := if l.learn = .running then { l with candidates := l.candidates + 1 } else l
  if lightGate setup (frameMean r a) then
    let j := match counted.baseline with
      | some base => judgeFrame c setup base a counted
      | none => (counted, [])
    if j.1.learn = .running then
      let k := learnFrame c r a j.1
      (k.1, j.2 ++ k.2)
    else j
  else if counted.learn = .running then learnFailTest c counted
  else (counted, [])

/-- The accepted notice (R48) as one operation on a lens record. -/
def lensAcceptedOf (c : Camera) (r : CameraRec) (setup : SetupRec) (prior : CadenceState) (frozen : Bool)
    (l : LensRec) : LensRec × List Report :=
  let a := l.acc.getD .zero
  let figured := { l with acc := none, lastMean := frameMean r a, lastDark := darkestZone r a }
  if frameEligible r prior frozen then
    if l.eligible + 1 < r.judge then ({ figured with eligible := l.eligible + 1 }, [])
    else candidateFrame c r setup a { figured with eligible := 0 }
  else (figured, [])

/-- The accepted notice at the Lens Monitor (R14 step 2, R48). -/
def State.lensAccepted (s : State) (c : Camera) (prior : CadenceState) (frozen : Bool) : State :=
  s.lensTo c (lensAcceptedOf c s.cameras[c] s.setup prior frozen s.lens[c])

/-! ### Learning commands -/

/-- One camera takes or refuses LEARN (R57). -/
def learnStart (r : CameraRec) (l : LensRec) : LensRec × Option Reason :=
  if !r.enable then (l, some .cameraOff)
  else if !r.lensOn then (l, some .lensOff)
  else ({ l.learnIdle with learn := .running }, none)

/-- One camera takes or refuses LEARN_SUSPEND (R61). -/
def learnPause (l : LensRec) : LensRec × Option Reason :=
  match l.learn with
  | .idle => (l, some .notLearning)
  | .running => ({ l with learn := .suspended }, none)
  | .suspended => (l, none)

/-- One camera takes or refuses LEARN_RESUME (R61). -/
def learnContinue (l : LensRec) : LensRec × Option Reason :=
  match l.learn with
  | .idle => (l, some .notLearning)
  | .running => (l, none)
  | .suspended => ({ l with learn := .running }, none)

/-- The cameras of a mask, in ascending number. -/
def camerasOf (mask : BitVec 16) : List Camera := (List.finRange 16).filter fun c => mask.getLsbD c.val

/-- Passes a learning command to each camera of a mask in ascending number; answers the reason of
each camera, `none` where the camera took it (R57, R61). -/
def State.learnEach (s : State) (f : CameraRec → LensRec → LensRec × Option Reason) (mask : BitVec 16) :
    State × List (Option Reason) :=
  (camerasOf mask).foldl
    (fun (x : State × List (Option Reason)) c =>
      let y := f x.1.cameras[c] x.1.lens[c]
      (x.1.setLens c y.1, x.2 ++ [y.2]))
    (s, [])

/-! ### Configuration, enable, disable, restart -/

/-- A run that is RUNNING or SUSPENDED is discarded (R62). -/
def discardRun (c : Camera) (cause : DiscardCause) (l : LensRec) : LensRec × List Report :=
  if l.learn = .idle then (l, [])
  else (l.learnIdle, [.learnEnd c (.discarded cause) l.learned l.candidates none])

/-- The verdict state starts over from CLEAN on a baseline that stands (R64, R70). -/
def verdictRestart (c : Camera) (cause : LensCause) (l : LensRec) : LensRec × List Report :=
  match l.baseline with
  | none => (l, [])
  | some _ =>
    ({ l.verdictCleared with state := .clean },
      if l.state = .part ∨ l.state = .obscured then [.lens c l.state .clean cause none] else [])

/-- The camera has been enabled (R64). -/
def lensEnabled (c : Camera) (l : LensRec) : LensRec × List Report :=
  verdictRestart c .enable { l with eligible := 0 }

/-- The CAMERA record's W, H or exclusion list changes (R66). -/
def geometryChanged (old new : CameraRec) : Bool :=
  decide (old.w ≠ new.w) || decide (old.h ≠ new.h) || decide (old.excl ≠ new.excl)

/-- The camera has been disabled (R65): the run is discarded, with cause CONFIG when the same record
changes geometry or exclusion list (R62). -/
def lensDisabled (c : Camera) (old new : CameraRec) (l : LensRec) : LensRec × List Report :=
  discardRun c (if geometryChanged old new then .config else .disable) l

/-- The baseline is discarded by a change of geometry or exclusion list (R66). -/
def baselineDiscard (c : Camera) (l : LensRec) : LensRec × List Report :=
  let x := discardRun c .config
    { l.verdictCleared with baseline := none, usableCount := 0, state := .unlearned }
  (x.1, (if l.state ≠ .unlearned then [.lens c l.state .unlearned .config none] else []) ++ x.2)

/-- The lens monitor enable changes (R66). -/
def lensSwitch (c : Camera) (old new : CameraRec) (l : LensRec) : LensRec × List Report :=
  if old.lensOn && !new.lensOn then discardRun c .lensOff l
  else if !old.lensOn && new.lensOn then ({ l with eligible := 0 }, [])
  else (l, [])

/-- A CAMERA record is applied at the Lens Monitor (R66). Tn and the judge interval are read from the
record in force when they are next used. -/
def lensConfigured (c : Camera) (old new : CameraRec) (l : LensRec) : LensRec × List Report :=
  let x := if geometryChanged old new then baselineDiscard c l else (l, [])
  let y := lensSwitch c old new x.1
  (y.1, x.2 ++ y.2)

/-- The Lens Monitor's part of a warm restart for one camera (R70). -/
def lensRestarted (c : Camera) (l : LensRec) : LensRec × List Report :=
  let x := discardRun c .restart { l with acc := none }
  let y := verdictRestart c .restart x.1
  ({ y.1 with eligible := 0 }, x.2 ++ y.2)

/-- The Lens Monitor's part of a warm restart, in ascending camera number (R70). -/
def State.lensRestart (s : State) : State :=
  (List.finRange 16).foldl (fun s c => s.lensTo c (lensRestarted c s.lens[c])) s

end Sys2Proof.Machine
end

