-- ==== Sys2Proof/Machine/Screens.lean ====
section
/-! DEFINITION. The Scan Compositor (chapters 4 and 5): the frame-start latch, the overlays, and the
composing of one screen word. The Command Engine's side of a frame start stands in its own file. -/

namespace Sys2Proof.Machine

/-! ### The usable camera and substitution -/

/-- A usable camera (R97): all five conditions hold. -/
def State.usable (s : State) (c : Camera) : Bool :=
  s.cameras[c].enable && decide (s.cadence[c].state ≠ .stale) && !s.cadence[c].frozen
    && decide (s.lens[c].state ≠ .obscured) && !s.rings[c].ready.isEmpty

/-- The partner field of a CAMERA record as a camera, or NONE (11.6). -/
def CameraRec.partnerCamera (r : CameraRec) : Option Camera :=
  if h : r.partner < 16 then some ⟨r.partner, h⟩ else none

/-- The shown camera of a pane (R99). -/
def State.shownCamera (s : State) (p : PaneRec) (own : Camera) : Camera :=
  if s.usable own then own
  else if !p.subst then own
  else match s.cameras[own].partnerCamera with
    | none => own
    | some q => if s.usable q then q else own

/-! ### The latch -/

/-- The distinct entries of a list, in the order first met. -/
def distinct {α : Type} [DecidableEq α] (l : List α) : List α :=
  l.foldl (fun acc x => if acc.contains x then acc else acc ++ [x]) []

/-- The distinct slots latched in a scan context. -/
def ScanContext.slots (x : ScanContext) : List Nat :=
  distinct (x.panes.filterMap fun e => e.latched.map Latched.slot)

/-- Every distinct slot that screen `i` latched is unpinned and its scan context discarded (R72, R80
step 1). The manual gives no order to these unpin requests; that they go in the order in which the
slots are first met along the chain is the model's choice (log entry 29). -/
def State.releaseContext (s : State) (i : Screen) : State :=
  match s.contexts[i] with
  | none => s
  | some x => (x.slots.foldl State.unpin s).setContext i none

/-- The chain of pane indices from an index, at most `fuel` panes (R75, R82). -/
def chainFrom (panes : Vector PaneRec 224) : Nat → Nat → List (Fin 224)
  | 0, _ => []
  | fuel + 1, i =>
    if h : i < 224 then ⟨i, h⟩ :: chainFrom panes fuel (panes.get ⟨i, h⟩).next else []

/-- Step 3 of the latch: a pane entry for each pane of the chain (R82), with step 4's shown camera and
shown geometry (R99, R100). -/
def State.paneEntry (s : State) (i : Fin 224) : PaneEntry :=
  let p := s.panes[i]
  let own : Camera := Fin.ofNat 16 p.camera
  let shown := s.shownCamera p own
  { pane := i.val, copy := p, own, shown, shownW := s.cameras[shown].w, shownH := s.cameras[shown].h,
    latched := none, dim := false, staleBand := false, marker := decide (shown ≠ own), band := .none,
    border := .none }

/-- Step 5 of the latch: one pin request per distinct shown camera, in the order first met (R83). -/
def State.pinShown (s : State) (cams : List Camera) : State × List (Camera × Option Nat) :=
  cams.foldl
    (fun (x : State × List (Camera × Option Nat)) c =>
      let y := x.1.pin c
      (y.1, x.2 ++ [(c, y.2)]))
    (s, [])

/-- The answer to a camera's pin request. -/
def pinAnswer (answers : List (Camera × Option Nat)) (c : Camera) : Option Nat := answers.findSome? fun x =>
  if x.1 = c then x.2 else none

/-- The lens band of a pane entry (R102). -/
def bandOf (p : PaneRec) (hasSlot : Bool) (l : LensState) : LensBand :=
  if !p.lensBand || !hasSlot then .none
  else match l with
    | .unlearned => .none
    | .clean => .none
    | .part => .rows8
    | .obscured => .rows16

/-- Some door whose DOOR record names camera `own` stands in state `x` (R103). -/
def State.doorIn (s : State) (own : Camera) (x : DoorState) : Bool :=
  (List.finRange 12).any fun d : Door => decide (s.doors[d].camera = own.val) && decide (s.doorUnit.states.get d = x)

/-- The border colour of a pane entry (R103). -/
def State.borderOf (s : State) (p : PaneRec) (own : Camera) : Border :=
  if !p.border then .none
  else if s.doorIn own .alert then .alertRed
  else if s.doorIn own .opened then .openAmber
  else .none

/-- Step 6 of the latch for one pane entry, with its latched slot (R101, R102, R103). -/
def State.flagEntry (s : State) (e : PaneEntry) (slot : Option Nat) : PaneEntry :=
  let bad := decide (s.cadence[e.shown].state = .stale) || s.cadence[e.shown].frozen
  { e with
    latched := slot.map fun i => ⟨i, s.pool.slotAddr i⟩
    dim := slot.isSome && bad
    staleBand := slot.isNone || bad
    band := bandOf e.copy slot.isSome s.lens[e.shown].state
    border := s.borderOf e.copy e.own }

/-- The blink phase, (time base div 250,000) mod 2 (R80 step 7). -/
def blinkOf (t : Time) : Bool := decide (t.toNat / Config.blinkHalf % 2 = 1)

/-- The layout that screen `i` follows (R81). -/
def State.chosenLayout (s : State) (i : Screen) : Fin 32 :=
  Fin.ofNat 32 ((s.governingLayout i).getD s.screens[i].base)

/-- The latch of screen `i` (R80), as one operation; the frame start notice follows it. -/
def State.latch (s : State) (i : Screen) : State :=
  let s1 := s.releaseContext i
  let scr := s1.screens[i]
  let lay := s1.chosenLayout i
  let entries := (chainFrom s1.panes Config.chainMax s1.layouts[lay].head).map s1.paneEntry
  let pinned := s1.pinShown (distinct (entries.map PaneEntry.shown))
  let s2 := pinned.1
  let flagged := entries.map fun e => s2.flagEntry e (pinAnswer pinned.2 e.shown)
  s2.setContext i (some
    { width := scr.width, height := scr.height, stride := scr.stride, layout := lay.val,
      background := s1.layouts[lay].background, panes := flagged, blink := blinkOf s2.time })

/-! ### Composing a word -/

/-- The word of a pixel word's eight bytes Y0, Cb0, Y1, Cr0, Y2, Cb1, Y3, Cr1 (0.8, 11.1). -/
def pixelWord (y0 cb0 y1 cr0 y2 cb1 y3 cr1 : Byte) : Word := wordOfBytes [y0, cb0, y1, cr0, y2, cb1, y3, cr1]

/-- A word of one colour. -/
def Color.word (c : Color) : Word := pixelWord c.y c.cb c.y c.cr c.y c.cb c.y c.cr

/-- One pixel pair: its two lumas and its chroma. -/
structure Pair where
  y0 : Byte
  y1 : Byte
  cb : Byte
  cr : Byte
  deriving DecidableEq, Repr

/-- A pair of one colour. -/
def Color.pair (c : Color) : Pair := ⟨c.y, c.y, c.cb, c.cr⟩

/-- The word of two pairs. -/
def wordOfPairs (p q : Pair) : Word := pixelWord p.y0 p.cb p.y1 p.cr q.y0 q.cb q.y1 q.cr

/-- The fixed colours (0.8). -/
def noPictureGrey : Color := ⟨64, 128, 128⟩
/-- OPEN amber. -/
def openAmber : Color := ⟨162, 44, 181⟩
/-- ALERT red. -/
def alertRed : Color := ⟨81, 90, 240⟩
/-- Yellow stripe. -/
def yellowStripe : Color := ⟨210, 16, 146⟩
/-- Stale band grey. -/
def staleGrey : Color := ⟨128, 128, 128⟩
/-- Marker white. -/
def markerWhite : Color := ⟨235, 128, 128⟩

/-- The pane entry contains the word at (x, y) (R86). -/
def PaneEntry.contains (e : PaneEntry) (x y : Nat) : Bool :=
  decide (e.copy.x ≤ x ∧ x < e.copy.x + e.copy.w ∧ e.copy.y ≤ y ∧ y < e.copy.y + e.copy.h)

/-- The mean of samples: floor((sum + floor(n / 2)) / n) (R91). -/
def roundedMean (sum n : Nat) : Nat := (sum + n / 2) / n

/-- The sum of `f j k` over j and k below d. -/
def blockSum (d : Nat) (f : Nat → Nat → Nat) : Nat :=
  (List.range d).foldl (fun acc k => (List.range d).foldl (fun acc j => acc + f j k) acc) 0

/-- The source column of a word's first pixel (R88). -/
def PaneEntry.sourceX (e : PaneEntry) (x : Nat) : Nat := e.copy.cropX + (x - e.copy.x) * e.copy.d

/-- The source row of a word (R88). -/
def PaneEntry.sourceY (e : PaneEntry) (y : Nat) : Nat := e.copy.cropY + (y - e.copy.y) * e.copy.d

/-- The byte of the latched slot at an offset. -/
def slotByte (m : Memory) (addr off : Nat) : Nat := (m.read (physical (addr + off))).toNat

/-- The luma of output pixel `i` of the word at (x, y), before dimming (R89, R91). -/
def PaneEntry.luma (e : PaneEntry) (m : Memory) (addr x y i : Nat) : Nat :=
  let d := e.copy.d
  roundedMean
    (blockSum d fun j k =>
      slotByte m addr
        ((min (e.sourceY y + k) (e.shownH - 1) * e.shownW + min (e.sourceX x + i * d + j) (e.shownW - 1)) * 2))
    (d * d)

/-- The chroma of output pair `p`, Cb for `at_ = 1` and Cr for `at_ = 3` (R90, R91). -/
def PaneEntry.chroma (e : PaneEntry) (m : Memory) (addr x y p at_ : Nat) : Nat :=
  let d := e.copy.d
  roundedMean
    (blockSum d fun j k =>
      slotByte m addr
        ((min (e.sourceY y + k) (e.shownH - 1) * e.shownW
            + 2 * min ((e.sourceX x + 2 * p * d) / 2 + j) (e.shownW / 2 - 1)) * 2 + at_))
    (d * d)

/-- A luma value under the dim flag (R104). -/
def dimLuma (dim : Bool) (y : Nat) : Nat := if dim && decide (16 ≤ y) then 16 + (y - 16) / 2 else y

/-- A chroma value under the dim flag (R104). -/
def dimChroma (dim : Bool) (c : Nat) : Nat := if dim then 128 else c

/-- The picture of pair `p` of the word at (x, y): the source picture, dimmed when the dim flag is set,
or no-picture grey without a latched slot (R105, R110). -/
def PaneEntry.picture (e : PaneEntry) (m : Memory) (x y p : Nat) : Pair :=
  match e.latched with
  | none => noPictureGrey.pair
  | some l =>
    let yOf := fun i => BitVec.ofNat 8 (dimLuma e.dim (e.luma m l.addr x y i))
    let cOf := fun at_ => BitVec.ofNat 8 (dimChroma e.dim (e.chroma m l.addr x y p at_))
    ⟨yOf (2 * p), yOf (2 * p + 1), cOf 1, cOf 3⟩

/-- The border's colour for this scan, if there is a border (R108): red only in blink phase 0. -/
def borderColor (b : Border) (blink : Bool) : Option Color :=
  match b with
  | .none => none
  | .openAmber => some openAmber
  | .alertRed => if blink then none else some alertRed

/-- The pair at (px, y) lies in the border's columns or rows (R108). -/
def PaneEntry.inBorder (e : PaneEntry) (px y : Nat) : Bool :=
  decide (px < e.copy.x + 4) || decide (e.copy.x + e.copy.w ≤ px + 4) || decide (y < e.copy.y + 4)
    || decide (e.copy.y + e.copy.h ≤ y + 4)

/-- The pair at (px, y) lies in the marker's square (R109). -/
def PaneEntry.inMarker (e : PaneEntry) (px y : Nat) : Bool :=
  e.marker && decide (e.copy.x + e.copy.w ≤ px + 16) && decide (y < e.copy.y + 16)

/-- The row lies in the stale band (R106). -/
def PaneEntry.inStaleBand (e : PaneEntry) (y : Nat) : Bool := e.staleBand && decide (y < e.copy.y + 8)

/-- The rows of a lens band (R102). -/
def LensBand.rows : LensBand → Nat
  | .none => 0 | .rows8 => 8 | .rows16 => 16

/-- The first row of the lens band: under the stale band when there is one (R107). -/
def PaneEntry.lensTop (e : PaneEntry) : Nat := e.copy.y + (if e.staleBand then 8 else 0)

/-- The row lies in the lens band (R107). -/
def PaneEntry.inLensBand (e : PaneEntry) (y : Nat) : Bool :=
  decide (e.lensTop ≤ y ∧ y < e.lensTop + e.band.rows)

/-- The stripe of the lens band at screen column `px` (R107). -/
def PaneEntry.stripe (e : PaneEntry) (px y : Nat) : Color :=
  if (px + (y - e.copy.y)) / 8 % 2 = 0 then yellowStripe else blackFill

/-- Pair `p` of the pane word at (x, y), from the first cover of R110 that covers it. -/
def PaneEntry.pairAt (e : PaneEntry) (m : Memory) (blink : Bool) (x y p : Nat) : Pair :=
  let px := x + 2 * p
  match (if e.inBorder px y then borderColor e.border blink else none) with
  | some c => c.pair
  | none =>
    if e.inMarker px y then markerWhite.pair
    else if e.inStaleBand y then staleGrey.pair
    else if e.inLensBand y then (e.stripe px y).pair
    else e.picture m x y p

/-- The word on the screen at (x, y): of the first pane in chain order that contains it, else the
background (R86, R87). -/
def ScanContext.wordAt (ctx : ScanContext) (m : Memory) (x y : Nat) : Word :=
  match ctx.panes.find? fun e => e.contains x y with
  | some e => wordOfPairs (e.pairAt m ctx.blink x y 0) (e.pairAt m ctx.blink x y 1)
  | none => ctx.background.word

/-- A read at byte offset `off` of a screen window, located by the latched geometry (R77). -/
def ScanContext.readAt (ctx : ScanContext) (m : Memory) (off : Nat) : Word :=
  let y := off / ctx.stride
  let b := off % ctx.stride
  if ctx.height ≤ y ∨ ctx.width * 2 ≤ b then blackFill.word else ctx.wordAt m (b / 2) y

/-- The word that a read beat of screen `i` at byte offset `off` returns (R77). -/
def State.screenWord (s : State) (i : Screen) (off : Nat) : Word :=
  if !s.screens[i].enable then blackFill.word
  else match s.contexts[i] with
    | none => blackFill.word
    | some ctx => ctx.readAt s.mem off

/-- A read beat of screen `i` is a frame start (R78). -/
def State.frameStart (s : State) (r : Requester) (i : Screen) (off : Nat) : Bool :=
  decide (off = 0) && decide (s.roleOf r.tag = .display) && s.screens[i].enable

/-! ### SCREEN records -/

/-- A SCREEN record is applied (R72): a disable unpins and discards the scan context at once. -/
def State.applyScreen (s : State) (i : Screen) (new : ScreenRec) : State :=
  let s1 := s.setScreen i new
  if s.screens[i].enable && !new.enable then s1.releaseContext i else s1

/-- The scan context of a screen uses layout `l` (R85). -/
def State.usesLayout (s : State) (i : Screen) (l : Nat) : Bool :=
  match s.contexts[i] with
  | none => false
  | some ctx => decide (ctx.layout = l)

/-- The scan context of a screen uses pane `p` (R85). -/
def State.usesPane (s : State) (i : Screen) (p : Nat) : Bool :=
  match s.contexts[i] with
  | none => false
  | some ctx => ctx.panes.any fun e => decide (e.pane = p)

end Sys2Proof.Machine
end

