-- ==== Sys2Proof/Machine/Tables.lean ====
section
/-! DEFINITION. Reading table records from the staging buffer (11.6, R199) and the checks of COMMIT
validation that look at one record (R162 to R164) or at chains (R165). Only the bytes and bits that
11.6 lists are read. -/

namespace Sys2Proof.Machine

/-- The bytes of one staged record, by byte number 0 to 63. -/
abbrev RecordBytes := Nat → Nat

/-- Word `i` of the staging buffer. -/
def bufferWord (b : Vector Word 256) (i : Nat) : Word := if h : i < 256 then b.get ⟨i, h⟩ else 0

/-- The bytes of staging record `r` (11.6). -/
def recordBytes (b : Vector Word 256) (r : Nat) : RecordBytes :=
  fun i => (byteOf (bufferWord b (8 * r + i / 8)) (i % 8)).toNat

/-- The little-endian field of `n` bytes from byte `i`. -/
def field (f : RecordBytes) (i : Nat) : Nat → Nat
  | 0 => 0
  | n + 1 => f i + 256 * field f (i + 1) n

/-- Bit `j` of byte `i`. -/
def fieldBit (f : RecordBytes) (i j : Nat) : Bool := decide (f i / 2 ^ j % 2 = 1)

/-- A screen mask: bits 0 to 3 of byte `i`. -/
def fieldMask (f : RecordBytes) (i : Nat) : BitVec 4 := BitVec.ofNat 4 (f i)

/-- A SETUP record from its bytes. -/
def setupOf (f : RecordBytes) : SetupRec :=
  { slotBase := field f 0 4, slotUnits := f 4, slotCount := f 5, holdReserve := f 6,
    ringBase := field f 8 4, ringCapacity := field f 12 2, debounce := field f 14 2,
    roleMap := BitVec.ofNat 32 (field f 16 4), darkGate := f 20, glareGate := f 21,
    onLevel := field f 22 2, offLevel := field f 24 2, partFrac := f 26, obscFrac := f 27,
    reverse := { level := f 28, mask := fieldMask f 29, layout := f 30, lingerMs := field f 32 2 } }

/-- A CAMERA record from its bytes. -/
def cameraOf (f : RecordBytes) : CameraRec :=
  { enable := fieldBit f 0 0, lensOn := fieldBit f 0 1, k := f 1, w := field f 2 2, h := field f 4 2,
    period := field f 6 4, partner := f 10, judge := f 11, noise := f 12,
    excl := BitVec.ofNat 48 (field f 14 6) }

/-- A SCREEN record from its bytes. -/
def screenOf (f : RecordBytes) : ScreenRec :=
  { enable := fieldBit f 0 0, width := field f 2 2, height := field f 4 2, stride := field f 6 4, base := f 10 }

/-- A LAYOUT record from its bytes. -/
def layoutOf (f : RecordBytes) : LayoutRec :=
  { head := f 0, background := ⟨BitVec.ofNat 8 (f 1), BitVec.ofNat 8 (f 2), BitVec.ofNat 8 (f 3)⟩ }

/-- A PANE record from its bytes. -/
def paneOf (f : RecordBytes) : PaneRec :=
  { x := field f 0 2, y := field f 2 2, w := field f 4 2, h := field f 6 2, camera := f 8, d := f 9,
    cropX := field f 10 2, cropY := field f 12 2, border := fieldBit f 14 0, lensBand := fieldBit f 14 1,
    subst := fieldBit f 14 2, next := f 15 }

/-- A DOOR record from its bytes. -/
def doorOf (f : RecordBytes) : DoorRec :=
  { enable := fieldBit f 0 0, holdFlag := fieldBit f 0 1, post := f 0 / 4 % 4, camera := f 1,
    openReq := { level := f 2, mask := fieldMask f 3, layout := f 4, lingerMs := field f 6 2 },
    alertReq := { level := f 8, mask := fieldMask f 9, layout := f 10, lingerMs := field f 12 2 } }

/-! ### Checks of one record -/

/-- A check of a list of checks that must hold, with its reason. -/
structure Check where
  holds : Bool
  reason : Reason
  deriving DecidableEq, Repr

/-- The reason of the first check that fails (R161). -/
def firstFailure (cs : List Check) : Option Reason := (cs.find? fun c => !c.holds).map Check.reason

/-- `lo ≤ v ≤ hi`. -/
def within (lo v hi : Nat) : Bool := decide (lo ≤ v ∧ v ≤ hi)

/-- A request description is in range: level 1 to 7, linger at most 10,000 ms, layout 0 to 31 (R115). -/
def SpotRequest.inRange (q : SpotRequest) : Bool := within 1 q.level 7 && within 0 q.lingerMs 10000 && within 0 q.layout 31

/-- Two runs of addresses overlap. -/
def overlap (a alen b blen : Nat) : Bool := decide (a < b + blen ∧ b < a + alen ∧ 0 < alen ∧ 0 < blen)

/-- The ranges of the SETUP record (R162). -/
def SetupRec.inRange (r : SetupRec) : Bool :=
  within 1 r.slotUnits 128 && within 0 r.slotCount 128 && within 0 r.holdReserve 64
    && decide (r.slotBase % 65536 = 0) && within 500 r.debounce 8000 && within 0 r.darkGate 254
    && within 1 r.glareGate 255 && within 0 r.onLevel 1022 && within 1 r.offLevel 1023
    && within 0 r.partFrac 15 && within 1 r.obscFrac 16 && r.reverse.inRange

/-- The orders of the SETUP record (R162). -/
def SetupRec.ordered (r : SetupRec) : Bool :=
  decide (r.darkGate < r.glareGate) && decide (r.onLevel < r.offLevel) && decide (r.partFrac < r.obscFrac)

/-- At least one tag holds CONTROL (R162). -/
def SetupRec.hasControl (r : SetupRec) : Bool :=
  (List.range 16).any fun t => decide (roleIn r.roleMap (BitVec.ofNat 4 t) = .control)

/-- Bytes of the report ring. -/
def SetupRec.ringLen (r : SetupRec) : Nat := r.ringCapacity * Config.reportBytes

/-- Bytes of the slot area. -/
def SetupRec.areaLen (r : SetupRec) : Nat := r.slotCount * (r.slotUnits * Config.slotUnit)

/-- The report ring's place (R162). -/
def SetupRec.ringFits (r : SetupRec) (page : Nat) : Bool :=
  decide (r.ringBase % 4096 = 0) && within 64 r.ringCapacity 4096
    && decide (r.ringBase + r.ringLen ≤ Config.memoryBytes) && !overlap r.ringBase r.ringLen page Config.pageBytes

/-- The slot area's place (R162); a slot count of 0 places no slot area. -/
def SetupRec.areaFits (r : SetupRec) (page : Nat) : Bool :=
  decide (r.slotCount = 0)
    || (decide (r.slotBase + r.areaLen ≤ Config.memoryBytes)
        && !overlap r.slotBase r.areaLen page Config.pageBytes
        && !overlap r.slotBase r.areaLen r.ringBase r.ringLen)

/-- The slot geometry differs from a record's (R162). -/
def SetupRec.newGeometry (r old : SetupRec) : Bool :=
  decide (r.slotBase ≠ old.slotBase) || decide (r.slotUnits ≠ old.slotUnits) || decide (r.slotCount ≠ old.slotCount)

/-- Steps 1 and 2 of the CAMERA checks (R163), for camera `c` against the record in force. -/
def cameraChecks (slotBytes : Nat) (c : Nat) (old r : CameraRec) : List Check :=
  [⟨decide (r.w % 16 = 0) && within 320 r.w 1920 && within 240 r.h 1200 && decide (r.w * r.h * 2 ≤ slotBytes)
      && within 3 r.k 6 && within 10000 r.period 200000
      && ((decide (r.partner < 16) && decide (r.partner ≠ c)) || decide (r.partner = Config.noPartner))
      && within 1 r.judge 16 && within 0 r.noise 31, .badRange⟩,
   ⟨!(old.enable && r.enable)
      || (decide (r.w = old.w) && decide (r.h = old.h) && decide (r.k = old.k) && decide (r.excl = old.excl)),
    .busyCamera⟩]

/-- The ranges of a SCREEN record (R71, R164). -/
def ScreenRec.inRange (r : ScreenRec) : Bool :=
  within 64 r.width 2048 && decide (r.width % 4 = 0) && within 64 r.height 2048 && decide (r.stride % 8 = 0)
    && decide (r.width * 2 ≤ r.stride) && decide (r.stride * r.height ≤ 16777216) && within 0 r.base 31

/-- The ranges of a DOOR record (R164). -/
def DoorRec.inRange (r : DoorRec) : Bool := within 0 r.camera 15 && r.openReq.inRange && r.alertReq.inRange

/-- The ranges of a PANE record (R74), but for its next index, which the walk checks. -/
def PaneRec.inRange (p : PaneRec) : Bool :=
  within 0 p.x 2044 && decide (p.x % 4 = 0) && within 0 p.y 2047
    && within 4 p.w 2048 && decide (p.w % 4 = 0) && decide (p.x + p.w ≤ 2048)
    && within 4 p.h 2048 && decide (p.y + p.h ≤ 2048)
    && within 0 p.camera 15 && (decide (p.d = 1) || decide (p.d = 2) || decide (p.d = 4))
    && within 0 p.cropX 1916 && decide (p.cropX % 4 = 0) && within 0 p.cropY 1199

/-! ### Walking chains -/

/-- A failed validation: its reason, and the table and table index reported (R161, R165). -/
structure Failure where
  reason : Reason
  table : TableId
  index : Nat
  deriving DecidableEq, Repr

/-- The walk of layout `l` from an index, with the panes already visited (R165). Each index reached is
checked in the order of R165's table; 255 ends the walk. -/
def walkChain (panes : Vector PaneRec 224) (l : Nat) : Nat → Nat → List Nat → Option Failure
  | 0, _, _ => some ⟨.chainLong, .layouts, l⟩
  | fuel + 1, i, seen =>
    if i = Config.noPane then none
    else if h : i < 224 then
      if seen.contains i then some ⟨.chainLoop, .layouts, l⟩
      else if Config.chainMax ≤ seen.length then some ⟨.chainLong, .layouts, l⟩
      else if !(panes.get ⟨i, h⟩).inRange then some ⟨.badPane, .panes, i⟩
      else walkChain panes l fuel (panes.get ⟨i, h⟩).next (i :: seen)
    else some ⟨.badLink, .layouts, l⟩

/-- The chain from an index reaches a pane of the set, as the stores would stand (R165). -/
def reaches (panes : Vector PaneRec 224) (which : Nat → Bool) (i : Nat) : Bool :=
  (chainWalk panes 224 i).any which
where
  /-- The pane indices along a chain, at most `fuel`. -/
  chainWalk (panes : Vector PaneRec 224) : Nat → Nat → List Nat
    | 0, _ => []
    | fuel + 1, i => if h : i < 224 then i :: chainWalk panes fuel (panes.get ⟨i, h⟩).next else []

end Sys2Proof.Machine
end

