-- ==== Sys2Proof/Machine/Commit.lean ====
section
/-! DEFINITION. COMMIT: validation of the staged records (8.5) and their application (8.6), with what
each block does when a record is applied. -/

namespace Sys2Proof.Machine

/-! ### Validation -/

/-- The staged records, by table index, in ascending order (R157, R161). -/
def Engine.records (e : Engine) : List (Nat × RecordBytes) :=
  (List.range e.load.count).map fun r => (e.load.first + r, recordBytes e.buffer r)

/-- The SETUP checks in their order (R162). -/
def State.setupChecks (s : State) (r : SetupRec) : List Check :=
  [⟨r.inRange, .badRange⟩, ⟨r.ordered, .badOrder⟩, ⟨r.hasControl, .badRoles⟩,
   ⟨r.ringFits s.pageBase, .badRing⟩, ⟨r.areaFits s.pageBase, .badArea⟩,
   ⟨!(r.newGeometry s.setup)
      || ((List.finRange 16).all (fun c : Fin 16 => !s.cameras[c].enable) && decide (s.holdCount = 0)
          && s.pool.slots.all fun x => decide (x.disp ≠ .retiring)), .busySlots⟩]

/-- The staged CAMERA records. -/
def Engine.cameraRecords (e : Engine) : List (Camera × CameraRec) :=
  e.records.map fun x => (Fin.ofNat 16 x.1, cameraOf x.2)

/-- The first failure among records that are checked one by one (R161). -/
def firstBad {α : Type} (table : TableId) (checks : α → List Check) (index : α → Nat) (l : List α) : Option Failure :=
  l.findSome? fun x => (firstFailure (checks x)).map fun reason => ⟨reason, table, index x⟩

/-- The slot check of R163: the running free count through the load's disables and enables in ascending
camera number; answers the first camera whose enable fails. -/
def State.slotCheck (s : State) : Nat → List (Camera × CameraRec) → Option Camera
  | _, [] => none
  | free, (c, r) :: rest =>
    if s.cameras[c].enable && !r.enable then s.slotCheck (free + s.freedByDisable c) rest
    else if r.enable && !s.cameras[c].enable then
      if r.k + s.setup.holdReserve ≤ free then s.slotCheck (free - r.k) rest else some c
    else s.slotCheck free rest

/-- Validation of a CAMERAS load (R163). -/
def State.validateCameras (s : State) (l : List (Camera × CameraRec)) : Option Failure :=
  match firstBad .cameras (fun x => cameraChecks s.pool.slotBytes x.1.val s.cameras[x.1] x.2)
      (fun x => x.1.val) l with
  | some f => some f
  | none => (s.slotCheck s.freeCount l).map fun c => ⟨.noSlot, .cameras, c.val⟩

/-- The layout store as it would stand after a LAYOUTS load (R165). -/
def stagedLayouts (old : Vector LayoutRec 32) (l : List (Nat × RecordBytes)) : Vector LayoutRec 32 :=
  l.foldl (fun v x => upd v (Fin.ofNat 32 x.1) (layoutOf x.2)) old

/-- The pane store as it would stand after a PANES load (R165). -/
def stagedPanes (old : Vector PaneRec 224) (l : List (Nat × RecordBytes)) : Vector PaneRec 224 :=
  l.foldl (fun v x => upd v (Fin.ofNat 224 x.1) (paneOf x.2)) old

/-- Walks the layouts that `walked` names, in ascending number; the first failure ends validation. -/
def walkLayouts (layouts : Vector LayoutRec 32) (panes : Vector PaneRec 224) (walked : Fin 32 → Bool) : Option Failure :=
  (List.finRange 32).findSome? fun l =>
    if walked l then walkChain panes l.val 10 (layouts.get l).head [] else none

/-- Validation of the staged records against the tables as they would stand (R161). -/
def State.validate (s : State) : Option Failure :=
  let e := s.engine
  let recs := e.records
  match e.load.table with
  | .setup => firstBad .setup (fun x => s.setupChecks (setupOf x.2)) (fun x => x.1) recs
  | .cameras => s.validateCameras e.cameraRecords
  | .screens => firstBad .screens (fun x => [⟨(screenOf x.2).inRange, .badRange⟩]) (fun x => x.1) recs
  | .doors => firstBad .doors (fun x => [⟨(doorOf x.2).inRange, .badRange⟩]) (fun x => x.1) recs
  | .layouts =>
    walkLayouts (stagedLayouts s.layouts recs) s.panes fun l => recs.any fun x => decide (x.1 = l.val)
  | .panes =>
    let panes := stagedPanes s.panes recs
    walkLayouts s.layouts panes fun l =>
      reaches panes (fun p => recs.any fun x => decide (x.1 = p)) (s.layouts.get l).head

/-! ### Application -/

/-- The Door Line Unit's part when a SETUP record is applied: the REVERSE request (R120) and the
debounce period (R112). -/
def State.setupDoors (s : State) (old new : SetupRec) : State :=
  let s1 := if levelActive s.doorUnit.reverse.accepted then s.redescribe .reverse old.reverse new.reverse else s
  if old.debounce ≠ new.debounce then s1.debounceChanged else s1

/-- A SETUP record is applied (R166): slot geometry (R1), role map, the Door Line Unit's part, and last
the report ring (R176), so that the first record of a new ring is the COMMIT's own COMMAND_DONE
(R181, R187). The Lens Monitor reads the new figures from the record when it next judges (R67). The
rest of the order is log entry 17. -/
def State.applySetup (s : State) (new : SetupRec) : State :=
  let s1 := { s with setup := new, pool := s.pool.regeometry new.slotBase new.slotUnits new.slotCount }
  let s2 := s1.setupDoors s.setup new
  { s2 with ring := s2.ring.reconfigure new.ringBase new.ringCapacity }

/-- Camera `c` has been disabled by a record (R7, R29, R65, R142): the frame in progress is discarded,
the ring dissolved, and the other blocks told. -/
def State.disableCamera (s : State) (c : Camera) (old new : CameraRec) : State :=
  let s1 := ((s.lensDrop c).signatureDrop c).slotsDisable c
  let s2 := s1.cadenceTo c (cadenceDisabled c s1.cadence[c])
  let s3 := s2.lensTo c (lensDisabled c old new s2.lens[c])
  s3.completeShort (fun x => decide (x.camera = c)) .disable

/-- Camera `c` has been enabled by a record (R6, R28, R64). -/
def State.enableCamera (s : State) (c : Camera) : State :=
  let s1 := s.slotsEnable c
  let s2 := s1.cadenceTo c (cadenceEnabled c s1.time s1.cadence[c])
  s2.lensTo c (lensEnabled c s2.lens[c])

/-- The Lens Monitor's part when a CAMERA record is applied (R66). -/
def State.configureLens (s : State) (c : Camera) (old new : CameraRec) : State :=
  s.lensTo c (lensConfigured c old new s.lens[c])

/-- A CAMERA record is applied: stored, then the disable or enable is carried out (R8, R163), with the
Lens Monitor's change after a disable and before an enable (R66), and a new period at once (R35). The
manual gives no order between these blocks' reports (R202, 9.2): that the Lens Monitor's LENS and
LEARN_END reports of the configuration go behind the HOLD COMPLETE reports of a disable, before the
CADENCE ENABLE report of an enable, and before the CADENCE TIMEOUT report of a shortened period is the
model's choice (log entry 24). -/
def State.applyCamera (s : State) (c : Camera) (new : CameraRec) : State :=
  let old := s.cameras[c]
  let s1 := s.setCamera c new
  if old.enable && !new.enable then (s1.disableCamera c old new).configureLens c old new
  else if new.enable && !old.enable then (s1.configureLens c old new).enableCamera c
  else
    let s2 := s1.configureLens c old new
    if new.enable && decide (old.period ≠ new.period) then s2.staleTimeout c else s2

/-- The validated load is applied, in ascending table index (R166). -/
def State.applyLoad (s : State) : State :=
  let e := s.engine
  match e.load.table with
  | .setup => e.records.foldl (fun s x => s.applySetup (setupOf x.2)) s
  | .cameras => e.cameraRecords.foldl (fun s x => s.applyCamera x.1 x.2) s
  | .screens => e.records.foldl (fun s x => s.applyScreen (Fin.ofNat 4 x.1) (screenOf x.2)) s
  | .layouts => { s with layouts := stagedLayouts s.layouts e.records }
  | .panes => { s with panes := stagedPanes s.panes e.records }
  | .doors => e.records.foldl (fun s x => s.applyDoor (Fin.ofNat 12 x.1) (doorOf x.2)) s

/-- The load changed SCREEN record `i`: its content differs from the record before (R166). -/
def screenChanged (before after : State) (i : Screen) : Bool := decide (before.screens[i] ≠ after.screens[i])

/-- Screen `i` is affected by the load that took the part from `before` to `after` (R167). -/
def affected (before after : State) (i : Screen) : Bool :=
  after.screens[i].enable
    && (screenChanged before after i
        || (List.finRange 32).any (fun l =>
            after.usesLayout i l.val && decide (before.layouts.get l ≠ after.layouts.get l))
        || (List.finRange 224).any (fun p =>
            after.usesPane i p.val && decide (before.panes.get p ≠ after.panes.get p)))

/-- The affected screens as a set. -/
def affectedSet (before after : State) : BitVec 4 :=
  BitVec.ofNat 4 (packBits ((List.finRange 4).map fun i => affected before after i))

end Sys2Proof.Machine
end

