-- ==== Sys2Proof/Machine/Engine.lean ====
section
/-! DEFINITION. The Command Engine (chapter 8): taking a command by the engine state, results and
their reports, the load protocol, the APPLYING wait, the commands other blocks carry out, the
Status Window, the snapshot and the warm restart. -/

namespace Sys2Proof.Machine

/-! ### Results -/

/-- A result is recorded, with its table and index, and its COMMAND_DONE report emitted (R155). -/
def State.record (s : State) (code tag : Byte) (result : Result) (reason : Reason) (table : Byte) (index : BitVec 16) :
    State :=
  (s.setEngine { s.engine with result, reason, table, index }).emit (.commandDone code tag result reason table index)

/-- The command just taken ends (R155); its tag is the last tag. -/
def State.finish (s : State) (code : Byte) (result : Result) (reason : Reason) (table : Byte) (index : BitVec 16) :
    State :=
  s.record code s.engine.lastTag result reason table index

/-- The command just taken ends with table and index 0 and 0 (R155). -/
def State.finishPlain (s : State) (code : Byte) (result : Result) (reason : Reason) : State :=
  s.finish code result reason 0 0

/-- A taken command's tag becomes the last tag (R154). -/
def State.takeTag (s : State) (tag : Byte) : State := s.setEngine { s.engine with lastTag := tag }

/-- The engine enters a state. -/
def State.enter (s : State) (x : EngineState) : State := s.setEngine { s.engine with state := x }

/-- The staging buffer is discarded: zero bytes, and no word staged. -/
def State.discardStaging (s : State) : State :=
  s.setEngine { s.engine with buffer := Vector.replicate 256 0, staged := 0 }

/-- The table code of the load that opened the staging. -/
def Engine.loadTable (e : Engine) : Byte := b8 e.load.table.code

/-- The first record of the load that opened the staging. -/
def Engine.loadFirst (e : Engine) : BitVec 16 := BitVec.ofNat 16 e.load.first

/-- A result that names the table and first record of the staging (R155, R203). -/
def State.finishLoad (s : State) (code : Byte) (result : Result) (reason : Reason) : State :=
  s.finish code result reason s.engine.loadTable s.engine.loadFirst

/-- The load aborts (R158, R159): the staging buffer is discarded, the engine enters ABORTED and the
result ABORTED is recorded with its reason. -/
def State.abortLoad (s : State) (code : Byte) (reason : Reason) : State :=
  (s.discardStaging.enter .aborted).finishLoad code .aborted reason

/-! ### Loading -/

/-- LOAD taken in IDLE (R157). A load refused by its arguments records the bytes as written (R203). -/
def State.idleLoad (s : State) (table first count : Byte) : State :=
  match tableOfCode table with
  | none => (s.enter .aborted).finish 0x01 .aborted .badTable table (first.setWidth 16)
  | some t =>
    if count = 0#8 ∨ 32 < count.toNat ∨ t.records < first.toNat + count.toNat then
      (s.enter .aborted).finish 0x01 .aborted .badCount table (first.setWidth 16)
    else
      (s.discardStaging.setEngine
        { s.discardStaging.engine with state := .staging, load := ⟨t, first.toNat, count.toNat⟩ }).finishLoad 0x01 .done
        .none

/-- The word of the staging buffer after a beat's enabled bytes are merged (R158). -/
def mergeWord (old : Word) (w : WriteData) : Word :=
  wordOfBytes ((List.range 8).map fun i => if w.enables.getLsbD i then byteOf w.data i else byteOf old i)

/-- A CONTROL write beat into staging area word `word`, 0 to 255, while STAGING (R158). -/
def State.stageBeat (s : State) (word : Fin 256) (w : WriteData) : State :=
  let e := s.engine
  if e.load.count ≤ word.val / 8 then s.abortLoad 0xFF .outOfRange
  else if e.load.count * 8 < e.staged + 1 then s.abortLoad 0xFF .overcount
  else s.setEngine { e with staged := e.staged + 1, buffer := upd e.buffer word (mergeWord (e.buffer.get word) w) }

/-- After a load of SCREENS, LAYOUTS or PANES is applied (R167): DONE at once, or the APPLYING wait. -/
def State.awaitScreens (before after : State) : State :=
  let pending := affectedSet before after
  if pending = 0#4 then (after.enter .idle).finishLoad 0x02 .done .none
  else after.setEngine { after.engine with state := .applying, pending, waitStart := after.time }

/-- A COMMIT whose staged word count is complete: validated, and applied when every record passes
(R159, R161, R166, R167). -/
def State.commitLoad (s : State) : State :=
  match s.validate with
  | some f => (s.discardStaging.enter .idle).finish 0x02 .invalid f.reason (b8 f.table.code) (BitVec.ofNat 16 f.index)
  | none =>
    match s.engine.load.table with
    | .setup => (s.applyLoad.enter .idle).finishLoad 0x02 .done .none
    | .cameras => (s.applyLoad.enter .idle).finishLoad 0x02 .done .none
    | .doors => (s.applyLoad.enter .idle).finishLoad 0x02 .done .none
    | .screens => State.awaitScreens s s.applyLoad
    | .layouts => State.awaitScreens s s.applyLoad
    | .panes => State.awaitScreens s s.applyLoad

/-- COMMIT taken in STAGING (R159). -/
def State.stagingCommit (s : State) : State :=
  if s.engine.staged < s.engine.load.count * 8 then s.abortLoad 0x02 .short else s.commitLoad

/-- The COMMIT under way in APPLYING ends (R168). -/
def State.endApplying (s : State) (result : Result) : State :=
  (s.setEngine { s.engine with state := .idle, pending := 0 }).finishLoad 0x02 result .none

/-- The frame start notice of screen `i` (R85, R168). -/
def State.frameStartNotice (s : State) (i : Screen) : State :=
  match s.engine.state with
  | .applying =>
    let left := s.engine.pending &&& ~~~(1#4 <<< i.val)
    if s.engine.pending.getLsbD i.val then
      let s' := s.setEngine { s.engine with pending := left }
      if left = 0#4 then s'.endApplying .done else s'
    else s
  | .idle => s
  | .staging => s
  | .aborted => s

/-- 250,000 microseconds have passed in APPLYING with the set not empty (R168). -/
def State.applyingDue (s : State) : Bool :=
  decide (s.engine.state = .applying) && decide (Config.applyingLimit ≤ elapsed s.engine.waitStart s.time)

/-- The end of the APPLYING wait by time, if it has come (R168). -/
def State.applyingOvertime (s : State) : State := if s.applyingDue then s.endApplying .overtime else s

/-! ### Commands carried out by other blocks, taken in IDLE -/

/-- COMMIT taken in IDLE (R156). -/
def State.idleCommit (s : State) : State := s.finishPlain 0x02 .refused .nothingStaged

/-- ABORT_CLEAR taken in IDLE (R156). -/
def State.idleAbortClear (s : State) : State := s.finishPlain 0x03 .done .none

/-- An undefined code taken in IDLE (R156). -/
def State.idleUndefined (s : State) (code : Byte) : State := s.finishPlain code .refused .badCode

/-- The result of a learning command from the cameras' answers (R171). -/
def State.finishLearn (s : State) (code : Byte) (answers : List (Option Reason)) : State :=
  if answers.contains none then s.finishPlain code .done .none
  else
    match answers.head? with
    | some (some reason) => s.finishPlain code .refused reason
    | some none => s.finishPlain code .done .none
    | none => s.finishPlain code .refused .badArg

/-- LEARN taken in IDLE (R57, R171). -/
def State.idleLearn (s : State) (mask : BitVec 16) : State :=
  let x := s.learnEach learnStart mask
  x.1.finishLearn 0x10 x.2

/-- LEARN_SUSPEND taken in IDLE (R61, R171). -/
def State.idleLearnSuspend (s : State) (mask : BitVec 16) : State :=
  let x := s.learnEach (fun _ l => learnPause l) mask
  x.1.finishLearn 0x11 x.2

/-- LEARN_RESUME taken in IDLE (R61, R171). -/
def State.idleLearnResume (s : State) (mask : BitVec 16) : State :=
  let x := s.learnEach (fun _ l => learnContinue l) mask
  x.1.finishLearn 0x12 x.2

/-- A screen argument byte, if it names a screen (R200). -/
def screenArg (b : Byte) : Option Screen := if h : b.toNat < 4 then some ⟨b.toNat, h⟩ else none

/-- A camera argument byte, if it names a camera (R200). -/
def cameraArg (b : Byte) : Option Camera := if h : b.toNat < 16 then some ⟨b.toNat, h⟩ else none

/-- SPOT_SET taken in IDLE (R128). -/
def State.idleSpotSet (s : State) (screen layout level : Byte) : State :=
  match screenArg screen with
  | none => s.finishPlain 0x20 .refused .badArg
  | some i =>
    if 31 < layout.toNat ∨ level.toNat < 1 ∨ 7 < level.toNat then s.finishPlain 0x20 .refused .badArg
    else
      let s' := s.raiseOn i .manual level.toNat layout.toNat
      match (raiseIn i s.time .manual level.toNat layout.toNat s.spots[i]).2.2 with
      | .refreshed => s'.finishPlain 0x20 .done .none
      | .inserted => s'.finishPlain 0x20 .done .none
      | .refused => s'.finishPlain 0x20 .refused .listFull

/-- SPOT_CLEAR taken in IDLE (R129). -/
def State.idleSpotClear (s : State) (screen : Byte) : State :=
  match screenArg screen with
  | none => s.finishPlain 0x21 .refused .badArg
  | some i => (s.endOn i .manual 0).finishPlain 0x21 .done .none

/-- HOLD_TAKE taken in IDLE (R137). -/
def State.idleHoldTake (s : State) (camera post : Byte) : State :=
  match cameraArg camera with
  | none => s.finishPlain 0x30 .refused .badArg
  | some c =>
    if 3 < post.toNat then s.finishPlain 0x30 .refused .badArg
    else
      let x := s.take .manual c post.toNat
      match x.2 with
      | .taken h => x.1.finish 0x30 .done .none 0 (BitVec.ofNat 16 h.val)
      | .refused reason => x.1.finishPlain 0x30 .refused reason

/-- HOLD_RELEASE taken in IDLE (R144). -/
def State.idleHoldRelease (s : State) (id : Byte) : State :=
  match s.presentHold id with
  | none => s.finishPlain 0x31 .refused .badArg
  | some (h, x) =>
    if s.holds.lock then s.finishPlain 0x31 .refused .locked
    else (s.releaseHold h x).finishPlain 0x31 .done .none

/-- HOLD_LOCK taken in IDLE (R146). -/
def State.idleHoldLock (s : State) : State :=
  { s with holds := { s.holds with lock := true } }.finishPlain 0x32 .done .none

/-! ### The snapshot -/

/-- The Report Writer takes a snapshot record; the number of records written is counted (R186). -/
def State.emitCounted (x : State × Nat) (r : Report) : State × Nat := (x.1.emit r, x.2 + bit x.1.ring.writable)

/-- Camera `c`'s CAMERA_STATUS (R184). -/
def State.cameraStatus (s : State) (c : Camera) : CameraStatus :=
  { enable := s.cameras[c].enable, frozen := s.cadence[c].frozen, starved := s.starved c,
    cadence := s.cadence[c].state, lens := s.lens[c].state, learn := s.lens[c].learn,
    members := s.rings[c].members, accepted := s.rings[c].accepted, torn := s.rings[c].torn,
    starvedDrop := s.rings[c].starvedDrop, flags := s.lens[c].flags, lastMean := s.lens[c].lastMean,
    lastDark := s.lens[c].lastDark }

/-- A remaining linger in units of 500 ms, rounded up (R185). -/
def coarseLinger (us : Nat) : Nat := (us + 499999) / 500000

/-- An age in whole seconds, held at 31 (R185). -/
def coarseAge (us : Nat) : Nat := min (us / 1000000) 31

/-- Screen `i`'s SPOT_LIST places (R130, R185). -/
def State.spotPlaces (s : State) (i : Screen) : List SpotPlace :=
  s.spots[i].entries.map fun e =>
    { origin := e.origin, level := e.level, layout := e.layout, active := e.active,
      linger := coarseLinger (s.spots[i].lingerAt s.time e), age := coarseAge (elapsed e.activated s.time) }

/-- The records of a SNAPSHOT in their order (R173). -/
def State.snapshotRecords (s : State) : State × Nat :=
  let a := (List.finRange 16).foldl (fun (x : State × Nat) c => State.emitCounted x (.cameraStatus c (x.1.cameraStatus c))) (s, 0)
  let b := (List.finRange 4).foldl (fun (x : State × Nat) i => State.emitCounted x (.spotList i (x.1.spotPlaces i))) a
  (List.finRange 16).foldl
    (fun (x : State × Nat) h =>
      match x.1.holds.table.get h with
      | some y => State.emitCounted x (.holdList h y)
      | none => x)
    b

/-- SNAPSHOT taken in IDLE (R173). -/
def State.idleSnapshot (s : State) : State :=
  let x := s.snapshotRecords
  x.1.finish 0x40 .done .none 0 (BitVec.ofNat 16 x.2)

/-! ### The warm restart -/

/-- The COMMIT under way when RESTART is taken ends OVERTIME with reason RESTARTED (R174). -/
def State.cutApplying (s : State) (commitTag : Byte) : State :=
  match s.engine.state with
  | .applying => s.record 0x02 commitTag .overtime .restarted s.engine.loadTable s.engine.loadFirst
  | .idle => s
  | .staging => s
  | .aborted => s

/-- Every block's part of a warm restart (R174 and its table). Frames in progress are discarded by the
Slot Manager's notices (R25); the Access Guard closes its episodes without report (R197). -/
def State.restartBlocks (s : State) : State :=
  let slots := s.slotsRestart
  let monitors := slots.cadenceRestart.lensRestart
  let screens := { monitors with contexts := Vector.replicate 4 none }
  let doors := screens.doorsRestart.spotsRestart
  { doors.completeShort (fun _ => true) .restart with episodes := Vector.replicate 7 none }

/-- RESTART (R174), taken in every engine state. -/
def State.warmRestart (s : State) (tag : Byte) : State :=
  let commitTag := s.engine.lastTag
  let s1 := ((s.takeTag tag).discardStaging).cutApplying commitTag
  let s2 := s1.setEngine { s1.engine with state := .idle, pending := 0 }
  s2.restartBlocks.finishPlain 0x50 .done .none

/-! ### Taking a command -/

/-- What a command does when it is taken in IDLE (R156). -/
def State.idleCommand (s : State) : Command → State
  | .load table first count => s.idleLoad table first count
  | .commit => s.idleCommit
  | .abortClear => s.idleAbortClear
  | .learn mask => s.idleLearn mask
  | .learnSuspend mask => s.idleLearnSuspend mask
  | .learnResume mask => s.idleLearnResume mask
  | .spotSet screen layout level => s.idleSpotSet screen layout level
  | .spotClear screen => s.idleSpotClear screen
  | .holdTake camera post => s.idleHoldTake camera post
  | .holdRelease id => s.idleHoldRelease id
  | .holdLock => s.idleHoldLock
  | .snapshot => s.idleSnapshot
  | .restart => s
  | .undefinedCode code => s.idleUndefined code

/-- A Command Word write is offered to the engine, which takes or ignores it by its state (R154 and the
table of 8.3). -/
def State.offer (s : State) (c : Command) (tag : Byte) : State :=
  if c = .restart then s.warmRestart tag
  else
    match s.engine.state with
    | .idle => (s.takeTag tag).idleCommand c
    | .staging =>
      if c = .commit then (s.takeTag tag).stagingCommit
      else (s.takeTag tag).abortLoad (commandCode c) .otherCommand
    | .applying => s
    | .aborted => if c = .abortClear then ((s.takeTag tag).enter .idle).finishPlain 0x03 .done .none else s

/-! ### The Status Window -/

/-- ECHO (R169): the last tag; while APPLYING, its bitwise complement. -/
def Engine.echo (e : Engine) : Byte := if e.state = .applying then ~~~e.lastTag else e.lastTag

/-- Status Window word 0 (R169, 11.4). -/
def State.statusWord0 (s : State) : Word :=
  let e := s.engine
  wordOfBytes ([b8 e.state.code, e.echo, b8 (bit e.toggle), b8 e.result.code, b8 e.reason.code, e.table]
    ++ leBytes 2 e.index.toNat)

/-- Status Window word 1 (R170). -/
def State.statusWord1 (s : State) : Word :=
  wordOfBytes (leBytes 2 s.ring.producer ++ leBytes 2 s.ring.lost ++ [b8 (bit s.ring.configured), 0, 0, 0])

/-- The lens band level of a lens state (R68). -/
def bandLevel : LensState → Nat
  | .unlearned => 0 | .clean => 0 | .part => 1 | .obscured => 2

/-- Camera `c`'s four bits of Status Window word 2 (11.4). -/
def State.statusNibble (s : State) (c : Camera) : Nat :=
  bit (s.usable c) + 2 * bandLevel s.lens[c].state
    + 8 * bit (decide (s.cadence[c].state = .stale) || s.cadence[c].frozen)

/-- Status Window word 2 (R170). -/
def State.statusWord2 (s : State) : Word :=
  BitVec.ofNat 64 (((List.finRange 16).map fun c => s.statusNibble c * 16 ^ c.val).foldl (· + ·) 0)

/-- Status Window word 3 (R170). -/
def State.statusWord3 (s : State) : Word :=
  wordOfBytes (leBytes 4 s.time.toNat ++ [b8 s.freeCount, b8 s.holdCount, b8 (bit s.holds.lock), 0])

/-- A Status Window word (R153). -/
def State.statusWord (s : State) (word : Fin 4) : Word :=
  if word = 0 then s.statusWord0 else if word = 1 then s.statusWord1
  else if word = 2 then s.statusWord2 else s.statusWord3

/-- A read of a Status Window word: word 0 read in APPLYING flips TOGGLE after the word has been formed
(R169). -/
def State.afterStatusRead (s : State) (word : Fin 4) : State :=
  if word = 0 ∧ s.engine.state = .applying then s.setEngine { s.engine with toggle := !s.engine.toggle } else s

end Sys2Proof.Machine
end

