-- ==== Sys2Proof/Machine/Guard.lean ====
section
/-! DEFINITION. The Access Guard's episodes (10.4): a drop opens or counts in its kind's episode, and
a quiet episode closes with one GUARD report. -/

namespace Sys2Proof.Machine

/-- The episode of a guard kind. -/
def State.episode (s : State) (k : GuardKind) : Option Episode := s.episodes.get (guardIndex k)

/-- An episode after one drop (R195). -/
def episodeAfterDrop (e : Option Episode) (tag : Tag) (addr : BitVec 32) (t : Time) : Episode :=
  match e with
  | none => { tag, addr, opened := t, lastDrop := t, count := 1 }
  | some e => { e with lastDrop := t, count := min (e.count + 1) Config.sixteenMax }

/-- A write beat is dropped with guard kind `k` (R195); it changes no byte of frame memory (R194). -/
def State.guardDrop (s : State) (k : GuardKind) (tag : Tag) (addr : BitVec 32) : State :=
  s.setEpisode (guardIndex k) (some (episodeAfterDrop (s.episode k) tag addr s.time))

/-- An open episode has been quiet for 10,000 microseconds (R196). -/
def State.guardDue (s : State) (k : GuardKind) : Bool :=
  match s.episode k with
  | none => false
  | some e => decide (Config.guardQuiet ≤ elapsed e.lastDrop s.time)

/-- The close of kind `k`'s episode, if it is open: one GUARD report (R196). -/
def State.guardClose (s : State) (k : GuardKind) : State :=
  match s.episode k with
  | none => s
  | some e => (s.emit (.guard k e)).setEpisode (guardIndex k) none

end Sys2Proof.Machine
end

