-- ==== Sys2Proof/Machine/Landing.lean ====
section
/-! DEFINITION. Landing writes and the end of a frame (1.5, 1.6): what a write beat into a camera's
landing window does. -/

namespace Sys2Proof.Machine

/-- Frame words of a camera, W x H / 4 (R9). -/
def CameraRec.frameWords (r : CameraRec) : Nat := r.w * r.h / 4

/-- The word is written into the FILLING member's slot at the word's offset (R9) and handed to the two
monitors (R12). -/
def State.landWord (s : State) (c : Camera) (slot word : Nat) (w : WriteData) : State :=
  (((s.setMem (s.mem.writeWord (s.pool.slotAddr slot + 8 * word) w)).lensAdd c word w.data).signatureAdd c w.data)

/-- The word-write count after one more write; it holds at frame words + 1 (R11). -/
def countWrite (r : CameraRec) (n : Nat) : Nat := min (n + 1) (r.frameWords + 1)

/-- A full word 0 begins a frame in the FILLING member `slot` (R10, R44, R36). -/
def State.beginFrame (s : State) (c : Camera) (slot : Nat) (w : WriteData) : State :=
  let s1 := s.setRing c { s.rings[c] with phase := .inFrame, writes := 1, tornMark := false }
  ((s1.lensBegin c).signatureBegin c).landWord c slot 0 w

/-- A torn frame is counted, and both monitors discard what they gathered (R15). -/
def State.countTorn (s : State) (c : Camera) : State :=
  let s1 := s.setRing c { s.rings[c] with torn := s.rings[c].torn + 1 }
  (s1.lensDrop c).signatureDrop c

/-- The landing phase between frames: WAITING, count 0, torn mark clear (R14 step 5, R15). -/
def State.landingIdle (s : State) (c : Camera) : State :=
  s.setRing c { s.rings[c] with phase := .waiting, writes := 0, tornMark := false }

/-- Step 1 of R14: the FILLING member becomes the newest READY member, with the next frame number and
the capture time. -/
def State.memberReady (s : State) (c : Camera) (i : Nat) : State :=
  let r := s.rings[c]
  let n := r.frameCount + 1
  (s.setRing c { r with ready := r.ready ++ [i], filling := none, frameCount := n, accepted := r.accepted + 1 }).setSlot i
    ⟨.ring c .ready, 0, some ⟨n, s.time⟩⟩

/-- Acceptance of the frame in slot `i` (R14), its five steps. -/
def State.accept (s : State) (c : Camera) (i : Nat) : State :=
  let prior := s.cadence[c].state
  let frozen := s.cadence[c].frozen
  let s1 := s.memberReady c i
  let s2 := (s1.arrival c).lensAccepted c prior frozen
  let s3 := s2.offerFrame c i
  (s3.chooseTarget c).landingIdle c

/-- The end of a frame at its last word index (R13): accepted when the count is whole and the torn mark
clear, else torn. -/
def State.frameEnd (s : State) (c : Camera) : State :=
  let r := s.rings[c]
  match r.filling with
  | some i =>
    if r.writes = s.cameras[c].frameWords ∧ r.tornMark = false then s.accept c i else (s.countTorn c).landingIdle c
  | none => (s.countTorn c).landingIdle c

/-- After a beat has been taken in the FRAME phase: the last word index ends the frame (R13). -/
def State.afterBeat (s : State) (c : Camera) (word : Nat) : State :=
  if word + 1 = s.cameras[c].frameWords then s.frameEnd c else s

/-- A dropped word 0 of a STARVED camera (R10). -/
def State.starvedWord0 (s : State) (c : Camera) : State :=
  s.setRing c { s.rings[c] with phase := .dropping, starvedDrop := s.rings[c].starvedDrop + 1 }

/-- A full write of word 0 (R10). -/
def State.word0 (s : State) (c : Camera) (w : WriteData) : State :=
  match s.rings[c].filling with
  | some i =>
    match s.rings[c].phase with
    | .waiting => (s.beginFrame c i w).afterBeat c 0
    | .inFrame => ((s.countTorn c).beginFrame c i w).afterBeat c 0
    | .dropping => (s.beginFrame c i w).afterBeat c 0
  | none =>
    match s.rings[c].phase with
    | .waiting => s.starvedWord0 c
    | .inFrame => s
    | .dropping => s.starvedWord0 c

/-- Any other beat taken in the FRAME phase (R11): a full write is written and counted; a partial write
is dropped, counted, and tears the frame. -/
def State.frameBeat (s : State) (c : Camera) (word : Nat) (w : WriteData) : State :=
  let r := s.rings[c]
  let n := countWrite s.cameras[c] r.writes
  if isFull w then
    match r.filling with
    | some i => ((s.setRing c { r with writes := n }).landWord c i word w).afterBeat c word
    | none => s
  else (s.setRing c { r with writes := n, tornMark := true }).afterBeat c word

/-- A beat that has passed the checks of R9 is taken by the landing phase (R10, R11). -/
def State.landingPhase (s : State) (c : Camera) (word : Nat) (w : WriteData) : State :=
  if word = 0 ∧ isFull w = true then s.word0 c w
  else
    match s.rings[c].phase with
    | .inFrame => s.frameBeat c word w
    | .waiting => s
    | .dropping => s

/-- The byte address of word `word` of camera `c`'s landing window (0.3). -/
def landingAddr (c : Camera) (word : Nat) : BitVec 32 :=
  BitVec.ofNat 32 (Config.landingBase + c.val * Config.windowBytes + 8 * word)

/-- A write beat routed to camera `c`'s landing window (R193, R9). -/
def State.landingBeat (s : State) (tag : Tag) (c : Camera) (word : Nat) (w : WriteData) : State :=
  if s.roleOf tag ≠ .capture then s.guardDrop .landingRole tag (landingAddr c word)
  else if !s.cameras[c].enable then s.guardDrop .landingDisabled tag (landingAddr c word)
  else if s.cameras[c].frameWords ≤ word then s.guardDrop .landingRange tag (landingAddr c word)
  else s.landingPhase c word w

end Sys2Proof.Machine
end

