-- ==== Sys2Proof/Machine/Port.lean ====
section
/-! DEFINITION. The Frame Port (10.1, 10.3): the region that a beat's address selects, what a write beat
and a read beat do there, and how a request falls into beats. -/

namespace Sys2Proof.Machine

/-! ### Routing -/

/-- The regions of R193. Word numbers are counted from the region's first word. -/
inductive Region where
  | controlPage (word : BitVec 9)
  | slotArea
  | plain
  | landing (c : Camera) (word : BitVec 21)
  | screen (s : Screen) (word : BitVec 21)
  | unmapped
  deriving DecidableEq, Repr

/-- The region of a byte address whose three lowest bits are clear (R193). -/
def State.regionOf (s : State) (a : Nat) : Region :=
  if a < Config.memoryBytes then
    if s.pageBase ≤ a ∧ a < s.pageBase + Config.pageBytes then .controlPage (BitVec.ofNat 9 ((a - s.pageBase) / 8))
    else if s.pool.inArea a then .slotArea
    else .plain
  else if a < Config.screenBase then
    .landing (Fin.ofNat 16 ((a - Config.landingBase) / Config.windowBytes))
      (BitVec.ofNat 21 ((a - Config.landingBase) % Config.windowBytes / 8))
  else if a < Config.unmappedBase then
    .screen (Fin.ofNat 4 ((a - Config.screenBase) / Config.windowBytes))
      (BitVec.ofNat 21 ((a - Config.screenBase) % Config.windowBytes / 8))
  else .unmapped

/-- The beat's byte address: the three lowest bits are ignored (R189). -/
def beatAddr (a : Nat) : Nat := a / 8 * 8

/-! ### Write beats -/

/-- The byte address of a control page word. -/
def State.pageAddr (s : State) (word : Nat) : Nat := s.pageBase + 8 * word

/-- A control page write of a tag without the CONTROL role (R191). -/
def State.controlRoleDrop (s : State) (r : Requester) (word : Nat) : State :=
  s.guardDrop .controlRole r.tag (BitVec.ofNat 32 (s.pageAddr word))

/-- The beat's enabled bytes are written to their control page word (R152). -/
def State.pageWrite (s : State) (word : Nat) (w : WriteData) : State :=
  s.setMem (s.mem.writeWord (s.pageAddr word) w)

/-- A write beat of the staging area, words 256 to 511, from CONTROL (R152, R158). -/
def State.stagingBeat (s : State) (word : Fin 256) (w : WriteData) : State :=
  let s' := s.pageWrite (256 + word.val) w
  if s.engine.state = .staging then s'.stageBeat word w else s'

/-- A write beat of the consumer index word, from CONTROL (R152, R179). -/
def State.consumerBeat (s : State) (w : WriteData) : State :=
  let s' := s.pageWrite 16 w
  { s' with ring := s'.ring.consume w }

/-- A full write of the Command Word, from CONTROL (R152, R154). -/
def State.commandBeat (s : State) (data : Word) (c : Command) (tag : Byte) : State :=
  (s.pageWrite 8 ⟨0xFF, data⟩).offer c tag

/-- A write beat of the control page that passes to the Command Engine, by the word it addresses
(R152). -/
def State.controlBeat (s : State) (word : Nat) (w : WriteData) : State :=
  if word < 4 then s
  else if word = 8 then
    if isFull w then s.commandBeat w.data (decodeCommand w.data) (commandTag w.data) else s.pageWrite 8 w
  else if word = 16 then s.consumerBeat w
  else if h : 256 ≤ word ∧ word < 512 then s.stagingBeat ⟨word - 256, by omega⟩ w
  else s.pageWrite word w

/-- A control page operation as a beat of requester `r` at `word`: only CONTROL may write there
(R191). -/
def State.asControl (s : State) (r : Requester) (word : Nat) (f : State → State) : State :=
  if s.roleOf r.tag = .control then f s else s.controlRoleDrop r word

/-- The byte address of word `word` of screen `i`'s window (0.3). -/
def screenAddr (i : Screen) (word : Nat) : BitVec 32 :=
  BitVec.ofNat 32 (Config.screenBase + i.val * Config.windowBytes + 8 * word)

/-- What a write beat at byte address `a` does in its region (R193). -/
def State.writeRegion (s : State) (r : Requester) (a : Nat) (w : WriteData) : Region → State
  | .controlPage word => s.asControl r word.toNat fun s => s.controlBeat word.toNat w
  | .slotArea => s.guardDrop .slotWrite r.tag (BitVec.ofNat 32 a)
  | .plain => s.setMem (s.mem.writeWord a w)
  | .landing c word => s.landingBeat r.tag c word.toNat w
  | .screen _ _ => s.guardDrop .screenWrite r.tag (BitVec.ofNat 32 a)
  | .unmapped => s.guardDrop .unmapped r.tag (BitVec.ofNat 32 a)

/-- A write beat at any address, and its completion (R190, R193). -/
def State.portWrite (s : State) (r : Requester) (a : Nat) (w : WriteData) : State :=
  (s.writeRegion r (beatAddr a) w (s.regionOf (beatAddr a))).completeWrite r

/-! ### Read beats -/

/-- A read beat of screen `i` at word `word` (R77 to R80): a frame start latches first. -/
def State.screenBeat (s : State) (r : Requester) (i : Screen) (word : Nat) : State :=
  let s' := if s.frameStart r i (8 * word) then (s.latch i).frameStartNotice i else s
  s'.returnWord r (s'.screenWord i (8 * word))

/-- A read beat of Status Window word `word` (R153, R169). -/
def State.statusBeat (s : State) (r : Requester) (word : Fin 4) : State :=
  (s.afterStatusRead word).returnWord r (s.statusWord word)

/-- A read beat of frame memory at byte address `a` (R193). -/
def State.memoryBeat (s : State) (r : Requester) (a : Nat) : State := s.returnWord r (s.mem.readWord a)

/-- What a read beat at byte address `a` does in its region (R193, R194). -/
def State.readRegion (s : State) (r : Requester) (a : Nat) : Region → State
  | .controlPage word => if h : word.toNat < 4 then s.statusBeat r ⟨word.toNat, h⟩ else s.memoryBeat r a
  | .slotArea => s.memoryBeat r a
  | .plain => s.memoryBeat r a
  | .landing _ _ => s.returnWord r 0
  | .screen i word => s.screenBeat r i word.toNat
  | .unmapped => s.returnWord r 0

/-- A read beat at any address (R193). -/
def State.portRead (s : State) (r : Requester) (a : Nat) : State :=
  s.readRegion r (beatAddr a) (s.regionOf (beatAddr a))

/-! ### Requests -/

/-- A Frame Port request (R189) as FP_RQ_LEN gives its length, the beat count less 1 (10.6): 1 to 16
beats. A write gives one data word with its byte enables per beat; those behind its last beat are no
part of it. -/
inductive Request where
  | write (tag : Tag) (addr : BitVec 32) (len : Fin 16) (data : Vector WriteData 16)
  | read (tag : Tag) (addr : BitVec 32) (len : Fin 16)
  deriving DecidableEq, Repr

/-- The byte address of beat `n` of a request, modulo 2^32 (R189). -/
def Request.beatAddress (addr : BitVec 32) (n : Nat) : Nat := (beatAddr addr.toNat + 8 * n) % 2 ^ 32

/-- The full Command Word write of requester `r` with the given data, as its row's command (11.3). -/
def commandRow (r : Requester) (d : Word) : Instr :=
  let tag := commandTag d
  match decodeCommand d with
  | .load table first count => .load r tag table first count (d.extractLsb' 40 24)
  | .commit => .commit r tag (d.extractLsb' 16 48)
  | .abortClear => .abortClear r tag (d.extractLsb' 16 48)
  | .learn mask => .learn r tag mask (d.extractLsb' 32 32)
  | .learnSuspend mask => .learnSuspend r tag mask (d.extractLsb' 32 32)
  | .learnResume mask => .learnResume r tag mask (d.extractLsb' 32 32)
  | .spotSet screen layout level => .spotSet r tag screen layout level (d.extractLsb' 40 24)
  | .spotClear screen => .spotClear r tag screen (d.extractLsb' 24 40)
  | .holdTake camera post => .holdTake r tag camera post (d.extractLsb' 32 32)
  | .holdRelease id => .holdRelease r tag id (d.extractLsb' 24 40)
  | .holdLock => .holdLock r tag (d.extractLsb' 16 48)
  | .snapshot => .snapshot r tag (d.extractLsb' 16 48)
  | .restart => .restart r tag (d.extractLsb' 16 48)
  | .undefinedCode code => .undefinedCode r code tag (d.extractLsb' 16 48)

/-- The control page write row that a beat at `word` stands under. -/
def pageRow (r : Requester) (word : BitVec 9) (w : WriteData) : Instr :=
  if word = 8#9 ∧ isFull w = true then commandRow r w.data
  else if word = 16#9 then .consumerIndex r w
  else if 256 ≤ word.toNat then .stagingWrite r (word.setWidth 8) w
  else .controlPageWrite r word w

/-- The row's command of a write beat, by the region of its address. -/
def State.writeRow (s : State) (r : Requester) (a : Nat) (w : WriteData) : Instr :=
  match s.regionOf (beatAddr a) with
  | .controlPage word => pageRow r word w
  | .slotArea => .plainWriteBeat r (BitVec.ofNat 29 a) w
  | .plain => .plainWriteBeat r (BitVec.ofNat 29 a) w
  | .landing c word => .landingWrite r c word w
  | .screen i word => .screenWrite r i word w
  | .unmapped => .unmappedWrite r (BitVec.ofNat 32 a) w

/-- The row's command of a read beat, by the region of its address. -/
def State.readRow (s : State) (r : Requester) (a : Nat) : Instr :=
  match s.regionOf (beatAddr a) with
  | .controlPage word =>
    if h : word.toNat < 4 then .statusWindowRead r ⟨word.toNat, h⟩ else .plainReadBeat r (BitVec.ofNat 29 a)
  | .slotArea => .plainReadBeat r (BitVec.ofNat 29 a)
  | .plain => .plainReadBeat r (BitVec.ofNat 29 a)
  | .landing _ _ => .zeroWordRead r (BitVec.ofNat 32 a)
  | .screen i word => .screenRead r i word
  | .unmapped => .zeroWordRead r (BitVec.ofNat 32 a)

/-- The beats of a request as commands, in beat order, each under the row that its own address selects
with the control page where the straps place it (R189, R192). The slot area shares its row with the
plain window, so the rows do not depend on what the earlier beats did. -/
def State.requestBeats (s : State) : Request → List Instr
  | .write tag addr len data =>
    (List.range (len.val + 1)).map fun n =>
      s.writeRow ⟨tag, decide (n = len.val)⟩ (Request.beatAddress addr n) (data.get (Fin.ofNat 16 n))
  | .read tag addr len =>
    (List.range (len.val + 1)).map fun n => s.readRow ⟨tag, decide (n = len.val)⟩ (Request.beatAddress addr n)

/-! ### Arrivals -/

/-- What the commands of the reset line leave of it: RESET_N low, and the straps sampled last. -/
structure ResetLine where
  low : Bool
  straps : BitVec 2
  deriving DecidableEq, Repr

/-- The reset line after a command: a release samples the straps, a fall takes RESET_N low (R192, R197). -/
def ResetLine.after (x : ResetLine) (c : Instr) : ResetLine :=
  match c with
  | .powerOnReset straps => ⟨false, straps⟩
  | .resetNFall .. => { x with low := true }
  | _ => x

/-- The reset line as a command at the back of the queue will find it. -/
def State.lineAtBack (s : State) : ResetLine := s.pending.foldl ResetLine.after ⟨s.condition.low, s.straps⟩

/-- A request arrives at the Frame Port: its beats join the back of the queue, so the requests of one
tag are taken in the order in which they arrive (R190). The control page stands for each beat where
the last release before it places it (R192). While RESET_N is low no request is taken (R197). -/
def State.arrive (s : State) (q : Request) : State :=
  let line := s.lineAtBack
  if line.low then s
  else { s with pending := s.pending ++ { s with straps := line.straps }.requestBeats q }

/-- The command is no beat of a request: time or the reset line brings it. -/
def notBeat (c : Instr) : Bool :=
  match c with
  | .powerOnReset _ => true
  | .resetNFall .. => true
  | .staleTimeout _ => true
  | .sampleInstant .. => true
  | .lingerExpiry _ => true
  | .guardEpisodeClose _ => true
  | .applyingOvertime => true
  | _ => false

/-- RESET_N falls: the requests in flight are abandoned without completion, and their beats that have
not been taken write nothing (R197), so the fall waits behind none of them. It stands behind the commands
of time and of the reset line that came before it, so no request is taken behind it until a release. -/
def State.resetFalls (s : State) (lowMicros : Nat) (refclk : Bool) : State :=
  { s with pending := s.pending.filter notBeat ++ [.resetNFall lowMicros refclk] }

end Sys2Proof.Machine
end

