-- ==== Sys2Proof/Machine/Beats.lean ====
section
/-! DEFINITION. The meanings of the Frame Port rows: plain, zero-word, screen, unmapped, landing and
control page beats. Each takes place while the part runs (`whileRunning`). -/

namespace Sys2Proof.Machine

/-- PLAIN_WRITE_BEAT (R193, R2): written to frame memory, or dropped as SLOT_WRITE in the slot area. A
beat whose address lies in the control page is the control page beat it is. -/
def execPlainWriteBeat (r : Requester) (addr : BitVec 29) (w : WriteData) (s : State) :
    Host.Outcome State Fault Refusal :=
  whileRunning s fun s => s.portWrite r addr.toNat w

/-- PLAIN_READ_BEAT (R193): the word of frame memory, also of the slot area (R2) and of control page
words 4 to 511 (R153). -/
def execPlainReadBeat (r : Requester) (addr : BitVec 29) (s : State) : Host.Outcome State Fault Refusal :=
  whileRunning s fun s => s.portRead r addr.toNat

/-- ZERO_WORD_READ (R194): the zero word, and no block's state is touched. -/
def execZeroWordRead (r : Requester) (addr : BitVec 32) (s : State) : Host.Outcome State Fault Refusal :=
  whileRunning s fun s => s.portRead r addr.toNat

/-- SCREEN_WRITE (R193): dropped with guard kind SCREEN_WRITE for every role. -/
def execScreenWrite (r : Requester) (i : Screen) (word : BitVec 21) (_w : WriteData) (s : State) :
    Host.Outcome State Fault Refusal :=
  whileRunning s fun s => (s.guardDrop .screenWrite r.tag (screenAddr i word.toNat)).completeWrite r

/-- UNMAPPED_WRITE (R193): dropped with guard kind UNMAPPED. -/
def execUnmappedWrite (r : Requester) (addr : BitVec 32) (w : WriteData) (s : State) :
    Host.Outcome State Fault Refusal :=
  whileRunning s fun s => s.portWrite r addr.toNat w

/-- LANDING_WRITE (R9 to R18): the Access Guard's and the Slot Manager's checks, then the landing
phase. -/
def execLandingWrite (r : Requester) (c : Camera) (word : BitVec 21) (w : WriteData) (s : State) :
    Host.Outcome State Fault Refusal :=
  whileRunning s fun s => (s.landingBeat r.tag c word.toNat w).completeWrite r

/-- SCREEN_READ (R77 to R92): a composed word, padding or black fill; a frame start latches first. -/
def execScreenRead (r : Requester) (i : Screen) (word : BitVec 21) (s : State) : Host.Outcome State Fault Refusal :=
  whileRunning s fun s => s.screenBeat r i word.toNat

/-- STATUS_WINDOW_READ (R153, R169, R170). -/
def execStatusWindowRead (r : Requester) (word : Fin 4) (s : State) : Host.Outcome State Fault Refusal :=
  whileRunning s fun s => s.statusBeat r word

/-- CONTROL_PAGE_WRITE (R152, R191). -/
def execControlPageWrite (r : Requester) (word : BitVec 9) (w : WriteData) (s : State) :
    Host.Outcome State Fault Refusal :=
  whileRunning s fun s => (s.asControl r word.toNat fun s => s.controlBeat word.toNat w).completeWrite r

/-- CONSUMER_INDEX (R179). -/
def execConsumerIndex (r : Requester) (w : WriteData) (s : State) : Host.Outcome State Fault Refusal :=
  whileRunning s fun s => (s.asControl r 16 fun s => s.consumerBeat w).completeWrite r

/-- STAGING_WRITE (R158). -/
def execStagingWrite (r : Requester) (word : BitVec 8) (w : WriteData) (s : State) :
    Host.Outcome State Fault Refusal :=
  whileRunning s fun s => (s.asControl r (256 + word.toNat) fun s => s.stagingBeat word.toFin w).completeWrite r

end Sys2Proof.Machine
end

