-- ==== Sys2Proof/Machine/Commands.lean ====
section
/-! DEFINITION. The meanings of the Command Word rows (11.3): each is a full write of control page word
8, taken to memory and offered to the engine (R152, R154). -/

namespace Sys2Proof.Machine

/-- A full write of the Command Word by requester `r`: the word `data`, which spells command `c` with
the given tag. -/
def commandWrite (r : Requester) (data : Word) (c : Command) (tag : Byte) (s : State) :
    Host.Outcome State Fault Refusal :=
  whileRunning s fun s => (s.asControl r 8 fun s => s.commandBeat data c tag).completeWrite r

/-- LOAD (R157, R203). -/
def execLoad (r : Requester) (tag table first count : Byte) (spare : BitVec 24) (s : State) :
    Host.Outcome State Fault Refusal :=
  commandWrite r (commandWord 0x01 tag (threeArgs table first count spare)) (.load table first count) tag s

/-- COMMIT (R156, R159, R161 to R168). -/
def execCommit (r : Requester) (tag : Byte) (spare : BitVec 48) (s : State) : Host.Outcome State Fault Refusal :=
  commandWrite r (commandWord 0x02 tag spare) .commit tag s

/-- ABORT_CLEAR (R156, R160). -/
def execAbortClear (r : Requester) (tag : Byte) (spare : BitVec 48) (s : State) : Host.Outcome State Fault Refusal :=
  commandWrite r (commandWord 0x03 tag spare) .abortClear tag s

/-- LEARN (R57, R171). -/
def execLearn (r : Requester) (tag : Byte) (mask : BitVec 16) (spare : BitVec 32) (s : State) :
    Host.Outcome State Fault Refusal :=
  commandWrite r (commandWord 0x10 tag (maskArg mask spare)) (.learn mask) tag s

/-- LEARN_SUSPEND (R61, R171). -/
def execLearnSuspend (r : Requester) (tag : Byte) (mask : BitVec 16) (spare : BitVec 32) (s : State) :
    Host.Outcome State Fault Refusal :=
  commandWrite r (commandWord 0x11 tag (maskArg mask spare)) (.learnSuspend mask) tag s

/-- LEARN_RESUME (R61, R171). -/
def execLearnResume (r : Requester) (tag : Byte) (mask : BitVec 16) (spare : BitVec 32) (s : State) :
    Host.Outcome State Fault Refusal :=
  commandWrite r (commandWord 0x12 tag (maskArg mask spare)) (.learnResume mask) tag s

/-- SPOT_SET (R128). -/
def execSpotSet (r : Requester) (tag screen layout level : Byte) (spare : BitVec 24) (s : State) :
    Host.Outcome State Fault Refusal :=
  commandWrite r (commandWord 0x20 tag (threeArgs screen layout level spare)) (.spotSet screen layout level) tag s

/-- SPOT_CLEAR (R129). -/
def execSpotClear (r : Requester) (tag screen : Byte) (spare : BitVec 40) (s : State) :
    Host.Outcome State Fault Refusal :=
  commandWrite r (commandWord 0x21 tag (oneArg screen spare)) (.spotClear screen) tag s

/-- HOLD_TAKE (R137 to R139). -/
def execHoldTake (r : Requester) (tag camera post : Byte) (spare : BitVec 32) (s : State) :
    Host.Outcome State Fault Refusal :=
  commandWrite r (commandWord 0x30 tag (twoArgs camera post spare)) (.holdTake camera post) tag s

/-- HOLD_RELEASE (R144). -/
def execHoldRelease (r : Requester) (tag id : Byte) (spare : BitVec 40) (s : State) :
    Host.Outcome State Fault Refusal :=
  commandWrite r (commandWord 0x31 tag (oneArg id spare)) (.holdRelease id) tag s

/-- HOLD_LOCK (R146). -/
def execHoldLock (r : Requester) (tag : Byte) (spare : BitVec 48) (s : State) : Host.Outcome State Fault Refusal :=
  commandWrite r (commandWord 0x32 tag spare) .holdLock tag s

/-- SNAPSHOT (R173). -/
def execSnapshot (r : Requester) (tag : Byte) (spare : BitVec 48) (s : State) : Host.Outcome State Fault Refusal :=
  commandWrite r (commandWord 0x40 tag spare) .snapshot tag s

/-- RESTART (R174). -/
def execRestart (r : Requester) (tag : Byte) (spare : BitVec 48) (s : State) : Host.Outcome State Fault Refusal :=
  commandWrite r (commandWord 0x50 tag spare) .restart tag s

/-- UNDEFINED_CODE (R154, R156, R159). A code byte that a command does use spells that command
(R200). -/
def execUndefinedCode (r : Requester) (code tag : Byte) (spare : BitVec 48) (s : State) :
    Host.Outcome State Fault Refusal :=
  commandWrite r (commandWord code tag spare) (decodeCommand (commandWord code tag spare)) tag s

end Sys2Proof.Machine
end

