-- ==== Sys2Proof/Machine/Events.lean ====
section
/-! DEFINITION. The meanings of the rows that time or the reset line brings: each timed event takes
place when its period has run out, and not before (log entry 3). -/

namespace Sys2Proof.Machine

/-- STALE_TIMEOUT (R34). -/
def execStaleTimeout (c : Camera) (s : State) : Host.Outcome State Fault Refusal :=
  whileRunning s fun s => s.staleTimeout c

/-- SAMPLE_INSTANT (R112 to R114): the levels given stand on the lines at this instant. -/
def execSampleInstant (opens alerts : BitVec 12) (reverse : Bool) (s : State) : Host.Outcome State Fault Refusal :=
  whileRunning s fun s => { s with lines := ⟨opens, alerts, reverse⟩ }.sampleInstant

/-- LINGER_EXPIRY (R124). -/
def execLingerExpiry (i : Screen) (s : State) : Host.Outcome State Fault Refusal :=
  whileRunning s fun s => s.lingerExpiry i

/-- GUARD_EPISODE_CLOSE (R196). -/
def execGuardEpisodeClose (k : GuardKind) (s : State) : Host.Outcome State Fault Refusal :=
  whileRunning s fun s => if s.guardDue k then s.guardClose k else s

/-- APPLYING_OVERTIME (R168). -/
def execApplyingOvertime (s : State) : Host.Outcome State Fault Refusal :=
  whileRunning s fun s => s.applyingOvertime

/-- The part after a valid release of RESET_N (R197): every block at its power-on values with the
straps sampled and the time base at 0. Frame memory keeps what it holds (R24) and the lines their
levels. The queue keeps the commands behind the release: they are requests made after it, time's commands
and the reset line's own, for a fall abandons every request in flight (`State.resetFalls`) and none is
taken while RESET_N is low (`State.arrive`). -/
def State.powerOn (s : State) (straps : BitVec 2) : State :=
  { State.reset with straps := straps, lines := s.lines, mem := s.mem, pending := s.pending }

/-- POWER_ON_RESET (R192, R197). -/
def execPowerOnReset (straps : BitVec 2) (s : State) : Host.Outcome State Fault Refusal :=
  .next (s.powerOn straps)

/-- RESET_N_FALL (R197, R198): while the line is low the Frame Port takes no request and ATTN is low;
what it was returning is abandoned. A low pulse shorter than 10 microseconds, or made without
REFCLK, is low for as long as it lasts and then leaves the state of the part undefined. The requests
in flight are abandoned where the fall enters the queue (`State.resetFalls`). -/
def execResetNFall (lowMicros : Nat) (refclk : Bool) (s : State) : Host.Outcome State Fault Refusal :=
  .next { s with
    condition := if Config.resetPulse ≤ lowMicros ∧ refclk = true then .heldInReset else .lowPulse lowMicros
    port := ⟨none, none⟩ }

end Sys2Proof.Machine
end

