-- ==== Sys2Proof/Machine/Dispatch.lean ====
section
/-! DEFINITION. One arm per command of Instr: a direct call of its meaning. -/

namespace Sys2Proof.Machine

def exec (i : Instr) (s : State) : Host.Outcome State Fault Refusal :=
  match i with
  | .powerOnReset straps => Sys2Proof.Machine.execPowerOnReset straps s
  | .plainWriteBeat r addr w => Sys2Proof.Machine.execPlainWriteBeat r addr w s
  | .plainReadBeat r addr => Sys2Proof.Machine.execPlainReadBeat r addr s
  | .zeroWordRead r addr => Sys2Proof.Machine.execZeroWordRead r addr s
  | .screenWrite r n word w => Sys2Proof.Machine.execScreenWrite r n word w s
  | .unmappedWrite r addr w => Sys2Proof.Machine.execUnmappedWrite r addr w s
  | .landingWrite r c word w => Sys2Proof.Machine.execLandingWrite r c word w s
  | .screenRead r n word => Sys2Proof.Machine.execScreenRead r n word s
  | .statusWindowRead r word => Sys2Proof.Machine.execStatusWindowRead r word s
  | .controlPageWrite r word w => Sys2Proof.Machine.execControlPageWrite r word w s
  | .consumerIndex r w => Sys2Proof.Machine.execConsumerIndex r w s
  | .stagingWrite r word w => Sys2Proof.Machine.execStagingWrite r word w s
  | .load r tag table first count spare => Sys2Proof.Machine.execLoad r tag table first count spare s
  | .commit r tag spare => Sys2Proof.Machine.execCommit r tag spare s
  | .abortClear r tag spare => Sys2Proof.Machine.execAbortClear r tag spare s
  | .learn r tag mask spare => Sys2Proof.Machine.execLearn r tag mask spare s
  | .learnSuspend r tag mask spare => Sys2Proof.Machine.execLearnSuspend r tag mask spare s
  | .learnResume r tag mask spare => Sys2Proof.Machine.execLearnResume r tag mask spare s
  | .spotSet r tag screen layout level spare => Sys2Proof.Machine.execSpotSet r tag screen layout level spare s
  | .spotClear r tag screen spare => Sys2Proof.Machine.execSpotClear r tag screen spare s
  | .holdTake r tag camera post spare => Sys2Proof.Machine.execHoldTake r tag camera post spare s
  | .holdRelease r tag id spare => Sys2Proof.Machine.execHoldRelease r tag id spare s
  | .holdLock r tag spare => Sys2Proof.Machine.execHoldLock r tag spare s
  | .snapshot r tag spare => Sys2Proof.Machine.execSnapshot r tag spare s
  | .restart r tag spare => Sys2Proof.Machine.execRestart r tag spare s
  | .undefinedCode r code tag spare => Sys2Proof.Machine.execUndefinedCode r code tag spare s
  | .staleTimeout c => Sys2Proof.Machine.execStaleTimeout c s
  | .sampleInstant opens alerts reverse => Sys2Proof.Machine.execSampleInstant opens alerts reverse s
  | .lingerExpiry n => Sys2Proof.Machine.execLingerExpiry n s
  | .guardEpisodeClose k => Sys2Proof.Machine.execGuardEpisodeClose k s
  | .applyingOvertime => Sys2Proof.Machine.execApplyingOvertime s
  | .resetNFall lowMicros refclk => Sys2Proof.Machine.execResetNFall lowMicros refclk s

end Sys2Proof.Machine
end

