-- ==== Sys2Proof/Machine/Tick.lean ====
section
/-! DEFINITION. What one microsecond does while no command waits (log entry 2): the time base counts
(R26), and every timed event that is now due is put in the queue. -/

namespace Sys2Proof.Machine

/-- The guard kinds, in the order of their codes. -/
def guardKinds : List GuardKind :=
  [.slotWrite, .screenWrite, .landingRole, .landingRange, .landingDisabled, .controlRole, .unmapped]

/-- The timed events that are due. The manual lets events that fall together be taken in either order;
this order is the model's (log entry 2). -/
def State.dueEvents (s : State) : List Instr :=
  ((List.finRange 16).filter fun c => s.staleDue c).map Instr.staleTimeout
    ++ (if s.applyingDue then [.applyingOvertime] else [])
    ++ ((List.finRange 4).filter fun i : Screen => s.spots[i].expired s.time).map Instr.lingerExpiry
    ++ (guardKinds.filter fun k => s.guardDue k).map Instr.guardEpisodeClose
    ++ (if s.sampleDue then [.sampleInstant s.lines.opens s.lines.alerts s.lines.reverse] else [])

/-- One microsecond passes (R26); the time base stands while RESET_N is low. A low pulse that R198 does
not count comes to its end. -/
def State.tick (s : State) : State :=
  match s.condition with
  | .running =>
    let s' := { s with time := s.time + 1 }
    { s' with pending := s'.pending ++ s'.dueEvents }
  | .heldInReset => s
  | .lowPulse left => { s with condition := if left ≤ 1 then .undefinedState else .lowPulse (left - 1) }
  | .undefinedState => s

end Sys2Proof.Machine
end

