-- ==== Sys2Proof/WellFormed.lean ====
section
/-! DEFINITION. Which operands name the row they stand under. Most operands are within their region
by their type (a screen window word, a staging word, a Command Word field). Three rows carry an
operand that could name another row's region: these are the checks. A command that fails its check
is still executed, as the beat or Command Word it spells (log entry 20). -/

namespace Sys2Proof

/-- A landing window or unmapped address (R194: where a read beat returns the zero word). -/
def zeroWordAddress (a : BitVec 32) : Bool :=
  decide (Config.landingBase ≤ a.toNat ∧ a.toNat < Config.screenBase) || decide (Config.unmappedBase ≤ a.toNat)

/-- An unmapped address, 0x3400_0000 or above (R193). -/
def unmappedAddress (a : BitVec 32) : Bool := decide (Config.unmappedBase ≤ a.toNat)

/-- The command's operands lie in the region of its row. -/
def Instr.wellFormed : Instr → Bool
  | .powerOnReset _ => true
  | .plainWriteBeat .. => true
  | .plainReadBeat .. => true
  | .zeroWordRead _ addr => zeroWordAddress addr
  | .screenWrite .. => true
  | .unmappedWrite _ addr _ => unmappedAddress addr
  | .landingWrite .. => true
  | .screenRead .. => true
  | .statusWindowRead .. => true
  | .controlPageWrite .. => true
  | .consumerIndex .. => true
  | .stagingWrite .. => true
  | .load .. => true
  | .commit .. => true
  | .abortClear .. => true
  | .learn .. => true
  | .learnSuspend .. => true
  | .learnResume .. => true
  | .spotSet .. => true
  | .spotClear .. => true
  | .holdTake .. => true
  | .holdRelease .. => true
  | .holdLock .. => true
  | .snapshot .. => true
  | .restart .. => true
  | .undefinedCode _ code _ _ => !codeDefined code
  | .staleTimeout _ => true
  | .sampleInstant .. => true
  | .lingerExpiry _ => true
  | .guardEpisodeClose _ => true
  | .applyingOvertime => true
  | .resetNFall .. => true

end Sys2Proof
end

