-- ==== Sys2Proof/Safety.lean ====
section
/-! DEFINITION. What the statements about the machine are said with: the pieces of State and which of
them a command may change, where a command's own writes to frame memory fall, what a taken command
leaves behind, the invariants that the chapters give each block, what validation asks, and what applying
a record and an operation on a spotlight list leave. -/

namespace Sys2Proof.Machine

/-- The part runs: RESET_N is high after a valid release (R197, R198). -/
def State.isRunning (s : State) : Prop := s.condition = .running

/-! ### Pieces of State -/

/-- One piece for each field of State. -/
inductive Piece where
  | condition | straps | lines | port | time | mem | setup | cameras | doors | screens | layouts | panes
  | pool | rings | cadence | lens | contexts | doorUnit | spots | holds | engine | ring | episodes | pending
  deriving DecidableEq, Repr

/-- Two states agree on a piece. -/
def Piece.same (s t : State) : Piece → Prop
  | .condition => t.condition = s.condition
  | .straps => t.straps = s.straps
  | .lines => t.lines = s.lines
  | .port => t.port = s.port
  | .time => t.time = s.time
  | .mem => t.mem = s.mem
  | .setup => t.setup = s.setup
  | .cameras => t.cameras = s.cameras
  | .doors => t.doors = s.doors
  | .screens => t.screens = s.screens
  | .layouts => t.layouts = s.layouts
  | .panes => t.panes = s.panes
  | .pool => t.pool = s.pool
  | .rings => t.rings = s.rings
  | .cadence => t.cadence = s.cadence
  | .lens => t.lens = s.lens
  | .contexts => t.contexts = s.contexts
  | .doorUnit => t.doorUnit = s.doorUnit
  | .spots => t.spots = s.spots
  | .holds => t.holds = s.holds
  | .engine => t.engine = s.engine
  | .ring => t.ring = s.ring
  | .episodes => t.episodes = s.episodes
  | .pending => t.pending = s.pending

/-- From `s` to `t` at most the pieces `ps` change. -/
def Touches (ps : List Piece) (s t : State) : Prop := ∀ p, p ∉ ps → p.same s t

/-- The pieces that every Command Word row may change: frame memory, the engine, the report ring, the
write completion, and the CONTROL_ROLE episode when the tag does not hold CONTROL. -/
def commandPieces : List Piece := [.mem, .engine, .ring, .port, .episodes]

/-- Byte address `a` lies in the control page (R192). -/
def State.inPage (s : State) (a : Nat) : Prop := s.pageBase ≤ a ∧ a < s.pageBase + Config.pageBytes

/-- The control page word has no row of its own: it is not the Command Word taken whole, the consumer
index word or a staging word. -/
def plainPageWord (word : BitVec 9) (w : WriteData) : Prop :=
  word.toNat < 256 ∧ word ≠ 16 ∧ ¬(word = 8 ∧ w.enables = 0xFF)

end Sys2Proof.Machine

namespace Sys2Proof

open Sys2Proof.Machine

/-- The pieces of State that a row may change (0.4: every block owns its own state). -/
def Instr.pieces : Instr → List Piece
  | .powerOnReset _ =>
    [.condition, .straps, .port, .time, .setup, .cameras, .doors, .screens, .layouts, .panes, .pool, .rings,
      .cadence, .lens, .contexts, .doorUnit, .spots, .holds, .engine, .ring, .episodes]
  | .plainWriteBeat .. => [.mem, .episodes, .port]
  | .plainReadBeat .. => [.port]
  | .zeroWordRead .. => [.port]
  | .screenWrite .. => [.episodes, .port]
  | .unmappedWrite .. => [.episodes, .port]
  | .landingWrite .. => [.mem, .ring, .pool, .rings, .cadence, .lens, .holds, .episodes, .port]
  | .screenRead .. => [.mem, .ring, .pool, .rings, .contexts, .engine, .port]
  | .statusWindowRead .. => [.engine, .port]
  | .controlPageWrite .. => [.mem, .episodes, .port]
  | .consumerIndex .. => [.mem, .ring, .episodes, .port]
  | .stagingWrite .. => [.mem, .engine, .ring, .episodes, .port]
  | .load .. => commandPieces
  | .commit .. =>
    [.setup, .cameras, .doors, .screens, .layouts, .panes, .pool, .rings, .cadence, .lens, .contexts,
      .doorUnit, .spots, .holds] ++ commandPieces
  | .abortClear .. => commandPieces
  | .learn .. => .lens :: commandPieces
  | .learnSuspend .. => .lens :: commandPieces
  | .learnResume .. => .lens :: commandPieces
  | .spotSet .. => .spots :: commandPieces
  | .spotClear .. => .spots :: commandPieces
  | .holdTake .. => [.pool, .rings, .holds] ++ commandPieces
  | .holdRelease .. => [.pool, .holds] ++ commandPieces
  | .holdLock .. => .holds :: commandPieces
  | .snapshot .. => commandPieces
  | .restart .. => [.pool, .rings, .cadence, .lens, .contexts, .doorUnit, .spots, .holds] ++ commandPieces
  | .undefinedCode .. => commandPieces
  | .staleTimeout _ => [.cadence, .mem, .ring]
  | .sampleInstant .. => [.lines, .doorUnit, .spots, .holds, .pool, .rings, .mem, .ring]
  | .lingerExpiry _ => [.spots, .mem, .ring]
  | .guardEpisodeClose _ => [.episodes, .mem, .ring]
  | .applyingOvertime => [.engine, .mem, .ring]
  | .resetNFall .. => [.condition, .port]

/-- The operands spell the row they stand under, and not another row's region or code (log entry 20). -/
def Instr.ownRow (i : Instr) (s : State) : Prop :=
  match i with
  | .powerOnReset _ => True
  | .plainWriteBeat _ addr _ => ¬s.inPage (beatAddr addr.toNat)
  | .plainReadBeat _ addr => ∀ a, a = beatAddr addr.toNat → s.inPage a → 32 ≤ a - s.pageBase
  | .zeroWordRead _ addr => zeroWordAddress addr = true
  | .screenWrite .. => True
  | .unmappedWrite _ addr _ => unmappedAddress addr = true
  | .landingWrite .. => True
  | .screenRead .. => True
  | .statusWindowRead .. => True
  | .controlPageWrite _ word w => plainPageWord word w
  | .consumerIndex .. => True
  | .stagingWrite .. => True
  | .load .. => True
  | .commit .. => True
  | .abortClear .. => True
  | .learn .. => True
  | .learnSuspend .. => True
  | .learnResume .. => True
  | .spotSet .. => True
  | .spotClear .. => True
  | .holdTake .. => True
  | .holdRelease .. => True
  | .holdLock .. => True
  | .snapshot .. => True
  | .restart .. => True
  | .undefinedCode _ code _ _ => codeDefined code = false
  | .staleTimeout _ => True
  | .sampleInstant .. => True
  | .lingerExpiry _ => True
  | .guardEpisodeClose _ => True
  | .applyingOvertime => True
  | .resetNFall .. => True

/-- The command is the release or the fall of RESET_N. -/
def Instr.isReset : Instr → Bool
  | .powerOnReset _ => true
  | .resetNFall .. => true
  | .plainWriteBeat .. => false
  | .plainReadBeat .. => false
  | .zeroWordRead .. => false
  | .screenWrite .. => false
  | .unmappedWrite .. => false
  | .landingWrite .. => false
  | .screenRead .. => false
  | .statusWindowRead .. => false
  | .controlPageWrite .. => false
  | .consumerIndex .. => false
  | .stagingWrite .. => false
  | .load .. => false
  | .commit .. => false
  | .abortClear .. => false
  | .learn .. => false
  | .learnSuspend .. => false
  | .learnResume .. => false
  | .spotSet .. => false
  | .spotClear .. => false
  | .holdTake .. => false
  | .holdRelease .. => false
  | .holdLock .. => false
  | .snapshot .. => false
  | .restart .. => false
  | .undefinedCode .. => false
  | .staleTimeout _ => false
  | .sampleInstant .. => false
  | .lingerExpiry _ => false
  | .guardEpisodeClose _ => false
  | .applyingOvertime => false

/-- The requester tag of a beat's row; time and the reset line have none. -/
def Instr.tag? : Instr → Option Tag
  | .powerOnReset _ => none
  | .plainWriteBeat r .. => some r.tag
  | .plainReadBeat r .. => some r.tag
  | .zeroWordRead r .. => some r.tag
  | .screenWrite r .. => some r.tag
  | .unmappedWrite r .. => some r.tag
  | .landingWrite r .. => some r.tag
  | .screenRead r .. => some r.tag
  | .statusWindowRead r .. => some r.tag
  | .controlPageWrite r .. => some r.tag
  | .consumerIndex r .. => some r.tag
  | .stagingWrite r .. => some r.tag
  | .load r .. => some r.tag
  | .commit r .. => some r.tag
  | .abortClear r .. => some r.tag
  | .learn r .. => some r.tag
  | .learnSuspend r .. => some r.tag
  | .learnResume r .. => some r.tag
  | .spotSet r .. => some r.tag
  | .spotClear r .. => some r.tag
  | .holdTake r .. => some r.tag
  | .holdRelease r .. => some r.tag
  | .holdLock r .. => some r.tag
  | .snapshot r .. => some r.tag
  | .restart r .. => some r.tag
  | .undefinedCode r .. => some r.tag
  | .staleTimeout _ => none
  | .sampleInstant .. => none
  | .lingerExpiry _ => none
  | .guardEpisodeClose _ => none
  | .applyingOvertime => none
  | .resetNFall .. => none

/-- The control page word that a control page write row addresses, with its requester (R152). -/
def Instr.pageWord? : Instr → Option (Requester × Nat)
  | .powerOnReset _ => none
  | .plainWriteBeat .. => none
  | .plainReadBeat .. => none
  | .zeroWordRead .. => none
  | .screenWrite .. => none
  | .unmappedWrite .. => none
  | .landingWrite .. => none
  | .screenRead .. => none
  | .statusWindowRead .. => none
  | .controlPageWrite r word _ => some (r, word.toNat)
  | .consumerIndex r _ => some (r, 16)
  | .stagingWrite r word _ => some (r, 256 + word.toNat)
  | .load r .. => some (r, 8)
  | .commit r .. => some (r, 8)
  | .abortClear r .. => some (r, 8)
  | .learn r .. => some (r, 8)
  | .learnSuspend r .. => some (r, 8)
  | .learnResume r .. => some (r, 8)
  | .spotSet r .. => some (r, 8)
  | .spotClear r .. => some (r, 8)
  | .holdTake r .. => some (r, 8)
  | .holdRelease r .. => some (r, 8)
  | .holdLock r .. => some (r, 8)
  | .snapshot r .. => some (r, 8)
  | .restart r .. => some (r, 8)
  | .undefinedCode r .. => some (r, 8)
  | .staleTimeout _ => none
  | .sampleInstant .. => none
  | .lingerExpiry _ => none
  | .guardEpisodeClose _ => none
  | .applyingOvertime => none
  | .resetNFall .. => none

end Sys2Proof

namespace Sys2Proof.Machine

/-! ### Where writes to frame memory fall -/

/-- Address `a` is none of the `n` bytes from `base`. -/
def outside (base n a : Nat) : Prop := ¬(base ≤ a ∧ a < base + n)

/-- Address `a` is no byte of the place that the next report is written to, if one is written. -/
def ReportRing.outsideNext (g : ReportRing) (a : Nat) : Prop :=
  g.writable = true → ∀ j, j < Config.reportBytes → a ≠ physical (g.placeAddr g.producer + j)

/-- Address `a` is no byte of the report ring. -/
def ReportRing.outsideRing (g : ReportRing) (a : Nat) : Prop := outside g.base (g.capacity * Config.reportBytes) a

/-- Frame memory holds the beat `w` stored at byte address `a`: the enabled bytes are the beat's, and every
other byte reads as before. -/
def Stored (s t : State) (a : Nat) (w : WriteData) : Prop :=
  (∀ j, j < 8 → t.mem.read (physical (a + j)) =
      if w.enables.getLsbD j then byteOf w.data j else s.mem.read (physical (a + j)))
    ∧ ∀ x, (∀ j, j < 8 → x ≠ physical (a + j)) → t.mem.read x = s.mem.read x

/-- A write beat of requester `r` has been taken: the last beat completes the request (R190). -/
def Completed (s t : State) (r : Requester) : Prop :=
  t.port.read = s.port.read ∧ t.port.completed = if r.last then some r.tag else s.port.completed

/-- A read beat of requester `r` has returned the word `w` (R190). -/
def Returned (s t : State) (r : Requester) (w : Word) : Prop := t.port = ⟨some ⟨r.tag, w, r.last⟩, s.port.completed⟩

/-- A write beat has been dropped with guard kind `k` and recorded (R194, R195): no byte of frame memory
and no other kind's episode has changed, and the write completes like any other. -/
def Dropped (s t : State) (r : Requester) (k : GuardKind) (a : BitVec 32) : Prop :=
  t.episode k = some (episodeAfterDrop (s.episode k) r.tag a s.time)
    ∧ (∀ k', k' ≠ k → t.episode k' = s.episode k')
    ∧ Completed s t r ∧ Touches [.episodes, .port] s t

/-- Frame memory after the whole Command Word has been written to its word of the control page. -/
def State.commandMem (s : State) (data : Word) : Memory := s.mem.writeWord (s.pageAddr 8) ⟨0xFF, data⟩

/-- From the memory `m` on, exactly the reports `rs` were taken, in their order. -/
def Reported (s : State) (m : Memory) (rs : List Report) (t : State) : Prop :=
  t.mem = ({ s with mem := m }.emitAll rs).mem ∧ t.ring = (s.emitAll rs).ring

/-! ### What a taken command leaves -/

/-- The engine after a command with tag `tag` has been taken and has ended (R154, R155). -/
def Engine.ended (e : Engine) (tag : Byte) (result : Result) (reason : Reason) (table : Byte) (index : BitVec 16) :
    Engine :=
  { e with lastTag := tag, result, reason, table, index }

/-- A Command Word row has been answered: the word stands in frame memory, the reports `rs` of the
blocks were taken and then its COMMAND_DONE report (R155), the write is completed, and the engine is
`e`. No byte outside the Command Word and the report ring has changed. -/
def Answered (s t : State) (r : Requester) (data : Word) (rs : List Report) (e : Engine) : Prop :=
  t.engine = e
    ∧ Reported s (s.commandMem data)
        (rs ++ [.commandDone (commandByte data 0) e.lastTag e.result e.reason e.table e.index]) t
    ∧ Completed s t r
    ∧ ∀ a, outside (s.pageAddr 8) 8 a → s.ring.outsideRing a → t.mem.read a = s.mem.read a

/-! ### Invariants -/

/-- The ranges of R176: unconfigured all figures are 0; configured, both indices are below C, the lost
count is at most 65,535, and the ring lies in frame memory (R162). -/
def ReportRing.inRange (g : ReportRing) : Prop :=
  if g.configured then
    64 ≤ g.capacity ∧ g.capacity ≤ 4096 ∧ g.producer < g.capacity ∧ g.consumer < g.capacity
      ∧ g.lost ≤ Config.sixteenMax ∧ g.base + g.capacity * Config.reportBytes ≤ Config.memoryBytes
  else g = .powerOn

/-- A load in progress lies within its table, and no more words are staged than it asks for (R157,
R158); the pending set is not empty exactly while APPLYING (R167, R168). -/
def Engine.inRange (e : Engine) : Prop :=
  (e.state = .staging →
      1 ≤ e.load.count ∧ e.load.count ≤ 32 ∧ e.load.first + e.load.count ≤ e.load.table.records
        ∧ e.staged ≤ e.load.count * 8)
    ∧ (e.state = .applying ↔ e.pending ≠ 0)

/-- A spotlight list as R121 keeps it: at most 8 entries, at most one per origin, levels descending;
and linger counting runs exactly while the governing entry is inactive (R124). -/
def SpotList.inOrder (l : SpotList) : Prop :=
  l.entries.length ≤ Config.spotMax
    ∧ (l.entries.map SpotEntry.origin).Nodup
    ∧ l.entries.Pairwise (fun a b => b.level ≤ a.level)
    ∧ (l.counting.isSome = true ↔ ∃ e, l.governing = some e ∧ e.active = false)

/-- A cadence record's ranges (R27): the counts within their ranges and at 0 outside their states, no
previous arrival in STALE, FROZEN exactly at run count 8, run count 0 without a previous signature,
and OFF exactly while disabled. -/
def CadenceRec.inRange (r : CadenceRec) (enabled : Bool) : Prop :=
  r.good ≤ 3 ∧ r.slip ≤ 2 ∧ r.run ≤ 8
    ∧ (r.state ≠ .acquiring → r.good = 0) ∧ (r.state ≠ .locked → r.slip = 0)
    ∧ (r.state = .stale → r.previous = none)
    ∧ (r.frozen = true ↔ r.run = 8)
    ∧ (r.prevSig = none → r.run = 0)
    ∧ (r.state = .off ↔ enabled = false)

/-- A lens record's ranges (R43): scores at most 1,023, at most 8 classes, UNLEARNED exactly without a
baseline, U the number of usable zones and at least 12 with one, an unusable zone at score 256 with
its flag clear, and the learning figures 0 while IDLE and below their limits while not. -/
def LensRec.inRange (l : LensRec) : Prop :=
  (∀ z : Zone, l.scores.get z ≤ 1023)
    ∧ l.history.length ≤ 8
    ∧ (l.state = .unlearned ↔ l.baseline = none)
    ∧ (∀ b, l.baseline = some b →
        12 ≤ l.usableCount ∧ l.usableCount = b.usableZones
          ∧ ∀ z : Zone, b.usable.get z = false → l.scores.get z = 256 ∧ l.flags.get z = false)
    ∧ (l.learn = .idle → l.learned = 0 ∧ l.candidates = 0 ∧ ∀ z : Zone, l.sums.get z = 0)
    ∧ l.learned < Config.learnFrames ∧ l.candidates < Config.learnLimit

/-- The figures behind a lens record, within R43's ranges: the eligible counter at most 15, the noise floor
in use at most 31, the last luma figures at most 255, every B at most 65,280, and every learn sum at most
65,280 for each learned frame, which is 4,177,920 at 64. The frame accumulators hold no more than their
words can give: a word adds at most 765 to a gradient and 1,020 to a luma sum (R45). -/
def State.lensFigures (s : State) (c : Camera) : Prop :=
  let l := s.lens[c]
  s.cameras[c].judge ≤ 16 ∧ s.cameras[c].noise ≤ 31
    ∧ l.eligible ≤ 15 ∧ l.noiseInUse ≤ 31 ∧ l.lastMean ≤ 255 ∧ l.lastDark ≤ 255
    ∧ (∀ b, l.baseline = some b → ∀ z : Zone, b.b.get z ≤ 65280)
    ∧ l.learned ≤ 64 ∧ (∀ z : Zone, l.sums.get z ≤ 65280 * l.learned)
    ∧ ∀ a, l.acc = some a →
        (∀ z : Zone, (a.zones.get z).gradient ≤ 765 * (a.zones.get z).words
          ∧ (a.zones.get z).luma ≤ 1020 * (a.zones.get z).words)
        ∧ (s.cameras[c].enable = true → s.rings[c].phase = .inFrame →
            s.rings[c].writes ≤ s.cameras[c].w * s.cameras[c].h / 4 → a.total ≤ 1020 * s.rings[c].writes)

/-- A hold record as R134 keeps it: a PRE entry and then at most the requested post entries, fewer
while COLLECTING, and a cause of completion exactly when COMPLETE. -/
def Hold.inRange (x : Hold) : Prop :=
  x.post ≤ 3
    ∧ (∃ first rest, x.slots = first :: rest ∧ first.role = .pre ∧ rest.length ≤ x.post
        ∧ (∀ e ∈ rest, e.role = .post)
        ∧ (x.state = .collecting → rest.length < x.post))
    ∧ (x.cause.isSome = true ↔ x.state = .complete)

/-- The hold table and the order of creation (R134, R135): every present hold in range, and the order
lists each present hold's id once and no other. -/
def HoldUnit.consistent (u : HoldUnit) : Prop :=
  (∀ h x, u.table.get h = some x → x.inRange)
    ∧ u.order.Nodup
    ∧ ∀ h, h ∈ u.order ↔ (u.table.get h).isSome = true

/-- The two laws of the pool (R5), slot by slot and ring by ring: a slot's record says RING(c) with a
member state exactly when ring c lists it there, no ring lists a slot twice, an enabled camera's
ring has k members and a disabled camera none; FREE, EMPTY and FILLING slots have no pin, and
RETIRING slots have one (R3). -/
def State.poolLaws (s : State) : Prop :=
  (∀ (c : Camera) i m, (i, m) ∈ s.rings[c].members ↔ i < s.pool.slots.length ∧ (s.slot i).disp = .ring c m)
    ∧ (∀ c : Camera, (s.rings[c].members.map Prod.fst).Nodup)
    ∧ (∀ c : Camera, s.rings[c].members.length = if s.cameras[c].enable then s.cameras[c].k else 0)
    ∧ (∀ c : Camera, s.cameras[c].enable = true → 3 ≤ s.cameras[c].k)
    ∧ ∀ i, i < s.pool.slots.length →
        match (s.slot i).disp with
        | .free => (s.slot i).pins = 0
        | .ring _ .empty => (s.slot i).pins = 0
        | .ring _ .filling => (s.slot i).pins = 0
        | .ring _ .ready => True
        | .held _ => True
        | .retiring => (s.slot i).pins ≠ 0

/-- How many screens latch slot `i`: those whose scan context has a pane entry that latched it (R83). -/
def State.latchCount (s : State) (i : Nat) : Nat :=
  (List.finRange 4).countP fun k : Screen =>
    match s.contexts[k] with
    | none => false
    | some x => x.panes.any fun e => decide (e.latched.map Latched.slot = some i)

/-- What ties the slot records to the other blocks: a slot is HELD(h) exactly while one entry of hold h's
slot list names it (R5, R134), a frame number and capture time are present exactly for READY and HELD slots
(R3), a camera in the FRAME phase has a FILLING member (R10), and a slot's pin count is the number of
screens that latch it (R19). -/
def State.slotLaws (s : State) : Prop :=
  (∀ (h : HoldId) x, s.holds.table.get h = some x →
      (x.slots.map HoldSlot.slot).Nodup
        ∧ ∀ i, i ∈ x.slots.map HoldSlot.slot ↔ i < s.pool.slots.length ∧ (s.slot i).disp = .held h)
    ∧ (∀ (h : HoldId) i, i < s.pool.slots.length → s.holds.table.get h = none → (s.slot i).disp ≠ .held h)
    ∧ (∀ i, i < s.pool.slots.length →
        ((s.slot i).frame.isSome = true ↔
          (∃ c : Camera, (s.slot i).disp = .ring c .ready) ∨ ∃ h : HoldId, (s.slot i).disp = .held h))
    ∧ (∀ c : Camera, s.rings[c].phase = .inFrame → s.rings[c].filling.isSome = true)
    ∧ ∀ i, (s.slot i).pins = s.latchCount i

/-- The regions that validation keeps apart (R162, R163): the slot table is that of the SETUP record in
force, the slot area lies in frame memory, the report ring and the control page lie off it, and every
enabled camera's frame fits its slot. -/
def State.regionsApart (s : State) : Prop :=
  s.pool.base = s.setup.slotBase ∧ s.pool.units = s.setup.slotUnits ∧ s.pool.slots.length = s.setup.slotCount
    ∧ s.pool.base % Config.slotUnit = 0
    ∧ (∀ a, s.pool.inArea a = true → a < Config.memoryBytes ∧ s.ring.outsideRing a ∧ ¬s.inPage a)
    ∧ ∀ c : Camera, s.cameras[c].enable = true → s.cameras[c].w * s.cameras[c].h * 2 ≤ s.pool.slotBytes

/-! ### What validation asks of a record -/

/-- The ranges of a request description (R115, R162). -/
def requestRanges (q : SpotRequest) : Prop :=
  1 ≤ q.level ∧ q.level ≤ 7 ∧ q.lingerMs ≤ 10000 ∧ q.layout ≤ 31

/-- BAD_RANGE of a SETUP record: the first row of R162. -/
def setupRanges (r : SetupRec) : Prop :=
  1 ≤ r.slotUnits ∧ r.slotUnits ≤ 128 ∧ r.slotCount ≤ 128 ∧ r.holdReserve ≤ 64 ∧ r.slotBase % 65536 = 0
    ∧ 500 ≤ r.debounce ∧ r.debounce ≤ 8000 ∧ r.darkGate ≤ 254 ∧ 1 ≤ r.glareGate ∧ r.glareGate ≤ 255
    ∧ r.onLevel ≤ 1022 ∧ 1 ≤ r.offLevel ∧ r.offLevel ≤ 1023 ∧ r.partFrac ≤ 15 ∧ 1 ≤ r.obscFrac ∧ r.obscFrac ≤ 16
    ∧ requestRanges r.reverse

/-- BAD_ORDER of a SETUP record (R162). -/
def setupOrders (r : SetupRec) : Prop :=
  r.darkGate < r.glareGate ∧ r.onLevel < r.offLevel ∧ r.partFrac < r.obscFrac

/-- Two runs of addresses lie apart. -/
def apart (a alen b blen : Nat) : Prop := a + alen ≤ b ∨ b + blen ≤ a

/-- BAD_RING of a SETUP record, with the control page at `page` (R162). -/
def setupRing (r : SetupRec) (page : Nat) : Prop :=
  r.ringBase % 4096 = 0 ∧ 64 ≤ r.ringCapacity ∧ r.ringCapacity ≤ 4096 ∧ r.ringBase + r.ringCapacity * 32 ≤ 0x20000000
    ∧ apart r.ringBase (r.ringCapacity * 32) page 4096

/-- BAD_AREA of a SETUP record (R162): a slot count of 0 places no slot area. -/
def setupArea (r : SetupRec) (page : Nat) : Prop :=
  r.slotCount = 0 ∨ r.slotBase + r.slotCount * (r.slotUnits * 65536) ≤ 0x20000000
    ∧ apart r.slotBase (r.slotCount * (r.slotUnits * 65536)) page 4096
    ∧ apart r.slotBase (r.slotCount * (r.slotUnits * 65536)) r.ringBase (r.ringCapacity * 32)

/-- A SETUP record that changes the slot geometry in force. -/
def newGeometry (old r : SetupRec) : Prop :=
  r.slotBase ≠ old.slotBase ∨ r.slotUnits ≠ old.slotUnits ∨ r.slotCount ≠ old.slotCount

/-- BUSY_SLOTS of a SETUP record (R162). -/
def setupIdle (s : State) (r : SetupRec) : Prop :=
  newGeometry s.setup r → (∀ c : Camera, s.cameras[c].enable = false) ∧ (∀ h : HoldId, s.holds.table.get h = none)
    ∧ ∀ i, i < s.pool.slots.length → (s.slot i).disp ≠ .retiring

/-- BAD_RANGE of a CAMERA record of camera `c` (R163 step 1). -/
def cameraRanges (slotBytes : Nat) (c : Camera) (r : CameraRec) : Prop :=
  r.w % 16 = 0 ∧ 320 ≤ r.w ∧ r.w ≤ 1920 ∧ 240 ≤ r.h ∧ r.h ≤ 1200 ∧ r.w * r.h * 2 ≤ slotBytes
    ∧ 3 ≤ r.k ∧ r.k ≤ 6 ∧ 10000 ≤ r.period ∧ r.period ≤ 200000
    ∧ (r.partner < 16 ∧ r.partner ≠ c.val ∨ r.partner = 255) ∧ 1 ≤ r.judge ∧ r.judge ≤ 16 ∧ r.noise ≤ 31

/-- BUSY_CAMERA (R163 step 2). -/
def cameraKept (old r : CameraRec) : Prop :=
  old.enable = true → r.enable = true → r.w = old.w ∧ r.h = old.h ∧ r.k = old.k ∧ r.excl = old.excl

/-- BAD_RANGE of a SCREEN record (R164). -/
def screenRanges (r : ScreenRec) : Prop :=
  64 ≤ r.width ∧ r.width ≤ 2048 ∧ r.width % 4 = 0 ∧ 64 ≤ r.height ∧ r.height ≤ 2048 ∧ r.stride % 8 = 0
    ∧ r.width * 2 ≤ r.stride ∧ r.stride * r.height ≤ 16777216 ∧ r.base ≤ 31

/-- BAD_RANGE of a DOOR record (R164). -/
def doorRanges (r : DoorRec) : Prop := r.camera ≤ 15 ∧ requestRanges r.openReq ∧ requestRanges r.alertReq

/-- BAD_PANE: the ranges of R74. -/
def paneRanges (p : PaneRec) : Prop :=
  p.x ≤ 2044 ∧ p.x % 4 = 0 ∧ p.y ≤ 2047 ∧ 4 ≤ p.w ∧ p.w ≤ 2048 ∧ p.w % 4 = 0 ∧ p.x + p.w ≤ 2048
    ∧ 4 ≤ p.h ∧ p.h ≤ 2048 ∧ p.y + p.h ≤ 2048 ∧ p.camera ≤ 15 ∧ (p.d = 1 ∨ p.d = 2 ∨ p.d = 4)
    ∧ p.cropX ≤ 1916 ∧ p.cropX % 4 = 0 ∧ p.cropY ≤ 1199

/-- The index that a chain reaches after `n` panes (R75); it stands where it names no pane. -/
def chainIndex (panes : Vector PaneRec 224) (head : Nat) : Nat → Nat
  | 0 => head
  | n + 1 =>
    if h : chainIndex panes head n < 224 then (panes.get ⟨chainIndex panes head n, h⟩).next else chainIndex panes head n

/-- The walk passes the checks of R165 at the `n`th index it reaches. -/
def stepPasses (panes : Vector PaneRec 224) (head n : Nat) : Prop :=
  n < 8 ∧ (∀ m, m < n → chainIndex panes head m ≠ chainIndex panes head n)
    ∧ ∃ h : chainIndex panes head n < 224, paneRanges (panes.get ⟨chainIndex panes head n, h⟩)

/-- The whole chain passes the walk of R165: it ends at 255. -/
def chainPasses (panes : Vector PaneRec 224) (head : Nat) : Prop :=
  ∃ n, chainIndex panes head n = 255 ∧ ∀ m, m < n → stepPasses panes head m

/-- Record `i` of table `T` is staged (R157). -/
def Engine.stages (e : Engine) (T : TableId) (i : Nat) : Prop :=
  e.load.table = T ∧ e.load.first ≤ i ∧ i < e.load.first + e.load.count

/-- The bytes of the staged record `i`. -/
def Engine.stagedBytes (e : Engine) (i : Nat) : RecordBytes := recordBytes e.buffer (i - e.load.first)

/-! ### What applying a record leaves -/

/-- The verdict state of a lens record as a completed run, an enable, a restart or a new geometry leaves
it: scores 256, flags clear, history empty. -/
def LensRec.verdictFresh (l : LensRec) : Prop :=
  (∀ z : Zone, l.scores.get z = 256 ∧ l.flags.get z = false) ∧ l.history = []

/-- The learning figures of a lens record without a run (R43). -/
def LensRec.noRun (l : LensRec) : Prop :=
  l.learn = .idle ∧ l.learned = 0 ∧ l.candidates = 0 ∧ ∀ z : Zone, l.sums.get z = 0

/-- The state that a spotlight list of screen `i` takes from a raise notice (R120). -/
def raiseNotice (i : Screen) (now : Time) (o : Origin) (q : SpotRequest) (l : SpotList) : SpotList :=
  if q.mask.getLsbD i.val then (raiseIn i now o q.level q.layout l).1 else l

/-- The state that it takes from a change of the request of an active source (R120). -/
def changeNotice (i : Screen) (now : Time) (o : Origin) (old new : SpotRequest) (l : SpotList) : SpotList :=
  match old.mask.getLsbD i.val, new.mask.getLsbD i.val with
  | false, true => (raiseIn i now o new.level new.layout l).1
  | true, false => (endIn i now o new.lingerMs l).1
  | true, true =>
    if (old.level ≠ new.level ∨ old.layout ≠ new.layout) ∧ (l.entryOf o).any (·.active) = true then
      (raiseIn i now o new.level new.layout l).1
    else l
  | false, false => l

/-- The state that it takes from one source of a DOOR record (R118): `active` by its own line. -/
def doorNotice (i : Screen) (now : Time) (o : Origin) (was is active : Bool) (old new : SpotRequest) (l : SpotList) :
    SpotList :=
  if active = false then l
  else match was, is with
    | false, true => raiseNotice i now o new l
    | true, false => (endIn i now o new.lingerMs l).1
    | true, true => changeNotice i now o old new l
    | false, false => l

/-- The slots that a screen's scan context latched, each once (R72, R80 step 1; their order is log entry
29), unpinned. -/
def State.unpinContext (s : State) (i : Screen) : State :=
  match s.contexts[i] with
  | none => s
  | some x => x.slots.foldl State.unpin s

/-- Screen `i` is affected by the load that took the part from `s` to `t` (R167). -/
def affects (s t : State) (i : Screen) : Prop :=
  t.screens[i].enable = true
    ∧ (s.screens[i] ≠ t.screens[i]
      ∨ ∃ ctx, t.contexts[i] = some ctx
        ∧ ((∃ l : Fin 32, ctx.layout = l.val ∧ s.layouts[l] ≠ t.layouts[l])
          ∨ ∃ e ∈ ctx.panes, ∃ p : Fin 224, e.pane = p.val ∧ s.panes[p] ≠ t.panes[p]))

/-! ### Spotlight lists -/

/-- The GOVERNING report of R125, when the governing entry has changed. -/
def governingChange (i : Screen) (old new : List SpotEntry) : List Report :=
  if old.head?.map (fun e => (e.origin, e.layout)) = new.head?.map (fun e => (e.origin, e.layout)) then []
  else [.spotGoverning i (new.head?.map fun e => (e.origin, e.layout)) (old.head?.map SpotEntry.origin)]

/-- Where the counting of lingers stands after an operation on the list `old` (R124): it runs while an
inactive entry governs, on from its start where that entry governed before and was not `touched`, and
from `now` where it did not. -/
def countingAfter (now : Time) (old : SpotList) (touched : Option Origin) (new : List SpotEntry) : Option Time :=
  match new.head? with
  | none => none
  | some e =>
    if e.active then none
    else if old.governing.map SpotEntry.origin = some e.origin ∧ touched ≠ some e.origin then old.counting
    else some now

/-- An entry after an operation on the list `old` that left the governing entry `head`: an entry that
governed with its linger counting, and governs no more, keeps the remainder (R124). -/
def banked (now : Time) (old : SpotList) (head : Option Origin) (e : SpotEntry) : SpotEntry :=
  match old.counting with
  | none => e
  | some t0 =>
    if old.governing.map SpotEntry.origin = some e.origin ∧ head ≠ some e.origin then
      { e with linger := e.linger - elapsed t0 now }
    else e

/-- The rank of an origin (R119, 11.2). -/
def rankOf : Origin → Nat
  | .doorAlert d => d.val
  | .doorOpen d => 12 + d.val
  | .reverse => 24
  | .manual => 25

/-- R121's order of two entries: the higher level first; at one level the one activated earlier, by the
order in which the entries were created; and of two activated at one time base value the lower origin rank. -/
abbrev comesBefore (a b : SpotEntry) : Prop :=
  b.level < a.level
    ∨ a.level = b.level
      ∧ (a.activated ≠ b.activated ∧ a.order < b.order ∨ a.activated = b.activated ∧ rankOf a.origin < rankOf b.origin)

/-- The entry of origin `o` stands in the list where R121 puts it: behind no entry that it comes before,
and next to one that it comes before, or last. -/
def atItsPlace (o : Origin) (es : List SpotEntry) : Prop :=
  ∃ before e after, es = before ++ e :: after ∧ e.origin = o ∧ (∀ b ∈ before, ¬comesBefore e b)
    ∧ ∀ b, after.head? = some b → comesBefore e b

/-- The order of R121 among all entries, with the numbers of log entry 13: no two entries share a number,
and entries activated at one time base value have no other entry's activation between theirs. -/
def SpotList.inActivationOrder (l : SpotList) : Prop :=
  l.entries.Pairwise comesBefore
    ∧ (l.entries.map SpotEntry.order).Nodup
    ∧ (∀ e ∈ l.entries, e.order < l.created)
    ∧ ∀ a ∈ l.entries, ∀ b ∈ l.entries, ∀ c ∈ l.entries,
        a.order < b.order → b.order < c.order → a.activated = c.activated → b.activated = c.activated

/-- No entry was activated a whole turn of the time base ago: the entries activated at the present value
are the latest of the list. -/
def SpotList.noneOneTurnOld (l : SpotList) (now : Time) : Prop :=
  ∀ a ∈ l.entries, ∀ b ∈ l.entries, a.activated = now → a.order < b.order → b.activated = now

end Sys2Proof.Machine
end

