-- ==== Sys2Proof/Certificates/Slice0/Obligations.lean ====
section
/-! DEFINITION. The statements for the provers, chapter by chapter of the manual. A statement that rests
on a choice of the model names its log entry in its docstring. -/

section

open Sys2Proof Sys2Proof.Machine

/-! ### The machine and its resets -/

/-- The front command of the queue is executed with the rest of the queue left behind it (log entry 4). -/
def Obligations.StepRunsTheFrontCommand : Prop :=
  ∀ (s : State) (c : Instr) (rest : List Instr), s.pending = c :: rest → step s = exec c { s with pending := rest }

/-- The model's choice (log entry 2): a step on an empty queue is one microsecond of the time base (R26),
after which exactly the timed events that have run out wait in the queue: a stale timeout (R34), an APPLYING
wait (R168), a linger (R124), a guard episode's quiet period (R196), a debounce period (R112). Elapsed times
are differences modulo 2^32 (R26). While the part is held in reset or
its state is undefined nothing happens; a low pulse of RESET_N that R198 does not count lasts its
microseconds and then leaves the state undefined (log entry 7). -/
def Obligations.IdleStepIsOneMicrosecond : Prop :=
  (∀ s : State, s.pending = [] →
    (s.condition = .heldInReset ∨ s.condition = .undefinedState → step s = .next s)
      ∧ (∀ left, s.condition = .lowPulse left →
          step s = .next { s with condition := if left ≤ 1 then .undefinedState else .lowPulse (left - 1) })
      ∧ (s.isRunning → ∃ t, step s = .next t ∧ t.time = s.time + 1 ∧ Touches [.time, .pending] s t
          ∧ ∀ c, c ∈ t.pending ↔
              (∃ n : Camera, c = .staleTimeout n ∧ (t.cadence[n].state = .acquiring ∨ t.cadence[n].state = .locked)
                  ∧ 3 * t.cameras[n].period ≤ elapsed t.cadence[n].staleRef t.time)
                ∨ (c = .applyingOvertime ∧ t.engine.state = .applying ∧ 250000 ≤ elapsed t.engine.waitStart t.time)
                ∨ (∃ (i : Screen) (t0 : Time) (e : SpotEntry), c = .lingerExpiry i ∧ t.spots[i].counting = some t0
                  ∧ t.spots[i].entries.head? = some e ∧ e.active = false ∧ e.linger ≤ elapsed t0 t.time)
                ∨ (∃ k e, c = .guardEpisodeClose k ∧ t.episode k = some e ∧ 10000 ≤ elapsed e.lastDrop t.time)
                ∨ (c = .sampleInstant t.lines.opens t.lines.alerts t.lines.reverse
                  ∧ t.setup.debounce ≤ elapsed t.doorUnit.lastSample t.time)))
    ∧ ∀ t0 t : Time, elapsed t0 t = (t.toNat + 2 ^ 32 - t0.toNat) % 2 ^ 32

/-- The values that the manual gives for power-on reset, block by block: R24, R40, R69, R71, R73, R74, R115,
R131, R150, R175, R176 and R197. That State.reset has the control page at 0 is log entry 6's choice: the
straps unconnected, which then read 0 (R198). -/
def Obligations.ResetHoldsThePowerOnValues : Prop :=
  let s := State.reset
  s.time = 0 ∧ s.pool.slots = [] ∧ s.freeCount = 0 ∧ s.holdCount = 0 ∧ s.holds.lock = false ∧ s.attn = false
    ∧ s.setup = ⟨0, 0, 0, 0, 0, 0, 1000, 0xFFFFFFFF, 40, 235, 112, 160, 4, 10, ⟨3, 0, 0, 0⟩⟩
    ∧ (∀ c : Camera, s.cameras[c] = ⟨false, false, 0, 0, 0, 0, 255, 0, 0, 0⟩ ∧ s.starved c = false
        ∧ s.rings[c] = ⟨[], none, [], .waiting, false, 0, 0, 0, 0, 0⟩)
    ∧ (∀ c : Camera, s.cadence[c] = ⟨.off, 0, 0, none, 0, none, none, 0, false⟩)
    ∧ (∀ c : Camera, s.lens[c].state = .unlearned ∧ s.lens[c].baseline = none ∧ s.lens[c].usableCount = 0
        ∧ s.lens[c].acc = none ∧ s.lens[c].eligible = 0 ∧ s.lens[c].lastMean = 0 ∧ s.lens[c].lastDark = 0
        ∧ s.lens[c].verdictFresh ∧ s.lens[c].noRun)
    ∧ (∀ i : Screen, s.screens[i] = ⟨false, 0, 0, 0, 0⟩ ∧ s.contexts[i] = none ∧ s.spots[i].entries = [])
    ∧ (∀ l : Fin 32, s.layouts[l] = ⟨255, ⟨16, 128, 128⟩⟩)
    ∧ (∀ p : Fin 224, s.panes[p] = ⟨0, 0, 0, 0, 0, 0, 0, 0, false, false, false, 0⟩)
    ∧ (∀ d : Door, s.doors[d] = ⟨false, false, 0, 0, ⟨2, 0, 0, 0⟩, ⟨4, 0, 0, 0⟩⟩
        ∧ s.doorUnit.states.get d = .closed
        ∧ s.doorUnit.opens.get d = ⟨none, none, 0⟩ ∧ s.doorUnit.alerts.get d = ⟨none, none, 0⟩)
    ∧ s.doorUnit.reverse = ⟨none, none, 0⟩
    ∧ (∀ h : HoldId, s.holds.table.get h = none) ∧ s.holds.order = []
    ∧ s.engine.state = .idle ∧ s.engine.lastTag = 0 ∧ s.engine.echo = 0 ∧ s.engine.toggle = false
    ∧ s.engine.result = .none ∧ s.engine.reason = .none ∧ s.engine.table = 0 ∧ s.engine.index = 0
    ∧ s.engine.staged = 0 ∧ (∀ i : Fin 256, s.engine.buffer.get i = 0)
    ∧ s.ring = ⟨0, 0, false, 0, 0, 0⟩
    ∧ (∀ k, s.episode k = none) ∧ (∀ t, s.roleOf t = .control) ∧ s.pageBase = 0

/-- Every invariant stated below holds of the reset state. -/
def Obligations.ResetMeetsTheInvariants : Prop :=
  let s := State.reset
  s.mem.wf = true ∧ s.ring.inRange ∧ s.engine.inRange
    ∧ (∀ i : Screen, s.spots[i].inOrder ∧ s.spots[i].inActivationOrder ∧ s.spots[i].noneOneTurnOld s.time)
    ∧ (∀ c : Camera, s.cadence[c].inRange s.cameras[c].enable)
    ∧ (∀ c : Camera, s.lens[c].inRange ∧ s.lensFigures c)
    ∧ s.holds.consistent ∧ (∀ d : Door, s.doors[d].post ≤ 3) ∧ s.poolLaws ∧ s.slotLaws ∧ s.regionsApart

/-- The release of RESET_N (R192, R197): from every state, the power-on values, with the control page
where the straps put it. Frame memory (R24) and the line levels stay; that the queue stays is the
model's choice (log entry 8). -/
def Obligations.PowerOnResetFromAnyState : Prop :=
  ∀ (straps : BitVec 2) (s : State), ∃ t, exec (.powerOnReset straps) s = .next t
    ∧ t = { State.reset with straps := straps, lines := s.lines, mem := s.mem, pending := s.pending }
    ∧ (straps = 0 → t.pageBase = 0x00000000) ∧ (straps = 1 → t.pageBase = 0x00100000)
    ∧ (straps = 2 → t.pageBase = 0x10000000) ∧ (straps = 3 → t.pageBase = 0x1FFFF000)

/-- The fall of RESET_N (R197, R198): ATTN is low while the line is low, and no command changes anything. A
low pulse of at least 10 microseconds with REFCLK running holds the part in reset; any other leaves its
state undefined when it has lasted its time, and then every command but the reset line's two is a fault
(the model's choice for "undefined", log entry 7). Requests in flight at the fall are abandoned: no beat that
waits is left, so the fall waits behind none of them; the commands of time and of the reset line that wait
stay, before the fall (the model's choice, log entry 8). No request arrives while RESET_N is low, and the
beats of one that arrives behind a release are routed with the straps which that release samples (R192). -/
def Obligations.ResetLineFallsAndHolds : Prop :=
  (∀ (low : Nat) (refclk : Bool) (s : State), ∃ t, exec (.resetNFall low refclk) s = .next t
      ∧ t.condition = (if 10 ≤ low ∧ refclk = true then .heldInReset else .lowPulse low)
      ∧ t.attn = false ∧ t.port = ⟨none, none⟩ ∧ Touches [.condition, .port] s t)
    ∧ (∀ (c : Instr) (s : State), c.isReset = false →
        (s.condition.low = true → exec c s = .next s ∧ s.attn = false)
          ∧ (s.condition = .undefinedState → exec c s = .fault .undefinedPart))
    ∧ (∀ (low : Nat) (refclk : Bool) (s : State),
        let u := s.resetFalls low refclk
        Touches [.pending] s u ∧ u.pending = s.pending.filter (fun c => c.tag?.isNone) ++ [.resetNFall low refclk]
          ∧ (∀ q, u.arrive q = u)
          ∧ ((∀ c ∈ s.pending, c.tag?.isSome = true) →
              ∃ t, step u = .next t ∧ t.condition.low = true ∧ t.pending = []
                ∧ Touches [.condition, .port, .pending] s t))
    ∧ (∀ (s : State) (q : Request),
        (s.pending = [] → s.condition.low = true → s.arrive q = s)
          ∧ (∀ low refclk, s.pending.getLast? = some (.resetNFall low refclk) → s.arrive q = s)
          ∧ ∀ straps, s.pending.getLast? = some (.powerOnReset straps) →
              s.arrive q = { s with pending := s.pending ++ { s with straps := straps }.requestBeats q })

/-- Every block owns its own state: a command changes at most the pieces that its row names, and never
the queue behind it. -/
def Obligations.EveryRowTouchesOnlyItsPieces : Prop :=
  ∀ (c : Instr) (s t : State), c.ownRow s → exec c s = .next t → Touches c.pieces s t

/-! ### Frame Port and Access Guard -/

/-- A plain window write outside the control page and the slot area stores its enabled bytes, for every
role, and changes nothing else. -/
def Obligations.PlainWriteStores : Prop :=
  ∀ (r : Requester) (addr : BitVec 29) (w : WriteData) (s : State),
    s.isRunning → s.mem.wf = true → ¬s.inPage (beatAddr addr.toNat) → s.pool.inArea (beatAddr addr.toNat) = false →
      ∃ t, exec (.plainWriteBeat r addr w) s = .next t ∧ Stored s t (beatAddr addr.toNat) w ∧ Completed s t r
        ∧ Touches [.mem, .port] s t

/-- A read of the plain window, the slot area or control page words 4 to 511 returns the eight bytes of
frame memory as they stand, for every role; a read of a landing window or of unmapped space returns the
zero word. Neither changes anything else. -/
def Obligations.ReadsReturnMemoryOrZero : Prop :=
  (∀ (r : Requester) (addr : BitVec 29) (s : State), s.isRunning →
      (s.inPage (beatAddr addr.toNat) → 32 ≤ beatAddr addr.toNat - s.pageBase) →
        ∃ t w, exec (.plainReadBeat r addr) s = .next t ∧ Returned s t r w
          ∧ (∀ j, j < 8 → byteOf w j = s.mem.read (beatAddr addr.toNat + j)) ∧ Touches [.port] s t)
    ∧ (∀ (r : Requester) (addr : BitVec 32) (s : State), s.isRunning → zeroWordAddress addr = true →
        ∃ t, exec (.zeroWordRead r addr) s = .next t ∧ Returned s t r 0 ∧ Touches [.port] s t)

/-- Writes into the slot area, into a screen window and into unmapped space are dropped for every role, each
recorded under its own guard kind. A landing write is dropped, in this order, for a tag without CAPTURE,
a disabled camera, and a word index not below the camera's frame words; no byte is written and no ring or
phase changes. -/
def Obligations.GuardedRegionsDropWrites : Prop :=
  ((∀ (r : Requester) (addr : BitVec 29) (w : WriteData) (s : State), s.isRunning →
        ¬s.inPage (beatAddr addr.toNat) → s.pool.inArea (beatAddr addr.toNat) = true →
          ∃ t, exec (.plainWriteBeat r addr w) s = .next t
            ∧ Dropped s t r .slotWrite (BitVec.ofNat 32 (beatAddr addr.toNat)))
      ∧ (∀ (r : Requester) (i : Screen) (word : BitVec 21) (w : WriteData) (s : State), s.isRunning →
          ∃ t, exec (.screenWrite r i word w) s = .next t
            ∧ Dropped s t r .screenWrite (BitVec.ofNat 32 (0x30000000 + i.val * 0x01000000 + 8 * word.toNat)))
      ∧ ∀ (r : Requester) (addr : BitVec 32) (w : WriteData) (s : State), s.isRunning → 0x34000000 ≤ addr.toNat →
          ∃ t, exec (.unmappedWrite r addr w) s = .next t
            ∧ Dropped s t r .unmapped (BitVec.ofNat 32 (beatAddr addr.toNat)))
    ∧ (∀ (r : Requester) (c : Camera) (word : BitVec 21) (w : WriteData) (s : State), s.isRunning →
        let a := BitVec.ofNat 32 (0x20000000 + c.val * 0x01000000 + 8 * word.toNat)
        let dropped := fun k => ∃ t, exec (.landingWrite r c word w) s = .next t ∧ Dropped s t r k a
        (s.roleOf r.tag ≠ .capture → dropped .landingRole)
          ∧ (s.roleOf r.tag = .capture → s.cameras[c].enable = false → dropped .landingDisabled)
          ∧ (s.roleOf r.tag = .capture → s.cameras[c].enable = true →
              s.cameras[c].w * s.cameras[c].h / 4 ≤ word.toNat → dropped .landingRange))

/-- Every control page write row of a tag without the CONTROL role is dropped with guard kind
CONTROL_ROLE; the Command Engine does not see it. -/
def Obligations.ControlPageNeedsControl : Prop :=
  ∀ (c : Instr) (r : Requester) (word : Nat) (s : State), c.pageWord? = some (r, word) → s.isRunning →
    s.roleOf r.tag ≠ .control →
      ∃ t, exec c s = .next t ∧ Dropped s t r .controlRole (BitVec.ofNat 32 (s.pageBase + 8 * word))

/-- R195: a drop opens its kind's closed episode with its tag, its address and count 1, or is counted in
the open one, which keeps its first tag, first address and opening time; the count holds at 65,535. -/
def Obligations.GuardDropCountsInItsEpisode : Prop :=
  ∀ (s : State) (k : GuardKind) (tag : Tag) (addr : BitVec 32),
    let t := s.guardDrop k tag addr
    (s.episode k = none → t.episode k = some ⟨tag, addr, s.time, s.time, 1⟩)
      ∧ (∀ e, s.episode k = some e →
          t.episode k = some ⟨e.tag, e.addr, e.opened, s.time, if e.count < 65535 then e.count + 1 else 65535⟩)
      ∧ ∀ k', k' ≠ k → t.episode k' = s.episode k'

/-- An open episode that has been quiet for 10,000 microseconds closes with one GUARD report; one that
has not, or a closed one, is left as it stands (that the command then does nothing is log entry 3). -/
def Obligations.GuardEpisodeCloses : Prop :=
  ∀ (k : GuardKind) (s : State), s.isRunning →
    (∀ e, s.episode k = some e → 10000 ≤ elapsed e.lastDrop s.time →
        ∃ t, exec (.guardEpisodeClose k) s = .next t ∧ t.episode k = none
          ∧ (∀ k', k' ≠ k → t.episode k' = s.episode k') ∧ Reported s s.mem [.guard k e] t
          ∧ Touches [.episodes, .mem, .ring] s t)
      ∧ ((∀ e, s.episode k = some e → elapsed e.lastDrop s.time < 10000) →
          exec (.guardEpisodeClose k) s = .next s)

/-- The row that a beat stands under by its address has exactly the meaning of the routed beat (R193): the
write rows and the read rows together are the whole Frame Port. And the address plan of 0.3: where each
region begins and ends, and which window and word an address names; the slot area holds the slots of the
slot table one behind the other (R1, R2). -/
def Obligations.RowsAreTheRoutedBeats : Prop :=
  (∀ (r : Requester) (a : BitVec 32) (w : WriteData) (s : State),
      exec (s.writeRow r a.toNat w) s = whileRunning s (fun s => s.portWrite r a.toNat w)
        ∧ exec (s.readRow r a.toNat) s = whileRunning s (fun s => s.portRead r a.toNat))
    ∧ (∀ (s : State) (a : Nat), a < 2 ^ 32 → a % 8 = 0 →
        (s.inPage a → s.regionOf a = .controlPage (BitVec.ofNat 9 ((a - s.pageBase) / 8)))
          ∧ (a < 0x20000000 → ¬s.inPage a → s.pool.inArea a = true → s.regionOf a = .slotArea)
          ∧ (a < 0x20000000 → ¬s.inPage a → s.pool.inArea a = false → s.regionOf a = .plain)
          ∧ (∀ (c : Camera) (word : BitVec 21), s.regionOf a = .landing c word ↔
              a = 0x20000000 + c.val * 0x01000000 + 8 * word.toNat)
          ∧ (∀ (i : Screen) (word : BitVec 21), s.regionOf a = .screen i word ↔
              a = 0x30000000 + i.val * 0x01000000 + 8 * word.toNat)
          ∧ (s.regionOf a = .unmapped ↔ 0x34000000 ≤ a))
    ∧ ∀ (p : SlotPool) (a i : Nat), p.slotBytes = p.units * 65536 ∧ p.slotAddr i = p.base + i * (p.units * 65536)
      ∧ (p.inArea a = true ↔ p.base ≤ a ∧ a < p.base + p.slots.length * (p.units * 65536))

/-- The Command Word of a well-formed Command Word row spells that row and no other, with every operand
and every unused byte kept. -/
def Obligations.CommandWordsRoundTrip : Prop :=
  (∀ (i : Instr) (r : Requester) (d : Word), i.wellFormed = true → i.commandWord? = some (r, d) → commandRow r d = i)
    ∧ ∀ (r : Requester) (d : Word), (commandRow r d).commandWord? = some (r, d) ∧ (commandRow r d).wellFormed = true

/-- What a tag with the GENERAL role can do (R191): besides its own answers, guard episodes and the
TOGGLE bit of a status read, it changes only frame memory, and there no byte of the control page. -/
def Obligations.GeneralTagsReachNoBlock : Prop :=
  ∀ (c : Instr) (tag : Tag) (s t : State), c.ownRow s → c.tag? = some tag → s.roleOf tag = .general →
    exec c s = .next t →
      Touches [.mem, .episodes, .port, .engine] s t ∧ (∃ b, t.engine = { s.engine with toggle := b })
        ∧ ∀ a, s.inPage a → t.mem.read a = s.mem.read a

/-! ### The control page -/

/-- A CONTROL write of a page word that is neither the Command Word taken whole, the consumer index nor
the staging area: words 0 to 3 are dropped without a guard event, every other word is stored. A partial
write of word 8 is stored and is no command. -/
def Obligations.ControlPageWriteStores : Prop :=
  ∀ (r : Requester) (word : BitVec 9) (w : WriteData) (s : State), s.isRunning → s.mem.wf = true →
    s.roleOf r.tag = .control → plainPageWord word w →
      ∃ t, exec (.controlPageWrite r word w) s = .next t ∧ Completed s t r ∧ Touches [.mem, .port] s t
        ∧ (word.toNat < 4 → t.mem = s.mem)
        ∧ (4 ≤ word.toNat → Stored s t (s.pageBase + 8 * word.toNat) w)

/-- A CONTROL write of word 16: stored, and the consumer index takes the field when both its bytes are
enabled and its value is below the capacity; otherwise it keeps its last value. -/
def Obligations.ConsumerIndexWrite : Prop :=
  ∀ (r : Requester) (w : WriteData) (s : State), s.isRunning → s.mem.wf = true → s.roleOf r.tag = .control →
    ∃ t, exec (.consumerIndex r w) s = .next t ∧ Completed s t r ∧ Touches [.mem, .ring, .port] s t
      ∧ Stored s t (s.pageBase + 128) w
      ∧ (w.enables.getLsbD 0 = true → w.enables.getLsbD 1 = true → w.data.toNat % 65536 < s.ring.capacity →
          t.ring = { s.ring with consumer := w.data.toNat % 65536 })
      ∧ (w.enables.getLsbD 0 = false ∨ w.enables.getLsbD 1 = false ∨ s.ring.capacity ≤ w.data.toNat % 65536 →
          t.ring = s.ring)

/-- A CONTROL write into the staging area is stored; while STAGING it also counts one word and merges its
enabled bytes, or aborts the load with OUT_OF_RANGE or, in a record of the load, with OVERCOUNT. That the
discarded staging buffer holds zero bytes and no word is log entry 18. -/
def Obligations.StagingWriteMergesOrAborts : Prop :=
  ∀ (r : Requester) (word : BitVec 8) (w : WriteData) (s : State), s.isRunning → s.mem.wf = true →
    s.roleOf r.tag = .control →
      let e := s.engine
      let stored := s.mem.writeWord (s.pageBase + 8 * (256 + word.toNat)) w
      let aborted := fun (reason : Reason) (t : State) =>
        t.engine = { e with state := .aborted, staged := 0, buffer := Vector.replicate 256 0, result := .aborted,
                            reason := reason, table := b8 e.load.table.code, index := BitVec.ofNat 16 e.load.first }
          ∧ Reported s stored [.commandDone 0xFF e.lastTag .aborted reason (b8 e.load.table.code)
              (BitVec.ofNat 16 e.load.first)] t
          ∧ Touches [.mem, .ring, .engine, .port] s t
      ∃ t, exec (.stagingWrite r word w) s = .next t ∧ Completed s t r
        ∧ (e.state ≠ .staging →
            Stored s t (s.pageBase + 8 * (256 + word.toNat)) w ∧ Touches [.mem, .port] s t)
        ∧ (e.state = .staging → e.load.count ≤ word.toNat / 8 → aborted .outOfRange t)
        ∧ (e.state = .staging → word.toNat / 8 < e.load.count → e.load.count * 8 ≤ e.staged → aborted .overcount t)
        ∧ (e.state = .staging → word.toNat / 8 < e.load.count → e.staged < e.load.count * 8 →
            Stored s t (s.pageBase + 8 * (256 + word.toNat)) w ∧ Touches [.mem, .engine, .port] s t
              ∧ t.engine = { e with staged := e.staged + 1, buffer := t.engine.buffer }
              ∧ (∀ j, j < 8 → byteOf (t.engine.buffer.get word.toFin) j =
                  if w.enables.getLsbD j then byteOf w.data j else byteOf (e.buffer.get word.toFin) j)
              ∧ ∀ i, i ≠ word.toFin → t.engine.buffer.get i = e.buffer.get i)

/-- A read of a Status Window word, by any role, returns its fields as their owners stand; only a read of
word 0 in APPLYING changes anything, and that is TOGGLE, after the word has been formed. -/
def Obligations.StatusWindowRead : Prop :=
  ∀ (r : Requester) (word : Fin 4) (s : State), s.isRunning →
    ∃ t w, exec (.statusWindowRead r word) s = .next t ∧ Returned s t r w ∧ Touches [.engine, .port] s t
      ∧ t.engine = { s.engine with toggle :=
          if word = 0 ∧ s.engine.state = .applying then !s.engine.toggle else s.engine.toggle }
      ∧ (word = 0 →
          byteOf w 0 = b8 s.engine.state.code
            ∧ byteOf w 1 = (if s.engine.state = .applying then ~~~s.engine.lastTag else s.engine.lastTag)
            ∧ byteOf w 2 = b8 (bit s.engine.toggle) ∧ byteOf w 3 = b8 s.engine.result.code
            ∧ byteOf w 4 = b8 s.engine.reason.code ∧ byteOf w 5 = s.engine.table
            ∧ w.extractLsb' 48 16 = s.engine.index)
      ∧ (word = 1 →
          w.extractLsb' 0 16 = BitVec.ofNat 16 s.ring.producer ∧ w.extractLsb' 16 16 = BitVec.ofNat 16 s.ring.lost
            ∧ byteOf w 4 = b8 (bit s.ring.configured) ∧ w.extractLsb' 40 24 = 0)
      ∧ (word = 2 → ∀ c : Camera, (w.extractLsb' (4 * c.val) 4).toNat = bit (s.usable c)
          + 2 * (match s.lens[c].state with
              | .unlearned => 0
              | .clean => 0
              | .part => 1
              | .obscured => 2)
          + 8 * bit (decide (s.cadence[c].state = .stale ∨ s.cadence[c].frozen = true)))
      ∧ (word = 3 →
          w.extractLsb' 0 32 = s.time ∧ byteOf w 4 = b8 s.freeCount ∧ byteOf w 5 = b8 s.holdCount
            ∧ byteOf w 6 = b8 (bit s.holds.lock) ∧ byteOf w 7 = 0)

/-! ### The Command Engine -/

/-- LOAD in IDLE: a table code that names no table aborts with BAD_TABLE, a count of 0 or above 32 or a
run past the table's end with BAD_COUNT; otherwise staging opens on a buffer of zero bytes. -/
def Obligations.LoadOpensStaging : Prop :=
  ∀ (r : Requester) (tag table first count : Byte) (spare : BitVec 24) (s : State), s.isRunning →
    s.roleOf r.tag = .control → s.engine.state = .idle → s.ring.inRange →
      let d := commandWord 0x01 tag (threeArgs table first count spare)
      ∃ t, exec (.load r tag table first count spare) s = .next t ∧ Touches [.mem, .ring, .engine, .port] s t
        ∧ (6 ≤ table.toNat →
            Answered s t r d []
              { s.engine.ended tag .aborted .badTable table (first.setWidth 16) with state := .aborted })
        ∧ ∀ T : TableId, T.code = table.toNat →
            (count.toNat = 0 ∨ 32 < count.toNat ∨ T.records < first.toNat + count.toNat →
                Answered s t r d []
                  { s.engine.ended tag .aborted .badCount table (first.setWidth 16) with state := .aborted })
              ∧ (1 ≤ count.toNat → count.toNat ≤ 32 → first.toNat + count.toNat ≤ T.records →
                  Answered s t r d []
                    { s.engine.ended tag .done .none table (first.setWidth 16) with
                      state := .staging, load := ⟨T, first.toNat, count.toNat⟩, staged := 0,
                      buffer := Vector.replicate 256 0 })

/-- A COMMIT that applies nothing: REFUSED with NOTHING_STAGED in IDLE; in STAGING, ABORTED with SHORT
when too few words have come, and INVALID with the failure that validation names when the words are
complete. No table changes. And what validation names (R161 to R165): the first failing check of the
first failing record in ascending index, with the slot balance of a CAMERAS load behind all its records; in
a load of LAYOUTS or PANES, the first failure on the first failing chain. That the discarded staging buffer
holds zero bytes and no word is log entry 18. -/
def Obligations.CommitThatAppliesNothing : Prop :=
  (∀ (r : Requester) (tag : Byte) (spare : BitVec 48) (s : State), s.isRunning → s.roleOf r.tag = .control →
    s.ring.inRange →
      let d := commandWord 0x02 tag spare
      let e := s.engine
      (e.state = .idle →
          ∃ t, exec (.commit r tag spare) s = .next t ∧ Touches [.mem, .ring, .engine, .port] s t
            ∧ Answered s t r d [] (e.ended tag .refused .nothingStaged 0 0))
        ∧ (e.state = .staging → e.staged < e.load.count * 8 →
            ∃ t, exec (.commit r tag spare) s = .next t ∧ Touches [.mem, .ring, .engine, .port] s t
              ∧ Answered s t r d []
                { e.ended tag .aborted .short (b8 e.load.table.code) (BitVec.ofNat 16 e.load.first) with
                  state := .aborted, staged := 0, buffer := Vector.replicate 256 0 })
        ∧ ∀ f, e.state = .staging → e.load.count * 8 ≤ e.staged → s.validate = some f →
            ∃ t, exec (.commit r tag spare) s = .next t ∧ Touches [.mem, .ring, .engine, .port] s t
              ∧ Answered s t r d []
                { e.ended tag .invalid f.reason (b8 f.table.code) (BitVec.ofNat 16 f.index) with
                  state := .idle, staged := 0, buffer := Vector.replicate 256 0 })
    ∧ ∀ s : State, s.engine.state = .staging → s.engine.inRange → s.pool.units = s.setup.slotUnits →
      let e := s.engine
      let fails := fun (reason : Reason) (T : TableId) (i : Nat) => s.validate = some ⟨reason, T, i⟩
      let walks := fun (panes : Vector PaneRec 224) (head : Fin 32 → Nat) (walked : Fin 32 → Prop) =>
        (∀ (l : Fin 32) (n : Nat), walked l → (∀ l', l' < l → walked l' → chainPasses panes (head l')) →
            (∀ m, m < n → stepPasses panes (head l) m) →
              let i := chainIndex panes (head l) n
              let seen := ∃ m, m < n ∧ chainIndex panes (head l) m = i
              (224 ≤ i → i ≠ 255 → fails .badLink .layouts l.val)
                ∧ (i < 224 → seen → fails .chainLoop .layouts l.val)
                ∧ (i < 224 → ¬seen → 8 ≤ n → fails .chainLong .layouts l.val)
                ∧ ∀ h : i < 224, ¬seen → n < 8 → ¬paneRanges (panes.get ⟨i, h⟩) → fails .badPane .panes i)
          ∧ ((∀ l, walked l → chainPasses panes (head l)) → s.validate = none)
      (e.load.table = .setup →
          let r := setupOf (e.stagedBytes 0)
          let control := ∃ tag, roleIn r.roleMap tag = .control
          (¬setupRanges r → fails .badRange .setup 0)
            ∧ (setupRanges r → ¬setupOrders r → fails .badOrder .setup 0)
            ∧ (setupRanges r → setupOrders r → ¬control → fails .badRoles .setup 0)
            ∧ (setupRanges r → setupOrders r → control → ¬setupRing r s.pageBase → fails .badRing .setup 0)
            ∧ (setupRanges r → setupOrders r → control → setupRing r s.pageBase → ¬setupArea r s.pageBase →
                fails .badArea .setup 0)
            ∧ (setupRanges r → setupOrders r → control → setupRing r s.pageBase → setupArea r s.pageBase →
                (¬setupIdle s r → fails .busySlots .setup 0) ∧ (setupIdle s r → s.validate = none)))
        ∧ (e.load.table = .cameras →
          let staged := fun c : Camera => e.stages .cameras c.val
          let r := fun c : Camera => cameraOf (e.stagedBytes c.val)
          let ranges := fun c : Camera => cameraRanges (s.setup.slotUnits * 65536) c (r c)
          let kept := fun c : Camera => cameraKept s.cameras[c] (r c)
          let enables := fun c : Camera => staged c ∧ s.cameras[c].enable = false ∧ (r c).enable = true
          let freed := fun c : Camera => s.pool.slots.countP fun x =>
            decide ((x.disp = .ring c .ready ∨ x.disp = .ring c .filling ∨ x.disp = .ring c .empty) ∧ x.pins = 0)
          let change := fun c : Camera =>
            if e.load.first ≤ c.val ∧ c.val < e.load.first + e.load.count then
              (if s.cameras[c].enable = true ∧ (r c).enable = false then (freed c : Int) else 0)
                - (if s.cameras[c].enable = false ∧ (r c).enable = true then ((r c).k : Int) else 0)
            else 0
          let balance := fun c : Camera =>
            (s.freeCount : Int) + (((List.finRange 16).filter (· < c)).map change).sum
          let fits := fun c : Camera => ((r c).k : Int) + (s.setup.holdReserve : Int) ≤ balance c
          (∀ c, staged c → (∀ c', c' < c → staged c' → ranges c' ∧ kept c') →
              (¬ranges c → fails .badRange .cameras c.val)
                ∧ (ranges c → ¬kept c → fails .busyCamera .cameras c.val))
            ∧ ((∀ c, staged c → ranges c ∧ kept c) →
              (∀ c, enables c → (∀ c', c' < c → enables c' → fits c') → ¬fits c → fails .noSlot .cameras c.val)
                ∧ ((∀ c, enables c → fits c) → s.validate = none)))
        ∧ (e.load.table = .screens →
          let ranges := fun i : Screen => screenRanges (screenOf (e.stagedBytes i.val))
          (∀ i : Screen, e.stages .screens i.val → (∀ j : Screen, j < i → e.stages .screens j.val → ranges j) →
              ¬ranges i → fails .badRange .screens i.val)
            ∧ ((∀ i : Screen, e.stages .screens i.val → ranges i) → s.validate = none))
        ∧ (e.load.table = .doors →
          let ranges := fun d : Door => doorRanges (doorOf (e.stagedBytes d.val))
          (∀ d : Door, e.stages .doors d.val → (∀ d' : Door, d' < d → e.stages .doors d'.val → ranges d') →
              ¬ranges d → fails .badRange .doors d.val)
            ∧ ((∀ d : Door, e.stages .doors d.val → ranges d) → s.validate = none))
        ∧ (e.load.table = .layouts →
          walks s.panes (fun l => (layoutOf (e.stagedBytes l.val)).head) (fun l => e.stages .layouts l.val))
        ∧ (e.load.table = .panes → ∀ panes : Vector PaneRec 224,
            (∀ p : Fin 224, (e.stages .panes p.val → panes.get p = paneOf (e.stagedBytes p.val))
              ∧ (¬e.stages .panes p.val → panes.get p = s.panes[p])) →
            walks panes (fun l => s.layouts[l].head)
              (fun l => ∃ n, n < 224 ∧ e.stages .panes (chainIndex panes s.layouts[l].head n)))

/-- A COMMIT whose staged records all pass validation stores each of them in its table, changes no other
record of any table, and applies them one by one in ascending index (R166). It ends DONE in IDLE unless the
load was of SCREENS, LAYOUTS or PANES and some screen is affected; then the engine is APPLYING with exactly
the affected screens pending and no result yet (R167). A SETUP that changes the report ring has its own
COMMAND_DONE at place 0 of the new ring, with ATTN high (R181, R187). And what one applied record does:
SETUP rebuilds the slot table and the ring exactly when they differ (R1, R176) and redescribes an active
REVERSE (R120); a CAMERA record enables (R6, R28, R64), disables (R7, R29, R65, R142) or reconfigures its
camera (R35, R66); a SCREEN record that disables unpins and discards the scan context (R72); a DOOR record
forms the door's state and raises, ends or redescribes its sources (R118). The order of different blocks'
reports inside one CAMERA record, of the two sources inside one DOOR record, of the unpins of one screen and
of the blocks inside a SETUP record is the model's choice (log entries 24, 30, 29 and 17). So are these
clauses: an end at the COMMIT uses the new record's linger (log entry 15); a changed debounce period counts
from the last sample instant, or from the reset before the first one (log entry 9), and the sample that it
makes due at once takes the levels that the last one took (log entry 5); an end of a governing entry that is
inactive already starts its count anew (log entry 14). -/
def Obligations.ValidCommitAppliesEveryRecord : Prop :=
  (∀ (r : Requester) (tag : Byte) (spare : BitVec 48) (s : State), s.isRunning → s.roleOf r.tag = .control →
    s.ring.inRange → s.engine.inRange → s.engine.state = .staging → s.engine.load.count * 8 ≤ s.engine.staged →
    s.validate = none →
      let e := s.engine
      let bytes := fun i => e.stagedBytes i
      let table := b8 e.load.table.code
      let first := BitVec.ofNat 16 e.load.first
      let taken : State := { s with mem := s.commandMem (commandWord 0x02 tag spare), engine := { e with lastTag := tag } }
      let rows := List.range e.load.count
      let applied : State := match e.load.table with
        | .setup => rows.foldl (fun u n => u.applySetup (setupOf (bytes (e.load.first + n)))) taken
        | .cameras => rows.foldl (fun u n =>
            u.applyCamera (Fin.ofNat 16 (e.load.first + n)) (cameraOf (bytes (e.load.first + n)))) taken
        | .screens => rows.foldl (fun u n =>
            u.applyScreen (Fin.ofNat 4 (e.load.first + n)) (screenOf (bytes (e.load.first + n)))) taken
        | .layouts => taken
        | .panes => taken
        | .doors => rows.foldl (fun u n =>
            u.applyDoor (Fin.ofNat 12 (e.load.first + n)) (doorOf (bytes (e.load.first + n)))) taken
      ∃ t, exec (.commit r tag spare) s = .next t ∧ Completed s t r
        ∧ (e.stages .setup 0 → t.setup = setupOf (bytes 0)) ∧ (¬e.stages .setup 0 → t.setup = s.setup)
        ∧ (∀ c : Camera, (e.stages .cameras c.val → t.cameras[c] = cameraOf (bytes c.val))
            ∧ (¬e.stages .cameras c.val → t.cameras[c] = s.cameras[c]))
        ∧ (∀ i : Screen, (e.stages .screens i.val → t.screens[i] = screenOf (bytes i.val))
            ∧ (¬e.stages .screens i.val → t.screens[i] = s.screens[i]))
        ∧ (∀ l : Fin 32, (e.stages .layouts l.val → t.layouts[l] = layoutOf (bytes l.val))
            ∧ (¬e.stages .layouts l.val → t.layouts[l] = s.layouts[l]))
        ∧ (∀ p : Fin 224, (e.stages .panes p.val → t.panes[p] = paneOf (bytes p.val))
            ∧ (¬e.stages .panes p.val → t.panes[p] = s.panes[p]))
        ∧ (∀ d : Door, (e.stages .doors d.val → t.doors[d] = doorOf (bytes d.val))
            ∧ (¬e.stages .doors d.val → t.doors[d] = s.doors[d]))
        ∧ Touches [.layouts, .panes, .engine, .mem, .ring, .port] applied t
        ∧ t.engine.lastTag = tag ∧ t.engine.toggle = e.toggle
        ∧ ((e.load.table = .setup ∨ e.load.table = .cameras ∨ e.load.table = .doors ∨ ∀ i, ¬affects s t i) →
            t.engine.state = .idle ∧ t.engine.result = .done ∧ t.engine.reason = .none
              ∧ t.engine.table = table ∧ t.engine.index = first
              ∧ Reported applied applied.mem [.commandDone 0x02 tag .done .none table first] t)
        ∧ (∀ j : Screen, e.load.table = .screens ∨ e.load.table = .layouts ∨ e.load.table = .panes →
            affects s t j →
              t.engine.state = .applying ∧ t.engine.waitStart = s.time ∧ t.engine.result = e.result
                ∧ t.engine.reason = e.reason ∧ t.engine.table = e.table ∧ t.engine.index = e.index
                ∧ (∀ i : Screen, t.engine.pending.getLsbD i.val = true ↔ affects s t i)
                ∧ t.mem = applied.mem ∧ t.ring = applied.ring)
        ∧ (e.stages .setup 0 → s.mem.wf = true →
            t.setup.ringBase ≠ s.ring.base ∨ t.setup.ringCapacity ≠ s.ring.capacity →
              let done := (Report.commandDone 0x02 tag .done .none table first).bytes s.time 0
              t.ring = ⟨t.setup.ringBase, t.setup.ringCapacity, true, 1, 0, 0⟩ ∧ t.attn = true
                ∧ ∀ j (h : j < done.length), t.mem.read (t.setup.ringBase + j) = done[j])
        ∧ ∀ a, outside (s.pageBase + 64) 8 a → s.ring.outsideRing a → t.ring.outsideRing a →
            t.mem.read a = s.mem.read a)
    ∧ (∀ (s : State) (new : SetupRec),
        let t := s.applySetup new
        let old := s.setup
        let noSample := old.debounce = new.debounce ∨ elapsed s.doorUnit.lastSample s.time < new.debounce
        let sameSlots := s.pool.base = new.slotBase ∧ s.pool.units = new.slotUnits ∧ s.pool.slots.length = new.slotCount
        let sameRing := s.ring.base = new.ringBase ∧ s.ring.capacity = new.ringCapacity
        t.setup = new ∧ Touches [.setup, .pool, .rings, .doorUnit, .spots, .holds, .mem, .ring] s t
          ∧ (¬sameRing → t.ring = ⟨new.ringBase, new.ringCapacity, true, 0, 0, 0⟩)
          ∧ (noSample → sameSlots → t.pool = s.pool)
          ∧ (noSample → ¬sameSlots →
              t.pool = ⟨new.slotBase, new.slotUnits, List.replicate new.slotCount ⟨.free, 0, none⟩⟩)
          ∧ (noSample → t.rings = s.rings ∧ t.holds = s.holds ∧ t.doorUnit = s.doorUnit)
          ∧ (noSample → s.doorUnit.reverse.accepted ≠ some true →
              t.spots = s.spots ∧ t.mem = s.mem ∧ (sameRing → t.ring = s.ring))
          ∧ (noSample → s.doorUnit.reverse.accepted = some true → ∀ i : Screen,
              t.spots[i] = changeNotice i s.time .reverse old.reverse new.reverse s.spots[i])
          ∧ (¬noSample → t.doorUnit.lastSample = s.time
              ∧ t.doorUnit.opens = (s.doorUnit.sampled s.lines).opens
              ∧ t.doorUnit.alerts = (s.doorUnit.sampled s.lines).alerts
              ∧ t.doorUnit.reverse = (s.doorUnit.sampled s.lines).reverse))
    ∧ (∀ (s : State) (c : Camera) (new : CameraRec),
        let t := s.applyCamera c new
        let old := s.cameras[c]
        let l := s.lens[c]
        let geometry := old.w ≠ new.w ∨ old.h ≠ new.h ∨ old.excl ≠ new.excl
        let lensOff := old.lensOn = true ∧ new.lensOn = false
        let lensOn := old.lensOn = false ∧ new.lensOn = true
        let run := fun (d : DiscardCause) => Report.learnEnd c (.discarded d) l.learned l.candidates none
        let unlearned : List Report :=
          if geometry ∧ l.state ≠ .unlearned then [.lens c l.state .unlearned .config none] else []
        let configured : List Report := unlearned
          ++ (if l.learn ≠ .idle ∧ geometry then [run .config] else if l.learn ≠ .idle ∧ lensOff then [run .lensOff] else [])
        t.cameras = upd s.cameras c new
          ∧ (∀ c' : Camera, c' ≠ c → t.rings[c'] = s.rings[c'] ∧ t.cadence[c'] = s.cadence[c'] ∧ t.lens[c'] = s.lens[c'])
          ∧ (geometry → t.lens[c].baseline = none ∧ t.lens[c].usableCount = 0 ∧ t.lens[c].state = .unlearned
              ∧ t.lens[c].verdictFresh)
          ∧ (¬geometry → t.lens[c].baseline = l.baseline ∧ t.lens[c].usableCount = l.usableCount)
          ∧ (l.learn ≠ .idle → geometry ∨ lensOff ∨ old.enable = true ∧ new.enable = false → t.lens[c].noRun)
          ∧ (l.learn = .idle ∨ ¬(geometry ∨ lensOff ∨ old.enable = true ∧ new.enable = false) →
              t.lens[c].learn = l.learn ∧ t.lens[c].sums = l.sums ∧ t.lens[c].learned = l.learned
                ∧ t.lens[c].candidates = l.candidates)
          ∧ t.lens[c].noiseInUse = l.noiseInUse ∧ t.lens[c].lastMean = l.lastMean ∧ t.lens[c].lastDark = l.lastDark
          ∧ t.lens[c].eligible =
              (if lensOn ∨ old.enable = false ∧ new.enable = true then 0 else l.eligible)
          ∧ (¬geometry → l.baseline = none ∨ old.enable = true ∨ new.enable = false →
              t.lens[c].state = l.state ∧ t.lens[c].scores = l.scores ∧ t.lens[c].flags = l.flags
                ∧ t.lens[c].history = l.history)
          ∧ (∀ i free, old.enable = false → new.enable = true → new.k ≤ s.freeCount →
              ((List.range s.pool.slots.length).filter fun j => decide ((s.slot j).disp = .free)).take new.k = i :: free →
                t.rings[c] = ⟨[], some i, free, .waiting, false, 0, 0, 0, 0, 0⟩
                  ∧ t.slot i = ⟨.ring c .filling, 0, none⟩ ∧ (∀ j ∈ free, t.slot j = ⟨.ring c .empty, 0, none⟩)
                  ∧ (∀ j, j ≠ i → j ∉ free → t.slot j = s.slot j) ∧ t.holds = s.holds)
          ∧ (old.enable = false → new.enable = true →
              t.cadence[c] = { s.cadence[c] with
                  state := .acquiring, good := 0, slip := 0, previous := none, staleRef := s.time, sigAcc := none
                  prevSig := none, run := 0, frozen := false }
                ∧ (¬geometry → l.baseline ≠ none → t.lens[c].verdictFresh ∧ t.lens[c].state = .clean)
                ∧ Touches [.cameras, .pool, .rings, .cadence, .lens, .mem, .ring] s t
                ∧ Reported s s.mem (configured ++ .cadence c .off .acquiring .enable none ::
                    (if ¬geometry ∧ l.baseline ≠ none ∧ (l.state = .part ∨ l.state = .obscured) then
                      [.lens c l.state .clean .enable none] else [])) t)
          ∧ (old.enable = true → new.enable = false → s.holds.consistent →
              let short := fun x : Hold =>
                if x.state = .collecting ∧ x.camera = c then
                  { x with state := HoldState.complete, cause := some .disable, short := true } else x
              t.rings[c] = { s.rings[c] with
                  ready := [], filling := none, empty := [], phase := .waiting, tornMark := false, writes := 0 }
                ∧ t.pool.slots.length = s.pool.slots.length
                ∧ (∀ i m, (s.slot i).disp = .ring c m → t.slot i =
                    if (s.slot i).pins = 0 then ⟨.free, 0, none⟩ else ⟨.retiring, (s.slot i).pins, none⟩)
                ∧ (∀ i, (∀ m, (s.slot i).disp ≠ .ring c m) → t.slot i = s.slot i)
                ∧ t.cadence[c] = { s.cadence[c] with
                    state := .off, good := 0, slip := 0, previous := none, sigAcc := none, prevSig := none, run := 0
                    frozen := false }
                ∧ t.lens[c].acc = none
                ∧ (∀ h, t.holds.table.get h = (s.holds.table.get h).map short) ∧ t.holds.order = s.holds.order
                ∧ t.holds.lock = s.holds.lock
                ∧ Touches [.cameras, .pool, .rings, .cadence, .lens, .holds, .mem, .ring] s t
                ∧ Reported s s.mem
                  (.cadence c s.cadence[c].state .off .disable none ::
                    (if s.cadence[c].frozen then [.frozen c false .disable none] else [])
                    ++ (if l.learn = .idle then [] else [run (if geometry then .config else .disable)])
                    ++ s.holds.order.filterMap (fun h => (s.holds.table.get h).bind fun x =>
                        if x.state = .collecting ∧ x.camera = c then some (.holdComplete h (short x)) else none)
                    ++ unlearned) t)
          ∧ (old.enable = new.enable →
              let late := new.enable = true ∧ old.period ≠ new.period
                ∧ (s.cadence[c].state = .acquiring ∨ s.cadence[c].state = .locked)
                ∧ 3 * new.period ≤ elapsed s.cadence[c].staleRef s.time
              Touches [.cameras, .cadence, .lens, .mem, .ring] s t
                ∧ t.cadence[c] = (if late then
                    { s.cadence[c] with state := .stale, good := 0, slip := 0, previous := none } else s.cadence[c])
                ∧ t.lens[c].acc = l.acc
                ∧ Reported s s.mem (configured
                    ++ (if late then [.cadence c s.cadence[c].state .stale .timeout none] else [])) t))
    ∧ (∀ (s : State) (i : Screen) (new : ScreenRec),
        let t := s.applyScreen i new
        t.screens = upd s.screens i new
          ∧ (¬(s.screens[i].enable = true ∧ new.enable = false) → Touches [.screens] s t)
          ∧ (s.screens[i].enable = true → new.enable = false →
              let u := s.unpinContext i
              t.contexts = upd s.contexts i none ∧ t.pool = u.pool ∧ t.rings = u.rings ∧ t.mem = u.mem ∧ t.ring = u.ring
                ∧ Touches [.screens, .contexts, .pool, .rings, .mem, .ring] s t))
    ∧ (∀ (s : State) (d : Door) (new : DoorRec),
        let t := s.applyDoor d new
        let old := s.doors[d]
        let opn := (s.doorUnit.opens.get d).accepted
        let alert := (s.doorUnit.alerts.get d).accepted
        let was := s.doorUnit.states.get d
        let formed : DoorState :=
          if old.enable = new.enable then was
          else if new.enable = false then .closed
          else if alert = none ∨ opn = none then .unknown
          else if alert = some true then .alert
          else if opn = some true then .opened
          else .closed
        Touches [.doors, .doorUnit, .spots, .mem, .ring] s t
          ∧ t.doors = upd s.doors d new ∧ t.doorUnit = { s.doorUnit with states := upd s.doorUnit.states d formed }
          ∧ (∀ i : Screen, t.spots[i] =
              doorNotice i s.time (.doorAlert d) old.enable new.enable (decide (alert = some true)) old.alertReq new.alertReq
                (doorNotice i s.time (.doorOpen d) old.enable new.enable (decide (opn = some true)) old.openReq new.openReq
                  s.spots[i]))
          ∧ ∃ rs, (∀ x ∈ rs, x.kind = 8)
              ∧ Reported s s.mem ((if formed = was then []
                  else [.door d was formed (if new.enable then .enable else .disable)]) ++ rs) t)

/-- In STAGING every command but COMMIT and RESTART, an undefined code and a second LOAD included, ends
ABORTED with OTHER_COMMAND and is not carried out. In APPLYING every command but RESTART, and in ABORTED
every command but ABORT_CLEAR and RESTART, is ignored: its word reaches memory and nothing else changes.
That the discarded staging buffer holds zero bytes and no word is log entry 18. -/
def Obligations.CommandsOutsideIdle : Prop :=
  (∀ (c : Instr) (r : Requester) (d : Word) (s : State), c.wellFormed = true → c.commandWord? = some (r, d) →
      s.isRunning → s.roleOf r.tag = .control → s.engine.state = .staging → s.ring.inRange →
      commandByte d 0 ≠ 0x02 → commandByte d 0 ≠ 0x50 →
        ∃ t, exec c s = .next t ∧ Touches [.mem, .ring, .engine, .port] s t
          ∧ Answered s t r d []
            { s.engine.ended (commandTag d) .aborted .otherCommand (b8 s.engine.load.table.code)
                (BitVec.ofNat 16 s.engine.load.first) with
              state := .aborted, staged := 0, buffer := Vector.replicate 256 0 })
    ∧ (∀ (c : Instr) (r : Requester) (d : Word) (s : State), c.wellFormed = true → c.commandWord? = some (r, d) →
        s.isRunning → s.mem.wf = true → s.roleOf r.tag = .control → commandByte d 0 ≠ 0x50 →
        (s.engine.state = .applying ∨ s.engine.state = .aborted ∧ commandByte d 0 ≠ 0x03) →
          ∃ t, exec c s = .next t ∧ Completed s t r ∧ Stored s t (s.pageBase + 64) ⟨0xFF, d⟩ ∧ Touches [.mem, .port] s t)

/-- ABORT_CLEAR ends DONE in IDLE, which it leaves as it stands, and in ABORTED, which it takes to IDLE;
an undefined code in IDLE ends REFUSED with BAD_CODE. -/
def Obligations.AbortClearAndUndefinedCode : Prop :=
  (∀ (r : Requester) (tag : Byte) (spare : BitVec 48) (s : State), s.isRunning → s.roleOf r.tag = .control →
      s.ring.inRange → s.engine.state = .idle ∨ s.engine.state = .aborted →
        ∃ t, exec (.abortClear r tag spare) s = .next t ∧ Touches [.mem, .ring, .engine, .port] s t
          ∧ Answered s t r (commandWord 0x03 tag spare) []
            { s.engine.ended tag .done .none 0 0 with state := .idle })
    ∧ ∀ (r : Requester) (code tag : Byte) (spare : BitVec 48) (s : State), s.isRunning → s.roleOf r.tag = .control →
        s.ring.inRange → s.engine.state = .idle → codeDefined code = false →
          ∃ t, exec (.undefinedCode r code tag spare) s = .next t ∧ Touches [.mem, .ring, .engine, .port] s t
            ∧ Answered s t r (commandWord code tag spare) [] (s.engine.ended tag .refused .badCode 0 0)

/-- The learning commands in IDLE. LEARN: each camera of the mask that is enabled with its lens monitor on
starts a run over; the command is DONE if some camera took it, else REFUSED with the reason of the lowest
camera of the mask. LEARN_SUSPEND and LEARN_RESUME: each camera of the mask with a run under way becomes
SUSPENDED or RUNNING with its figures kept, and without one the command is REFUSED with NOT_LEARNING. An
empty mask is BAD_ARG. -/
def Obligations.LearningCommands : Prop :=
  (∀ (r : Requester) (tag : Byte) (mask : BitVec 16) (spare : BitVec 32) (s : State), s.isRunning →
      s.roleOf r.tag = .control → s.engine.state = .idle → s.ring.inRange →
        let d := commandWord 0x10 tag (maskArg mask spare)
        let takes := fun c : Camera =>
          mask.getLsbD c.val = true ∧ s.cameras[c].enable = true ∧ s.cameras[c].lensOn = true
        ∃ t, exec (.learn r tag mask spare) s = .next t ∧ Touches [.lens, .mem, .ring, .engine, .port] s t
          ∧ (∀ c : Camera, (takes c → t.lens[c] = { s.lens[c] with
                  learn := .running, sums := Vector.replicate 48 0, learned := 0, candidates := 0 })
              ∧ (¬takes c → t.lens[c] = s.lens[c]))
          ∧ ((∃ c, takes c) → Answered s t r d [] (s.engine.ended tag .done .none 0 0))
          ∧ (∀ c : Camera, (∀ c', ¬takes c') → mask.getLsbD c.val = true →
              (∀ c' : Camera, mask.getLsbD c'.val = true → c ≤ c') →
                Answered s t r d []
                  (s.engine.ended tag .refused (if s.cameras[c].enable then .lensOff else .cameraOff) 0 0))
          ∧ (mask = 0 → Answered s t r d [] (s.engine.ended tag .refused .badArg 0 0)))
    ∧ (∀ (resume : Bool) (r : Requester) (tag : Byte) (mask : BitVec 16) (spare : BitVec 32) (s : State), s.isRunning →
        s.roleOf r.tag = .control → s.engine.state = .idle → s.ring.inRange →
          let d := commandWord (if resume then 0x12 else 0x11) tag (maskArg mask spare)
          let takes := fun c : Camera => mask.getLsbD c.val = true ∧ s.lens[c].learn ≠ .idle
          ∃ t, exec (if resume then .learnResume r tag mask spare else .learnSuspend r tag mask spare) s = .next t
            ∧ Touches [.lens, .mem, .ring, .engine, .port] s t
            ∧ (∀ c : Camera,
                (takes c → t.lens[c] = { s.lens[c] with learn := if resume then .running else .suspended })
                  ∧ (¬takes c → t.lens[c] = s.lens[c]))
            ∧ ((∃ c, takes c) → Answered s t r d [] (s.engine.ended tag .done .none 0 0))
            ∧ ((∀ c, ¬takes c) → mask ≠ 0 → Answered s t r d [] (s.engine.ended tag .refused .notLearning 0 0))
            ∧ (mask = 0 → Answered s t r d [] (s.engine.ended tag .refused .badArg 0 0)))

/-- SNAPSHOT in IDLE: 16 CAMERA_STATUS, 4 SPOT_LIST and one HOLD_LIST record for each present hold are
handed to the Report Writer in this order, and the index of the result is the number it wrote: as many as
the ring has free places for, none when it is unconfigured. The table byte 0 beside that index is log entry
21. And what the records carry: a CAMERA_STATUS the fields of R184 with the ring members in ring order, a
SPOT_LIST its entries in list order with the coarse remaining linger and age of R185. -/
def Obligations.SnapshotReportsEveryBlock : Prop :=
  (∀ (r : Requester) (tag : Byte) (spare : BitVec 48) (s : State), s.isRunning → s.roleOf r.tag = .control →
    s.engine.state = .idle → s.ring.inRange →
      let places := if s.ring.configured
        then s.ring.capacity - 1 - (s.ring.producer + s.ring.capacity - s.ring.consumer) % s.ring.capacity else 0
      ∃ t, exec (.snapshot r tag spare) s = .next t ∧ Touches [.mem, .ring, .engine, .port] s t
        ∧ Answered s t r (commandWord 0x40 tag spare)
          ((List.finRange 16).map (fun c => .cameraStatus c (s.cameraStatus c))
            ++ (List.finRange 4).map (fun i => .spotList i (s.spotPlaces i))
            ++ (List.finRange 16).filterMap (fun h => (s.holds.table.get h).map (.holdList h)))
          (s.engine.ended tag .done .none 0 (BitVec.ofNat 16 (min places (20 + s.holdCount)))))
    ∧ (∀ (s : State) (c : Camera),
        let x := s.cameraStatus c
        let g := s.rings[c]
        let l := s.lens[c]
        x.enable = s.cameras[c].enable ∧ x.cadence = s.cadence[c].state ∧ x.frozen = s.cadence[c].frozen
          ∧ (x.starved = true ↔ s.cameras[c].enable = true ∧ g.filling = none)
          ∧ x.lens = l.state ∧ x.learn = l.learn ∧ x.flags = l.flags ∧ x.lastMean = l.lastMean ∧ x.lastDark = l.lastDark
          ∧ x.members = g.ready.map (fun i => (i, MemberState.ready)) ++ (g.filling.toList.map fun i => (i, .filling))
              ++ g.empty.map (fun i => (i, .empty))
          ∧ x.accepted = g.accepted ∧ x.torn = g.torn ∧ x.starvedDrop = g.starvedDrop)
    ∧ ∀ (s : State) (i : Screen), s.spots[i].inOrder →
      (s.spotPlaces i).length = s.spots[i].entries.length
        ∧ ∀ (n : Nat) (e : SpotEntry), s.spots[i].entries[n]? = some e →
          let counted := match s.spots[i].counting with
            | none => 0
            | some t0 => elapsed t0 s.time
          let left := if n = 0 then e.linger - counted else e.linger
          (s.spotPlaces i)[n]? = some ⟨e.origin, e.level, e.layout, e.active,
            (left + 499999) / 500000, min (elapsed e.activated s.time / 1000000) 31⟩

/-- RESTART, in every engine state: the tables, the time base, the ring configuration and the hold lock
stay; the engine is IDLE with its staging discarded; frames in progress, scan contexts, spotlight lists,
guard episodes and runs are gone; enabled cameras and doors start over; no hold is left COLLECTING. Every
slot that is not HELD is freed, and the enabled cameras, in ascending number, take their k slots again from
the lowest on (R25). A baseline's verdict starts over (R70). A COMMIT that was APPLYING ends OVERTIME with
reason RESTARTED (R174). That the discarded staging buffer holds zero bytes and no word is log entry 18,
and the order of the blocks' reports is the model's choice (log entry 12). -/
def Obligations.RestartStartsTheBlocksOver : Prop :=
  ∀ (r : Requester) (tag : Byte) (spare : BitVec 48) (s : State), s.isRunning → s.roleOf r.tag = .control →
    s.ring.inRange → s.holds.consistent →
      let short := fun x : Hold =>
        if x.state = .collecting then { x with state := HoldState.complete, short := true, cause := some .restart } else x
      let size := fun c : Camera => if s.cameras[c].enable then s.cameras[c].k else 0
      let free := (List.range s.pool.slots.length).filter fun i =>
        decide (∀ h : HoldId, (s.slot i).disp ≠ .held h)
      let before := fun c : Camera => (((List.finRange 16).filter (· < c)).map size).sum
      let rs : List Report :=
        (if s.engine.state = .applying then
            [.commandDone 0x02 s.engine.lastTag .overtime .restarted (b8 s.engine.load.table.code)
              (BitVec.ofNat 16 s.engine.load.first)] else [])
          ++ (List.finRange 16).flatMap (fun c : Camera =>
              if s.cameras[c].enable then
                (if s.cadence[c].state = .locked ∨ s.cadence[c].state = .stale then
                    [.cadence c s.cadence[c].state .acquiring .restart none] else [])
                  ++ (if s.cadence[c].frozen then [.frozen c false .restart none] else [])
              else [])
          ++ (List.finRange 16).flatMap (fun c : Camera =>
              (if s.lens[c].learn = .idle then [] else
                  [.learnEnd c (.discarded .restart) s.lens[c].learned s.lens[c].candidates none])
                ++ (if s.lens[c].baseline ≠ none ∧ (s.lens[c].state = .part ∨ s.lens[c].state = .obscured) then
                    [.lens c s.lens[c].state .clean .restart none] else []))
          ++ (List.finRange 12).flatMap (fun d : Door =>
              if s.doors[d].enable = true ∧ s.doorUnit.states.get d ≠ .unknown then
                [.door d (s.doorUnit.states.get d) .unknown .restart] else [])
          ++ s.holds.order.filterMap (fun h => (s.holds.table.get h).bind fun x =>
              if x.state = .collecting then some (.holdComplete h (short x)) else none)
      ∃ t, exec (.restart r tag spare) s = .next t
        ∧ Answered s t r (commandWord 0x50 tag spare) rs
          { s.engine.ended tag .done .none 0 0 with
            state := .idle, staged := 0, buffer := Vector.replicate 256 0, pending := 0 }
        ∧ Touches [.mem, .ring, .engine, .port, .pool, .rings, .cadence, .lens, .contexts, .doorUnit, .spots, .holds,
            .episodes] s t
        ∧ t.ring.base = s.ring.base ∧ t.ring.capacity = s.ring.capacity ∧ t.ring.consumer = s.ring.consumer
        ∧ (∀ c : Camera, s.cameras[c].enable = true →
            t.cadence[c] = { s.cadence[c] with
              state := .acquiring, good := 0, slip := 0, previous := none, staleRef := s.time, sigAcc := none,
              prevSig := none, run := 0, frozen := false })
        ∧ (∀ c : Camera, t.lens[c].acc = none ∧ t.lens[c].eligible = 0 ∧ t.lens[c].learn = .idle
            ∧ t.lens[c].baseline = s.lens[c].baseline ∧ t.lens[c].usableCount = s.lens[c].usableCount
            ∧ (s.lens[c].learn ≠ .idle → t.lens[c].noRun)
            ∧ (s.lens[c].baseline ≠ none → t.lens[c].state = .clean ∧ t.lens[c].verdictFresh)
            ∧ (s.lens[c].baseline = none → t.lens[c].state = s.lens[c].state ∧ t.lens[c].scores = s.lens[c].scores
                ∧ t.lens[c].flags = s.lens[c].flags ∧ t.lens[c].history = s.lens[c].history))
        ∧ (∀ c : Camera, t.rings[c].phase = .waiting ∧ t.rings[c].tornMark = false ∧ t.rings[c].writes = 0
            ∧ t.rings[c].frameCount = 0 ∧ t.rings[c].ready = [] ∧ t.rings[c].accepted = s.rings[c].accepted
            ∧ t.rings[c].torn = s.rings[c].torn ∧ t.rings[c].starvedDrop = s.rings[c].starvedDrop)
        ∧ (s.poolLaws → ∀ c : Camera,
            t.rings[c].filling.toList ++ t.rings[c].empty = (free.drop (before c)).take (size c)
              ∧ (s.cameras[c].enable = true → t.rings[c].filling.isSome = true)
              ∧ (∀ i, t.rings[c].filling = some i → t.slot i = ⟨.ring c .filling, 0, none⟩)
              ∧ ∀ i ∈ t.rings[c].empty, t.slot i = ⟨.ring c .empty, 0, none⟩)
        ∧ (s.poolLaws → ∀ i ∈ free.drop ((List.finRange 16).map size).sum, t.slot i = ⟨.free, 0, none⟩)
        ∧ (∀ i, i < t.pool.slots.length → (t.slot i).pins = 0)
        ∧ (∀ i h, (s.slot i).disp = .held h → t.slot i = { s.slot i with pins := 0 })
        ∧ (∀ i : Screen, t.contexts[i] = none ∧ t.spots[i].entries = [] ∧ t.spots[i].counting = none)
        ∧ (∀ d : Door, t.doorUnit.opens.get d = .unknown ∧ t.doorUnit.alerts.get d = .unknown
            ∧ (s.doors[d].enable = true → t.doorUnit.states.get d = .unknown)
            ∧ (s.doors[d].enable = false → t.doorUnit.states.get d = s.doorUnit.states.get d))
        ∧ t.doorUnit.reverse = .unknown ∧ t.doorUnit.lastSample = s.time
        ∧ t.holds.lock = s.holds.lock ∧ t.holds.order = s.holds.order
        ∧ (∀ h x, s.holds.table.get h = some x → t.holds.table.get h = some (short x))
        ∧ ∀ k, t.episode k = none

/-- The APPLYING wait ends OVERTIME when 250,000 microseconds have passed, and not before (that the
command then does nothing is log entry 3). -/
def Obligations.ApplyingEndsOvertime : Prop :=
  ∀ s : State, s.isRunning →
    let e := s.engine
    (e.state = .applying → 250000 ≤ elapsed e.waitStart s.time →
        ∃ t, exec .applyingOvertime s = .next t ∧ Touches [.engine, .mem, .ring] s t
          ∧ t.engine = { e with state := .idle, pending := 0, result := .overtime, reason := .none,
                                table := b8 e.load.table.code, index := BitVec.ofNat 16 e.load.first }
          ∧ Reported s s.mem [.commandDone 0x02 e.lastTag .overtime .none (b8 e.load.table.code)
              (BitVec.ofNat 16 e.load.first)] t)
      ∧ (e.state ≠ .applying ∨ elapsed e.waitStart s.time < 250000 → exec .applyingOvertime s = .next s)

/-- No command but POWER_ON_RESET changes a table, unless it is a COMMIT taken in STAGING by a CONTROL tag
with all its words staged and its whole staging buffer valid; and then only the table that was loaded. And
every such COMMIT is taken: the engine leaves STAGING, and the loaded table holds every staged record. And
which bytes and bits of a staged record give which field (11.6, R199), byte n of record r being byte n mod 8
of staging word 8r + n div 8, and a field of several bytes little-endian. -/
def Obligations.TablesChangeOnlyByValidCommit : Prop :=
  (∀ (c : Instr) (s t : State), c.ownRow s → exec c s = .next t → (∀ straps, c ≠ .powerOnReset straps) →
    ¬(t.setup = s.setup ∧ t.cameras = s.cameras ∧ t.screens = s.screens ∧ t.layouts = s.layouts ∧ t.panes = s.panes
        ∧ t.doors = s.doors) →
      (∃ r tag spare, c = .commit r tag spare ∧ s.roleOf r.tag = .control) ∧ s.engine.state = .staging
        ∧ s.engine.load.count * 8 ≤ s.engine.staged ∧ s.validate = none
        ∧ (s.engine.load.table ≠ .setup → t.setup = s.setup)
        ∧ (s.engine.load.table ≠ .cameras → t.cameras = s.cameras)
        ∧ (s.engine.load.table ≠ .screens → t.screens = s.screens)
        ∧ (s.engine.load.table ≠ .layouts → t.layouts = s.layouts)
        ∧ (s.engine.load.table ≠ .panes → t.panes = s.panes)
        ∧ (s.engine.load.table ≠ .doors → t.doors = s.doors))
    ∧ (∀ (r : Requester) (tag : Byte) (spare : BitVec 48) (s : State), s.isRunning → s.roleOf r.tag = .control →
      s.engine.inRange → s.engine.state = .staging → s.engine.load.count * 8 ≤ s.engine.staged → s.validate = none →
        let bytes := fun i => s.engine.stagedBytes i
        ∃ t, exec (.commit r tag spare) s = .next t ∧ Completed s t r ∧ t.engine.lastTag = tag
          ∧ t.engine.state ≠ .staging
          ∧ (s.engine.load.table = .setup → t.setup = setupOf (bytes 0))
          ∧ (∀ c : Camera, s.engine.stages .cameras c.val → t.cameras[c] = cameraOf (bytes c.val))
          ∧ (∀ i : Screen, s.engine.stages .screens i.val → t.screens[i] = screenOf (bytes i.val))
          ∧ (∀ l : Fin 32, s.engine.stages .layouts l.val → t.layouts[l] = layoutOf (bytes l.val))
          ∧ (∀ p : Fin 224, s.engine.stages .panes p.val → t.panes[p] = paneOf (bytes p.val))
          ∧ ∀ d : Door, s.engine.stages .doors d.val → t.doors[d] = doorOf (bytes d.val))
    ∧ ∀ (b : Vector Word 256) (r : Fin 32),
      let f := recordBytes b r.val
      let byte := fun n : Nat => (byteOf (b.get (Fin.ofNat 256 (8 * r.val + n / 8))) (n % 8)).toNat
      let two := fun n : Nat => byte n + 256 * byte (n + 1)
      let four := fun n : Nat => two n + 65536 * two (n + 2)
      let isSet := fun n j : Nat => byte n / 2 ^ j % 2 = 1
      let setup := setupOf f
      let camera := cameraOf f
      let screen := screenOf f
      let layout := layoutOf f
      let pane := paneOf f
      let door := doorOf f
      (setup.slotBase = four 0 ∧ setup.slotUnits = byte 4 ∧ setup.slotCount = byte 5 ∧ setup.holdReserve = byte 6
          ∧ setup.ringBase = four 8 ∧ setup.ringCapacity = two 12 ∧ setup.debounce = two 14
          ∧ (∀ t : Tag, roleIn setup.roleMap t =
              ([.general, .capture, .display, .control][byte (16 + t.toNat / 4) / 4 ^ (t.toNat % 4) % 4]?).getD .general)
          ∧ setup.roleMap.toNat = four 16
          ∧ setup.darkGate = byte 20 ∧ setup.glareGate = byte 21 ∧ setup.onLevel = two 22 ∧ setup.offLevel = two 24
          ∧ setup.partFrac = byte 26 ∧ setup.obscFrac = byte 27 ∧ setup.reverse.level = byte 28
          ∧ (∀ i : Screen, setup.reverse.mask.getLsbD i.val = true ↔ isSet 29 i.val)
          ∧ setup.reverse.layout = byte 30 ∧ setup.reverse.lingerMs = two 32)
        ∧ ((camera.enable = true ↔ isSet 0 0) ∧ (camera.lensOn = true ↔ isSet 0 1) ∧ camera.k = byte 1
            ∧ camera.w = two 2 ∧ camera.h = two 4 ∧ camera.period = four 6
            ∧ camera.partner = byte 10 ∧ camera.judge = byte 11 ∧ camera.noise = byte 12
            ∧ ∀ z : Zone, camera.excl.getLsbD z.val = true ↔ isSet (14 + z.val / 8) (z.val % 8))
        ∧ ((screen.enable = true ↔ isSet 0 0) ∧ screen.width = two 2 ∧ screen.height = two 4 ∧ screen.stride = four 6
            ∧ screen.base = byte 10)
        ∧ (layout.head = byte 0 ∧ layout.background.y.toNat = byte 1 ∧ layout.background.cb.toNat = byte 2
            ∧ layout.background.cr.toNat = byte 3)
        ∧ (pane.x = two 0 ∧ pane.y = two 2 ∧ pane.w = two 4 ∧ pane.h = two 6 ∧ pane.camera = byte 8 ∧ pane.d = byte 9
            ∧ pane.cropX = two 10 ∧ pane.cropY = two 12 ∧ (pane.border = true ↔ isSet 14 0)
            ∧ (pane.lensBand = true ↔ isSet 14 1) ∧ (pane.subst = true ↔ isSet 14 2) ∧ pane.next = byte 15)
        ∧ ((door.enable = true ↔ isSet 0 0) ∧ (door.holdFlag = true ↔ isSet 0 1) ∧ door.post = byte 0 / 4 % 4
            ∧ door.camera = byte 1
            ∧ door.openReq.level = byte 2 ∧ (∀ i : Screen, door.openReq.mask.getLsbD i.val = true ↔ isSet 3 i.val)
            ∧ door.openReq.layout = byte 4 ∧ door.openReq.lingerMs = two 6
            ∧ door.alertReq.level = byte 8 ∧ (∀ i : Screen, door.alertReq.mask.getLsbD i.val = true ↔ isSet 9 i.val)
            ∧ door.alertReq.layout = byte 10 ∧ door.alertReq.lingerMs = two 12)

/-! ### Spotlights and doors -/

/-- A raise in one list (R122): an entry of the origin is refreshed in place, or moved to its new level's
position; a new entry goes in at its position while there is room; a full list evicts its last entry when
the new one comes before it, and refuses the raise otherwise. The position is that of R121's order: level
descending, then the order of activation, and at one activation time the lower origin rank first. All other entries stay as they are in their order, but for a governing
entry that was counting its linger and governs no more, which keeps the remainder (R124). A change of the
governing entry is reported once, behind an eviction (R125). The order number that a new entry takes from
the count of entries created is log entry 13. -/
def Obligations.RaiseInAList : Prop :=
  ∀ (i : Screen) (now : Time) (o : Origin) (level layout : Nat) (l : SpotList), l.inOrder →
    let x := raiseIn i now o level layout l
    let fresh : SpotEntry := ⟨o, level, layout, true, 0, now, l.created⟩
    let others := fun es : List SpotEntry => es.filter fun e => decide (e.origin ≠ o)
    let kept := banked now l (x.1.governing.map SpotEntry.origin)
    let governing := governingChange i l.entries x.1.entries
    (∀ e, l.entryOf o = some e → x.2.2 = .refreshed ∧ x.1.created = l.created
        ∧ (x.1.entries.map SpotEntry.origin).Perm (l.entries.map SpotEntry.origin)
        ∧ (level = e.level → x.1.entries.map SpotEntry.origin = l.entries.map SpotEntry.origin)
        ∧ (level ≠ e.level → atItsPlace o x.1.entries)
        ∧ others x.1.entries = (others l.entries).map kept
        ∧ (∃ e', x.1.entryOf o = some e' ∧ e'.active = true ∧ e'.level = level ∧ e'.layout = layout
            ∧ e'.activated = e.activated ∧ e'.order = e.order
            ∧ e'.linger = (if l.governing.map SpotEntry.origin = some o then e.linger - l.counted now else e.linger))
        ∧ x.1.counting = countingAfter now l none x.1.entries ∧ x.2.1 = governing)
      ∧ (l.entryOf o = none → l.entries.length < 8 → x.2.2 = .inserted ∧ x.1.created = l.created + 1
          ∧ x.1.entryOf o = some fresh ∧ x.1.entries.length = l.entries.length + 1
          ∧ atItsPlace o x.1.entries ∧ others x.1.entries = l.entries.map kept
          ∧ x.1.counting = countingAfter now l none x.1.entries ∧ x.2.1 = governing)
      ∧ (∀ last, l.entryOf o = none → l.entries.length = 8 → l.entries.getLast? = some last →
          (comesBefore fresh last → x.2.2 = .inserted ∧ x.1.created = l.created + 1
              ∧ x.1.entryOf o = some fresh
              ∧ x.1.entryOf last.origin = none ∧ x.1.entries.length = 8
              ∧ atItsPlace o x.1.entries ∧ others x.1.entries = l.entries.dropLast.map kept
              ∧ x.1.counting = countingAfter now l none x.1.entries
              ∧ x.2.1 = .spotEvicted i last.origin last.level o level :: governing)
            ∧ (¬comesBefore fresh last →
              x = (l, [.spotRefused i o level last.level], .refused)))

/-- SPOT_SET and SPOT_CLEAR in IDLE: an argument out of range is BAD_ARG; else SPOT_SET raises MANUAL in
the list of its screen, REFUSED with LIST_FULL when the raise is refused, and SPOT_CLEAR ends MANUAL there
with linger 0: its entry is removed, every other entry stays as it is, and the linger of an entry that
comes to govern starts counting (R124). Other screens' lists do not change. -/
def Obligations.ManualSpotlights : Prop :=
  (∀ (r : Requester) (tag screen layout level : Byte) (spare : BitVec 24) (s : State), s.isRunning →
      s.roleOf r.tag = .control → s.engine.state = .idle → s.ring.inRange →
        let d := commandWord 0x20 tag (threeArgs screen layout level spare)
        ∃ t, exec (.spotSet r tag screen layout level spare) s = .next t
          ∧ (3 < screen.toNat ∨ 31 < layout.toNat ∨ level.toNat = 0 ∨ 7 < level.toNat →
              Answered s t r d [] (s.engine.ended tag .refused .badArg 0 0) ∧ Touches [.mem, .ring, .engine, .port] s t)
          ∧ ∀ i : Screen, i.val = screen.toNat → layout.toNat ≤ 31 → 1 ≤ level.toNat → level.toNat ≤ 7 →
              let x := raiseIn i s.time .manual level.toNat layout.toNat s.spots[i]
              t.spots[i] = x.1 ∧ (∀ j : Screen, j ≠ i → t.spots[j] = s.spots[j])
                ∧ Touches [.spots, .mem, .ring, .engine, .port] s t
                ∧ Answered s t r d x.2.1 (if x.2.2 = .refused then s.engine.ended tag .refused .listFull 0 0
                    else s.engine.ended tag .done .none 0 0))
    ∧ ∀ (r : Requester) (tag screen : Byte) (spare : BitVec 40) (s : State), s.isRunning →
      s.roleOf r.tag = .control → s.engine.state = .idle → s.ring.inRange →
        let d := commandWord 0x21 tag (oneArg screen spare)
        ∃ t, exec (.spotClear r tag screen spare) s = .next t
          ∧ (3 < screen.toNat →
              Answered s t r d [] (s.engine.ended tag .refused .badArg 0 0) ∧ Touches [.mem, .ring, .engine, .port] s t)
          ∧ ∀ i : Screen, i.val = screen.toNat →
              let rest := s.spots[i].entries.filter fun e => decide (e.origin ≠ .manual)
              t.spots[i].entries.map SpotEntry.origin
                  = (s.spots[i].entries.map SpotEntry.origin).filter (fun o => decide (o ≠ .manual))
                ∧ (∀ j : Screen, j ≠ i → t.spots[j] = s.spots[j])
                ∧ Touches [.spots, .mem, .ring, .engine, .port] s t
                ∧ Answered s t r d (endIn i s.time .manual 0 s.spots[i]).2 (s.engine.ended tag .done .none 0 0)
                ∧ (s.spots[i].inOrder →
                    t.spots[i] = ⟨rest, countingAfter s.time s.spots[i] (some .manual) rest, s.spots[i].created⟩
                      ∧ Answered s t r d (governingChange i s.spots[i].entries rest)
                        (s.engine.ended tag .done .none 0 0))

/-- A linger expires when the time counted on the inactive governing entry reaches its remaining linger:
that entry is removed, the next one governs, and a GOVERNING report says so. Before that nothing happens
(log entry 3). And an end of an origin in one list (R123): without an entry nothing changes; a linger of 0
removes the entry; any other makes it inactive where it stands, with its remaining linger set to that many
milliseconds. Counting goes on for an entry that governs on, and starts now for one that comes to govern
inactive or becomes inactive while it governs (R124). That it starts now as well for a governing entry that
is inactive already and is ended anew is the model's choice (log entry 14). -/
def Obligations.LingerExpiryRemovesTheGoverningEntry : Prop :=
  (∀ (i : Screen) (s : State), s.isRunning →
    (∀ t0 e rest, s.spots[i].counting = some t0 → s.spots[i].entries = e :: rest → e.active = false →
        e.linger ≤ elapsed t0 s.time → (∀ e' ∈ rest, e'.origin ≠ e.origin) →
          ∃ t, exec (.lingerExpiry i) s = .next t ∧ Touches [.spots, .mem, .ring] s t
            ∧ t.spots[i].entries = rest ∧ (∀ j : Screen, j ≠ i → t.spots[j] = s.spots[j])
            ∧ t.spots[i].counting = (match rest with
              | [] => none
              | e' :: _ => if e'.active then none else some s.time)
            ∧ Reported s s.mem
              [.spotGoverning i (rest.head?.map fun e' => (e'.origin, e'.layout)) (some e.origin)] t)
      ∧ ((∀ t0 e, s.spots[i].counting = some t0 → s.spots[i].entries.head? = some e → e.active = false →
          elapsed t0 s.time < e.linger) → exec (.lingerExpiry i) s = .next s))
    ∧ ∀ (i : Screen) (now : Time) (o : Origin) (lingerMs : Nat) (l : SpotList), l.inOrder →
      let x := endIn i now o lingerMs l
      (l.entryOf o = none → x = (l, []))
        ∧ ∀ e, l.entryOf o = some e →
          (lingerMs = 0 → x.1.entries = l.entries.filter fun y => decide (y.origin ≠ o))
            ∧ (lingerMs ≠ 0 → x.1.entries = l.entries.map fun y =>
                if y.origin = o then { y with active := false, linger := lingerMs * 1000 } else y)
            ∧ x.1.counting = countingAfter now l (some o) x.1.entries ∧ x.1.created = l.created
            ∧ x.2 = governingChange i l.entries x.1.entries

/-- A sample instant that has come: the next is one period later, every debouncer takes its sample (a level
is accepted at its third equal sample in a row), and every door state is formed again by R116's table, each
change with its DOOR report of cause LINES. Then the spotlight notices of the sources whose activity changed
go out, in ascending door number with the open source first and REVERSE last, and then a hold trigger for
each alert line that rose on an enabled door with its hold flag set (R114). A raise notice reaches each
screen of the mask, an end notice every screen (R120). A sample instant that has not come leaves the part as
it was but for the levels on the lines (log entries 3 and 5). A trigger's take wraps a camera field above 15
(log entry 25); a DOOR record never holds one. Two orders of the reports are the model's choice: those of
one notice go by ascending screen (log entry 16), and the SPOT reports of all notices of one sample instant
before the HOLD reports of its triggers, an order that R202 leaves open (log entry 12). -/
def Obligations.SampleInstantDebouncesTheLines : Prop :=
  (∀ (opens alerts : BitVec 12) (rev : Bool) (s : State), s.isRunning →
    let accept := fun (d : Debouncer) (x : Bool) =>
      if d.accepted = some x then (⟨some x, none, 0⟩ : Debouncer)
      else if d.candidate = some x then
        if d.run + 1 = 3 then ⟨some x, none, 0⟩ else ⟨d.accepted, some x, d.run + 1⟩
      else ⟨d.accepted, some x, 1⟩
    (s.setup.debounce ≤ elapsed s.doorUnit.lastSample s.time →
        ∃ t, exec (.sampleInstant opens alerts rev) s = .next t
          ∧ Touches [.lines, .doorUnit, .spots, .holds, .pool, .rings, .mem, .ring] s t
          ∧ t.lines = ⟨opens, alerts, rev⟩
          ∧ t.doorUnit.lastSample = s.doorUnit.lastSample + BitVec.ofNat 32 s.setup.debounce
          ∧ t.doorUnit.reverse = accept s.doorUnit.reverse rev
          ∧ (∀ d : Door, t.doorUnit.opens.get d = accept (s.doorUnit.opens.get d) (opens.getLsbD d.val)
            ∧ t.doorUnit.alerts.get d = accept (s.doorUnit.alerts.get d) (alerts.getLsbD d.val)
            ∧ t.doorUnit.states.get d =
                (let alert := (t.doorUnit.alerts.get d).accepted
                let opn := (t.doorUnit.opens.get d).accepted
                if s.doors[d].enable = false then .closed
                else if alert = none ∨ opn = none then .unknown
                else if alert = some true then .alert
                else if opn = some true then .opened
                else .closed))
          ∧ (let on := fun x : Debouncer => decide (x.accepted = some true)
            let notice := fun (u : State) (o : Origin) (q : SpotRequest) (was is : Bool) =>
              if was = false ∧ is = true then u.raiseOrigin o q
              else if was = true ∧ is = false then u.endOrigin o q.lingerMs
              else u
            let formed := { s with lines := t.lines, doorUnit := t.doorUnit }.emitAll
              ((List.finRange 12).filterMap fun d : Door =>
                if s.doorUnit.states.get d = t.doorUnit.states.get d then none
                else some (.door d (s.doorUnit.states.get d) (t.doorUnit.states.get d) .lines))
            let doors := (List.finRange 12).foldl (fun (u : State) (d : Door) =>
                if s.doors[d].enable then
                  notice (notice u (.doorOpen d) s.doors[d].openReq (on (s.doorUnit.opens.get d)) (on (t.doorUnit.opens.get d)))
                    (.doorAlert d) s.doors[d].alertReq (on (s.doorUnit.alerts.get d)) (on (t.doorUnit.alerts.get d))
                else u) formed
            let noticed := notice doors .reverse s.setup.reverse (on s.doorUnit.reverse) (on t.doorUnit.reverse)
            t = (List.finRange 12).foldl (fun (u : State) (d : Door) =>
                if s.doors[d].enable = true ∧ s.doors[d].holdFlag = true ∧ on (t.doorUnit.alerts.get d) = true
                    ∧ on (s.doorUnit.alerts.get d) = false then
                  (u.take (.doorAlert d) (Fin.ofNat 16 s.doors[d].camera) s.doors[d].post).1
                else u) noticed))
      ∧ (elapsed s.doorUnit.lastSample s.time < s.setup.debounce →
          exec (.sampleInstant opens alerts rev) s = .next { s with lines := ⟨opens, alerts, rev⟩ }))
    ∧ ∀ (s : State) (o : Origin) (q : SpotRequest) (lingerMs : Nat),
      let raised := s.raiseOrigin o q
      let ended := s.endOrigin o lingerMs
      Touches [.spots, .mem, .ring] s raised ∧ Touches [.spots, .mem, .ring] s ended
        ∧ (∀ i : Screen, raised.spots[i] =
            if q.mask.getLsbD i.val then (raiseIn i s.time o q.level q.layout s.spots[i]).1 else s.spots[i])
        ∧ (∀ i : Screen, ended.spots[i] = (endIn i s.time o lingerMs s.spots[i]).1)
        ∧ Reported s s.mem ((List.finRange 4).flatMap fun i : Screen =>
            if q.mask.getLsbD i.val then (raiseIn i s.time o q.level q.layout s.spots[i]).2.1 else []) raised
        ∧ Reported s s.mem ((List.finRange 4).flatMap fun i : Screen => (endIn i s.time o lingerMs s.spots[i]).2) ended

/-! ### Evidence holds -/

/-- HOLD_TAKE in IDLE: BAD_ARG out of range; TABLE_FULL, NO_FRAME and NO_SLOT in that order, each with its
REFUSED report; else the newest READY member leaves its ring as the PRE slot of a new hold in the lowest
empty place, and the lowest FREE slot joins the ring; a STARVED camera takes it as its landing target at
once. The table byte 0 beside the hold id is log entry 21. And the same take of any origin, such as a door's
trigger makes (R114 step 4), with the origin in the record and the reports. -/
def Obligations.HoldTakeLiftsTheNewestFrame : Prop :=
  (∀ (r : Requester) (tag camera post : Byte) (spare : BitVec 32) (s : State), s.isRunning →
    s.roleOf r.tag = .control → s.engine.state = .idle → s.ring.inRange →
      let d := commandWord 0x30 tag (twoArgs camera post spare)
      let refusal := fun (c : Camera) (reason : Reason) =>
        ∃ t, exec (.holdTake r tag camera post spare) s = .next t ∧ Touches [.mem, .ring, .engine, .port] s t
          ∧ Answered s t r d [.holdRefused c .manual post.toNat reason] (s.engine.ended tag .refused reason 0 0)
      (15 < camera.toNat ∨ 3 < post.toNat →
          ∃ t, exec (.holdTake r tag camera post spare) s = .next t ∧ Touches [.mem, .ring, .engine, .port] s t
            ∧ Answered s t r d [] (s.engine.ended tag .refused .badArg 0 0))
        ∧ ∀ c : Camera, c.val = camera.toNat → post.toNat ≤ 3 →
          ((∀ h : HoldId, s.holds.table.get h ≠ none) → refusal c .tableFull)
            ∧ (∀ h : HoldId, s.holds.table.get h = none →
                s.cameras[c].enable = false ∨ s.rings[c].ready = [] → refusal c .noFrame)
            ∧ (∀ h : HoldId, s.holds.table.get h = none → s.cameras[c].enable = true → s.rings[c].ready ≠ [] →
                (∀ i, i < s.pool.slots.length → (s.slot i).disp ≠ .free) → refusal c .noSlot)
            ∧ ∀ (h : HoldId) (i j : Nat) (f : FrameStamp), s.poolLaws →
                s.holds.table.get h = none → (∀ h', h' < h → s.holds.table.get h' ≠ none) →
                s.cameras[c].enable = true → s.rings[c].ready.getLast? = some i → (s.slot i).frame = some f →
                j < s.pool.slots.length → (s.slot j).disp = .free → (∀ k, k < j → (s.slot k).disp ≠ .free) →
                (s.rings[c].filling = none → s.rings[c].empty = []) →
                  let x : Hold :=
                    { state := if post.toNat = 0 then .complete else .collecting
                      origin := .manual, camera := c, event := s.time, post := post.toNat
                      slots := [⟨i, f.number, .pre, some f.captured⟩], short := false
                      staleSource := decide (s.cadence[c].state = .stale)
                      cause := if post.toNat = 0 then some .atTake else none }
                  ∃ t, exec (.holdTake r tag camera post spare) s = .next t
                    ∧ Touches [.pool, .rings, .holds, .mem, .ring, .engine, .port] s t
                    ∧ t.holds = { s.holds with table := upd s.holds.table h (some x), order := s.holds.order ++ [h] }
                    ∧ t.slot i = { s.slot i with disp := .held h }
                    ∧ t.rings[c] = { s.rings[c] with
                        ready := s.rings[c].ready.dropLast
                        filling := if s.rings[c].filling = none then some j else s.rings[c].filling
                        empty := if s.rings[c].filling = none then [] else s.rings[c].empty ++ [j] }
                    ∧ t.slot j = ⟨.ring c (if s.rings[c].filling = none then .filling else .empty), 0, none⟩
                    ∧ (∀ k, k ≠ i → k ≠ j → t.slot k = s.slot k)
                    ∧ (∀ c' : Camera, c' ≠ c → t.rings[c'] = s.rings[c'])
                    ∧ Answered s t r d
                      ((if s.rings[c].filling = none then [.starved c false] else [])
                        ++ .holdTaken h x :: (if post.toNat = 0 then [.holdComplete h x] else []))
                      (s.engine.ended tag .done .none 0 (BitVec.ofNat 16 h.val)))
    ∧ ∀ (s : State) (o : Origin) (c : Camera) (post : Nat),
      let x := s.take o c post
      let refusal := fun reason : Reason => x = (s.emit (.holdRefused c o post reason), .refused reason)
      ((∀ h : HoldId, s.holds.table.get h ≠ none) → refusal .tableFull)
        ∧ (∀ h : HoldId, s.holds.table.get h = none →
            s.cameras[c].enable = false ∨ s.rings[c].ready = [] → refusal .noFrame)
        ∧ (∀ h : HoldId, s.holds.table.get h = none → s.cameras[c].enable = true → s.rings[c].ready ≠ [] →
            (∀ i, i < s.pool.slots.length → (s.slot i).disp ≠ .free) → refusal .noSlot)
        ∧ ∀ (h : HoldId) (i j : Nat) (f : FrameStamp), s.poolLaws →
            s.holds.table.get h = none → (∀ h', h' < h → s.holds.table.get h' ≠ none) →
            s.cameras[c].enable = true → s.rings[c].ready.getLast? = some i → (s.slot i).frame = some f →
            j < s.pool.slots.length → (s.slot j).disp = .free → (∀ k, k < j → (s.slot k).disp ≠ .free) →
            (s.rings[c].filling = none → s.rings[c].empty = []) →
              let y : Hold :=
                { state := if post = 0 then .complete else .collecting
                  origin := o, camera := c, event := s.time, post := post
                  slots := [⟨i, f.number, .pre, some f.captured⟩], short := false
                  staleSource := decide (s.cadence[c].state = .stale)
                  cause := if post = 0 then some .atTake else none }
              x.2 = .taken h ∧ Touches [.pool, .rings, .holds, .mem, .ring] s x.1
                ∧ x.1.holds = { s.holds with table := upd s.holds.table h (some y), order := s.holds.order ++ [h] }
                ∧ x.1.slot i = { s.slot i with disp := .held h }
                ∧ x.1.rings[c] = { s.rings[c] with
                    ready := s.rings[c].ready.dropLast
                    filling := if s.rings[c].filling = none then some j else s.rings[c].filling
                    empty := if s.rings[c].filling = none then [] else s.rings[c].empty ++ [j] }
                ∧ x.1.slot j = ⟨.ring c (if s.rings[c].filling = none then .filling else .empty), 0, none⟩
                ∧ (∀ k, k ≠ i → k ≠ j → x.1.slot k = s.slot k)
                ∧ (∀ c' : Camera, c' ≠ c → x.1.rings[c'] = s.rings[c'])
                ∧ Reported s s.mem ((if s.rings[c].filling = none then [.starved c false] else [])
                    ++ .holdTaken h y :: (if post = 0 then [.holdComplete h y] else [])) x.1

/-- Step 3 of an acceptance: the frame just accepted joins the oldest COLLECTING hold of its camera as a
POST entry, and completes it when it was the last one asked for; with no free slot it stays in the ring and
the hold completes SHORT; without a COLLECTING hold nothing happens. -/
def Obligations.AcceptedFrameJoinsTheOldestHold : Prop :=
  ∀ (s : State) (c : Camera) (i : Nat),
    (∀ h x, s.collectingHold c = some (h, x) ↔ ∃ older newer, s.holds.order = older ++ h :: newer
        ∧ s.holds.table.get h = some x ∧ x.state = .collecting ∧ x.camera = c
        ∧ ∀ h' ∈ older, ∀ x', s.holds.table.get h' = some x' → ¬(x'.state = .collecting ∧ x'.camera = c))
      ∧ (s.collectingHold c = none → s.offerFrame c i = s)
      ∧ ∀ h x, s.collectingHold c = some (h, x) →
        (s.lowestFree = none →
            let y := { x with state := .complete, short := true, cause := some .noSlot }
            s.offerFrame c i = ({ s with holds := { s.holds with table := upd s.holds.table h (some y) } }.emit
              (.holdComplete h y)))
          ∧ ∀ j f, s.lowestFree = some j → (s.slot i).frame = some f → j ≠ i → i < s.pool.slots.length →
            j < s.pool.slots.length →
              let x' := { x with slots := x.slots ++ [⟨i, f.number, .post, none⟩] }
              let done := (x.slots.countP fun e => decide (e.role = .post)) + 1 = x.post
              let y := if done then { x' with state := .complete, short := false, cause := some .count } else x'
              let t := s.offerFrame c i
              t.holds = { s.holds with table := upd s.holds.table h (some y) }
                ∧ t.slot i = { s.slot i with disp := .held h } ∧ t.slot j = ⟨.ring c .empty, 0, none⟩
                ∧ (∀ k, k ≠ i → k ≠ j → t.slot k = s.slot k)
                ∧ t.rings[c] = { s.rings[c] with
                    ready := s.rings[c].ready.erase i, empty := s.rings[c].empty ++ [j] }
                ∧ Reported s s.mem (if done then [.holdComplete h y] else []) t
                ∧ Touches [.pool, .rings, .holds, .mem, .ring] s t

/-- HOLD_RELEASE in IDLE: BAD_ARG for an id that names no hold, LOCKED while the hold lock is set; else the
place is emptied and every slot of the hold becomes FREE, or RETIRING while pinned. -/
def Obligations.HoldReleaseFreesTheSlots : Prop :=
  ∀ (r : Requester) (tag id : Byte) (spare : BitVec 40) (s : State), s.isRunning → s.roleOf r.tag = .control →
    s.engine.state = .idle → s.ring.inRange →
      let d := commandWord 0x31 tag (oneArg id spare)
      let refusal := fun (reason : Reason) =>
        ∃ t, exec (.holdRelease r tag id spare) s = .next t ∧ Touches [.mem, .ring, .engine, .port] s t
          ∧ Answered s t r d [] (s.engine.ended tag .refused reason 0 0)
      ((∀ h : HoldId, h.val = id.toNat → s.holds.table.get h = none) → refusal .badArg)
        ∧ ∀ (h : HoldId) (x : Hold), h.val = id.toNat → s.holds.table.get h = some x →
          (s.holds.lock = true → refusal .locked)
            ∧ (s.holds.lock = false →
              ∃ t, exec (.holdRelease r tag id spare) s = .next t
                ∧ Touches [.pool, .holds, .mem, .ring, .engine, .port] s t
                ∧ t.holds.table.get h = none ∧ (∀ h', h' ≠ h → t.holds.table.get h' = s.holds.table.get h')
                ∧ t.holds.order = s.holds.order.filter (fun h' => decide (h' ≠ h)) ∧ t.holds.lock = false
                ∧ t.pool.slots.length = s.pool.slots.length
                ∧ (∀ i, (s.slot i).disp = .held h → (s.slot i).pins = 0 → t.slot i = ⟨.free, 0, none⟩)
                ∧ (∀ i, (s.slot i).disp = .held h → (s.slot i).pins ≠ 0 →
                    t.slot i = ⟨.retiring, (s.slot i).pins, none⟩)
                ∧ (∀ i, (s.slot i).disp ≠ .held h → t.slot i = s.slot i)
                ∧ Answered s t r d
                  [.holdReleased h x (s.pool.slots.countP fun y => decide (y.disp = .held h ∧ y.pins = 0))
                    (s.pool.slots.countP fun y => decide (y.disp = .held h ∧ y.pins ≠ 0))]
                  (s.engine.ended tag .done .none 0 0))

/-- HOLD_LOCK in IDLE sets the hold lock; while it is set no command but POWER_ON_RESET clears it or
removes a hold. -/
def Obligations.HoldLockKeepsEveryHold : Prop :=
  (∀ (r : Requester) (tag : Byte) (spare : BitVec 48) (s : State), s.isRunning → s.roleOf r.tag = .control →
      s.engine.state = .idle → s.ring.inRange →
        ∃ t, exec (.holdLock r tag spare) s = .next t ∧ Touches [.holds, .mem, .ring, .engine, .port] s t
          ∧ t.holds = { s.holds with lock := true }
          ∧ Answered s t r (commandWord 0x32 tag spare) [] (s.engine.ended tag .done .none 0 0))
    ∧ ∀ (c : Instr) (s t : State), (∀ straps, c ≠ .powerOnReset straps) → s.holds.lock = true → exec c s = .next t →
        t.holds.lock = true ∧ ∀ h : HoldId, s.holds.table.get h ≠ none → t.holds.table.get h ≠ none

/-- A HELD slot is not written by the part, whatever command is taken: while it stays HELD every byte of it
reads as before. -/
def Obligations.HeldSlotsKeepTheirBytes : Prop :=
  ∀ (c : Instr) (s t : State) (i : Nat) (h h' : HoldId) (a : Nat), s.poolLaws → s.regionsApart → s.ring.inRange →
    exec c s = .next t → i < s.pool.slots.length → (s.slot i).disp = .held h → (t.slot i).disp = .held h' →
    s.pool.slotAddr i ≤ a → a < s.pool.slotAddr i + s.pool.slotBytes → t.mem.read a = s.mem.read a

/-! ### Landing and frames -/

/-- A full write of word 0: with a FILLING member it begins a frame there, in every phase, and the torn
mark, the count and both monitors start over, a frame in progress being counted torn; without one the
phase becomes DROPPING and the starved-drop count rises. -/
def Obligations.Word0BeginsAFrame : Prop :=
  ∀ (r : Requester) (c : Camera) (w : WriteData) (s : State), s.isRunning → s.mem.wf = true →
    s.roleOf r.tag = .capture → s.cameras[c].enable = true → 1 < s.cameras[c].w * s.cameras[c].h / 4 →
    w.enables = 0xFF →
      let g := s.rings[c]
      (∀ i, g.filling = some i →
          ∃ t, exec (.landingWrite r c 0 w) s = .next t ∧ Completed s t r
            ∧ Touches [.mem, .rings, .lens, .cadence, .port] s t ∧ Stored s t (s.pool.slotAddr i) w
            ∧ t.rings[c] = { g with
                phase := .inFrame, writes := 1, tornMark := false
                torn := if g.phase = .inFrame then g.torn + 1 else g.torn }
            ∧ t.cadence[c] = { s.cadence[c] with sigAcc := some (BitVec.ofNat 16 (lumaSum w.data)) }
            ∧ t.lens[c] = { s.lens[c] with
                acc := some (FrameAcc.zero.add s.cameras[c] s.cameras[c].noise 0 w.data)
                noiseInUse := s.cameras[c].noise }
            ∧ ∀ c' : Camera, c' ≠ c →
                t.rings[c'] = s.rings[c'] ∧ t.cadence[c'] = s.cadence[c'] ∧ t.lens[c'] = s.lens[c'])
        ∧ (g.filling = none → g.phase ≠ .inFrame →
          ∃ t, exec (.landingWrite r c 0 w) s = .next t ∧ Completed s t r ∧ Touches [.rings, .port] s t
            ∧ t.rings[c] = { g with phase := .dropping, starvedDrop := g.starvedDrop + 1 }
            ∧ ∀ c' : Camera, c' ≠ c → t.rings[c'] = s.rings[c'])

/-- Every other beat before the last word: outside the FRAME phase it is dropped without a trace, also a
partial word 0; in a frame a full write is stored in the FILLING member, counted and handed to both
monitors, and a partial write is dropped, counted, and sets the torn mark. And what a word adds there: the
sum of its four luma bytes to the signature (R36); and to the frame accumulators, which begin at 0 (R44),
in the one zone that its row and column give (R42), the three cored gradients of its neighbouring luma
bytes, its luma and 1 word, and its luma to the frame's total (R45). The widths at which these sums saturate
are the model's choice (log entry 11). -/
def Obligations.BeatsWithinAFrame : Prop :=
  (∀ (r : Requester) (c : Camera) (word : BitVec 21) (w : WriteData) (s : State), s.isRunning → s.mem.wf = true →
    s.roleOf r.tag = .capture → s.cameras[c].enable = true →
      let words := s.cameras[c].w * s.cameras[c].h / 4
      let g := s.rings[c]
      let count := min (g.writes + 1) (words + 1)
      (word.toNat < words → g.phase ≠ .inFrame → word ≠ 0 ∨ w.enables ≠ 0xFF →
          ∃ t, exec (.landingWrite r c word w) s = .next t ∧ Completed s t r ∧ Touches [.port] s t)
        ∧ (∀ i, word.toNat + 1 < words → g.phase = .inFrame → g.filling = some i → word ≠ 0 → w.enables = 0xFF →
            ∃ t, exec (.landingWrite r c word w) s = .next t ∧ Completed s t r
              ∧ Touches [.mem, .rings, .lens, .cadence, .port] s t
              ∧ Stored s t (s.pool.slotAddr i + 8 * word.toNat) w
              ∧ t.rings[c] = { g with writes := count }
              ∧ t.cadence[c] = { s.cadence[c] with
                  sigAcc := s.cadence[c].sigAcc.map fun x => x + BitVec.ofNat 16 (lumaSum w.data) }
              ∧ t.lens[c] = { s.lens[c] with
                  acc := s.lens[c].acc.map fun x => x.add s.cameras[c] s.lens[c].noiseInUse word.toNat w.data }
              ∧ ∀ c' : Camera, c' ≠ c →
                  t.rings[c'] = s.rings[c'] ∧ t.cadence[c'] = s.cadence[c'] ∧ t.lens[c'] = s.lens[c'])
        ∧ (word.toNat + 1 < words → g.phase = .inFrame → w.enables ≠ 0xFF →
            ∃ t, exec (.landingWrite r c word w) s = .next t ∧ Completed s t r ∧ Touches [.rings, .port] s t
              ∧ t.rings[c] = { g with writes := count, tornMark := true }
              ∧ ∀ c' : Camera, c' ≠ c → t.rings[c'] = s.rings[c']))
    ∧ ((∀ z : Zone, FrameAcc.zero.zones.get z = ⟨0, 0, 0⟩) ∧ FrameAcc.zero.total = 0)
    ∧ ∀ (a : FrameAcc) (cam : CameraRec) (tn n : Nat) (w : Word),
      let luma := fun k : Nat => (byteOf w (2 * k)).toNat
      let cored := fun k : Nat => ((luma (k + 1) - luma k) + (luma k - luma (k + 1))) - tn
      let y := n / (cam.w / 4)
      let x := 4 * (n % (cam.w / 4))
      let b := a.add cam tn n w
      lumaSum w = luma 0 + luma 1 + luma 2 + luma 3
        ∧ b.total = min (a.total + lumaSum w) (2 ^ 32 - 1)
        ∧ (cam.w % 4 = 0 → n < cam.w * cam.h / 4 → y * 6 / cam.h * 8 + x * 8 / cam.w < 48)
        ∧ ∀ z : Zone, z.val = y * 6 / cam.h * 8 + x * 8 / cam.w →
          (b.zones.get z).gradient = min ((a.zones.get z).gradient + (cored 0 + cored 1 + cored 2)) (2 ^ 32 - 1)
            ∧ (b.zones.get z).luma = min ((a.zones.get z).luma + lumaSum w) (2 ^ 32 - 1)
            ∧ (b.zones.get z).words = min ((a.zones.get z).words + 1) (2 ^ 24 - 1)
            ∧ ∀ z', z' ≠ z → b.zones.get z' = a.zones.get z'

/-- The last word of a frame that is not whole, or whose last beat is partial: the torn count rises, both
monitors drop what they gathered, the member stays FILLING, and the camera waits for a word 0. It is no
arrival. -/
def Obligations.TornFrameIsDiscarded : Prop :=
  ∀ (r : Requester) (c : Camera) (word : BitVec 21) (w : WriteData) (s : State) (i : Nat), s.isRunning →
    s.mem.wf = true → s.roleOf r.tag = .capture → s.cameras[c].enable = true →
    word.toNat + 1 = s.cameras[c].w * s.cameras[c].h / 4 → word ≠ 0 → s.rings[c].phase = .inFrame →
    s.rings[c].filling = some i →
    w.enables ≠ 0xFF ∨ s.rings[c].tornMark = true ∨ s.rings[c].writes + 1 ≠ s.cameras[c].w * s.cameras[c].h / 4 →
      ∃ t, exec (.landingWrite r c word w) s = .next t ∧ Completed s t r
        ∧ Touches [.mem, .rings, .lens, .cadence, .port] s t
        ∧ (w.enables = 0xFF → Stored s t (s.pool.slotAddr i + 8 * word.toNat) w)
        ∧ (w.enables ≠ 0xFF → t.mem = s.mem)
        ∧ t.rings[c] = { s.rings[c] with
            phase := .waiting, writes := 0, tornMark := false, torn := s.rings[c].torn + 1 }
        ∧ t.cadence[c] = { s.cadence[c] with sigAcc := none } ∧ t.lens[c] = { s.lens[c] with acc := none }
        ∧ ∀ c' : Camera, c' ≠ c →
            t.rings[c'] = s.rings[c'] ∧ t.cadence[c'] = s.cadence[c'] ∧ t.lens[c'] = s.lens[c']

/-- The last word of a whole frame: the member becomes the newest READY one with the next frame number and
the capture time, the frame arrives at both monitors with the cadence state and FROZEN flag from before,
the oldest COLLECTING hold of the camera is offered the frame, and the next landing target is chosen, or
the camera is STARVED. With no hold collecting the frame stays in the ring; with a FREE slot the hold lifts
it out and that slot joins the ring as EMPTY; without one the frame stays and the hold completes SHORT. The
Cadence Monitor's reports stand before the Lens Monitor's by the model's choice (log entry 12). -/
def Obligations.WholeFrameIsAccepted : Prop :=
  ∀ (r : Requester) (c : Camera) (word : BitVec 21) (w : WriteData) (s : State) (i : Nat), s.isRunning →
    s.mem.wf = true → s.roleOf r.tag = .capture → s.cameras[c].enable = true → s.poolLaws →
    word.toNat + 1 = s.cameras[c].w * s.cameras[c].h / 4 → word ≠ 0 → w.enables = 0xFF →
    s.rings[c].phase = .inFrame → s.rings[c].filling = some i → s.rings[c].tornMark = false →
    s.rings[c].writes + 1 = s.cameras[c].w * s.cameras[c].h / 4 →
      let stamp : FrameStamp := ⟨s.rings[c].frameCount + 1, s.time⟩
      let ended := { s.rings[c] with
        filling := none, frameCount := s.rings[c].frameCount + 1
        accepted := s.rings[c].accepted + 1, phase := .waiting, writes := 0, tornMark := false }
      let g := { ended with ready := s.rings[c].ready ++ [i] }
      let choice := targetChoice (fun k => (s.slot k).pins) g
      let cad := arrivalOf c s.cameras[c].period s.time { s.cadence[c] with
        sigAcc := s.cadence[c].sigAcc.map fun x => x + BitVec.ofNat 16 (lumaSum w.data) }
      let lens := lensAcceptedOf c s.cameras[c] s.setup s.cadence[c].state s.cadence[c].frozen { s.lens[c] with
        acc := s.lens[c].acc.map fun x => x.add s.cameras[c] s.lens[c].noiseInUse word.toNat w.data }
      let told := fun t : State =>
        Completed s t r ∧ t.cadence[c] = cad.1 ∧ t.lens[c] = lens.1
          ∧ ∀ c' : Camera, c' ≠ c →
              t.rings[c'] = s.rings[c'] ∧ t.cadence[c'] = s.cadence[c'] ∧ t.lens[c'] = s.lens[c']
      let stored := s.mem.writeWord (s.pool.slotAddr i + 8 * word.toNat) w
      let stays := fun t : State =>
        t.rings[c] = (match choice with
          | some x => x.2
          | none => g)
          ∧ t.slot i = ⟨.ring c .ready, 0, some stamp⟩
          ∧ ∀ k, k ≠ i → t.slot k = if choice.map Prod.fst = some k then ⟨.ring c .filling, 0, none⟩ else s.slot k
      let starved : List Report := if choice = none then [.starved c true] else []
      let collects := fun (h : HoldId) (x : Hold) =>
        s.holds.table.get h = some x ∧ x.state = .collecting ∧ x.camera = c
      ((∀ h ∈ s.holds.order, ∀ x, ¬collects h x) →
          ∃ t, exec (.landingWrite r c word w) s = .next t ∧ told t ∧ stays t
            ∧ Touches [.mem, .ring, .pool, .rings, .lens, .cadence, .port] s t
            ∧ Reported s stored (cad.2 ++ lens.2 ++ starved) t)
        ∧ ∀ older h newer x, s.holds.order = older ++ h :: newer → (∀ h' ∈ older, ∀ x', ¬collects h' x') →
          collects h x →
            ((∀ k, k < s.pool.slots.length → (s.slot k).disp ≠ .free) →
                let y := { x with state := .complete, short := true, cause := some .noSlot }
                ∃ t, exec (.landingWrite r c word w) s = .next t ∧ told t ∧ stays t
                  ∧ t.holds = { s.holds with table := upd s.holds.table h (some y) }
                  ∧ Touches [.mem, .ring, .pool, .rings, .lens, .cadence, .holds, .port] s t
                  ∧ Reported s stored (cad.2 ++ lens.2 ++ .holdComplete h y :: starved) t)
              ∧ ∀ j, j < s.pool.slots.length → (s.slot j).disp = .free → (∀ k, k < j → (s.slot k).disp ≠ .free) →
                let x' := { x with slots := x.slots ++ [⟨i, stamp.number, .post, none⟩] }
                let done := (x.slots.countP fun e => decide (e.role = .post)) + 1 = x.post
                let y := if done then { x' with state := .complete, short := false, cause := some .count } else x'
                let next := s.rings[c].empty.headD j
                ∃ t, exec (.landingWrite r c word w) s = .next t ∧ told t
                  ∧ t.rings[c] = { ended with filling := some next, empty := (s.rings[c].empty ++ [j]).tail }
                  ∧ t.slot i = ⟨.held h, 0, some stamp⟩ ∧ t.slot next = ⟨.ring c .filling, 0, none⟩
                  ∧ (j ≠ next → t.slot j = ⟨.ring c .empty, 0, none⟩)
                  ∧ (∀ k, k ≠ i → k ≠ j → k ≠ next → t.slot k = s.slot k)
                  ∧ t.holds = { s.holds with table := upd s.holds.table h (some y) }
                  ∧ Touches [.mem, .ring, .pool, .rings, .lens, .cadence, .holds, .port] s t
                  ∧ Reported s stored (cad.2 ++ lens.2 ++ (if done then [.holdComplete h y] else [])) t

/-- The choice of a landing target: the front EMPTY member; else the oldest READY member with pin count 0,
never the newest; else none. -/
def Obligations.LandingTargetChoice : Prop :=
  ∀ (pins : Nat → Nat) (g : RingRec),
    (∀ i rest, g.empty = i :: rest → targetChoice pins g = some (i, { g with empty := rest, filling := some i }))
      ∧ (∀ older i newer newest, g.empty = [] → g.ready = older ++ i :: newer ++ [newest] → g.ready.Nodup →
          (∀ k ∈ older, pins k ≠ 0) → pins i = 0 →
            targetChoice pins g = some (i, { g with ready := older ++ newer ++ [newest], filling := some i }))
      ∧ ∀ older newest, g.empty = [] → (g.ready = older ++ [newest] ∨ g.ready = [] ∧ older = []) →
          (∀ k ∈ older, pins k ≠ 0) → targetChoice pins g = none

/-- R4: whenever a slot is taken from the pool it is the FREE slot with the lowest index, and none is to be
had exactly when no slot is FREE; the free count is the number of FREE slots. -/
def Obligations.LowestFreeSlotIsTaken : Prop :=
  ∀ s : State,
    (∀ i, s.lowestFree = some i ↔ i < s.pool.slots.length ∧ (s.slot i).disp = .free
        ∧ ∀ k, k < i → (s.slot k).disp ≠ .free)
      ∧ (s.lowestFree = none ↔ ∀ i, i < s.pool.slots.length → (s.slot i).disp ≠ .free)
      ∧ (s.lowestFree = none ↔ s.freeCount = 0)
      ∧ ∀ c i t, s.claimSlot c = some (i, t) →
          s.lowestFree = some i ∧ t.freeCount + 1 = s.freeCount ∧ t.slot i = ⟨.ring c .empty, 0, none⟩
            ∧ ∀ k, k ≠ i → t.slot k = s.slot k

/-- Pins: a pin request raises the newest READY member's pin count of an enabled camera and answers its
slot, or answers "no slot"; an unpin lowers a count above 0, frees a RETIRING slot that reaches 0, and ends
STARVED when it frees a member that is not the newest. -/
def Obligations.PinsAndUnpins : Prop :=
  ∀ (s : State),
    (∀ (c : Camera) i, s.cameras[c].enable = true → s.rings[c].ready.getLast? = some i → i < s.pool.slots.length →
        (s.pin c).2 = some i ∧ (s.pin c).1.slot i = { s.slot i with pins := (s.slot i).pins + 1 }
          ∧ (∀ k, k ≠ i → (s.pin c).1.slot k = s.slot k) ∧ Touches [.pool] s (s.pin c).1)
      ∧ (∀ c : Camera, s.cameras[c].enable = false ∨ s.rings[c].ready = [] → s.pin c = (s, none))
      ∧ ∀ i, i < s.pool.slots.length →
        ((s.slot i).pins = 0 → s.unpin i = s)
          ∧ (1 < (s.slot i).pins → s.unpin i = s.setSlot i { s.slot i with pins := (s.slot i).pins - 1 })
          ∧ ((s.slot i).pins = 1 → (s.slot i).disp = .retiring → s.unpin i = s.setSlot i ⟨.free, 0, none⟩)
          ∧ (∀ h, (s.slot i).pins = 1 → (s.slot i).disp = .held h →
              s.unpin i = s.setSlot i { s.slot i with pins := 0 })
          ∧ (∀ (c : Camera), (s.slot i).pins = 1 → (s.slot i).disp = .ring c .ready →
              s.cameras[c].enable = false ∨ s.rings[c].filling ≠ none ∨ s.rings[c].ready.getLast? = some i →
                s.unpin i = s.setSlot i { s.slot i with pins := 0 })
          ∧ ∀ (c : Camera) older newer newest, (s.slot i).pins = 1 → (s.slot i).disp = .ring c .ready →
              s.cameras[c].enable = true → s.rings[c].filling = none → s.rings[c].empty = [] →
              s.rings[c].ready = older ++ i :: newer ++ [newest] → s.rings[c].ready.Nodup →
              (∀ k ∈ older, (s.slot k).pins ≠ 0) →
                s.unpin i = ((s.setRing c { s.rings[c] with
                    ready := older ++ newer ++ [newest], filling := some i }).setSlot i
                  ⟨.ring c .filling, 0, none⟩).emit (.starved c false)

/-! ### Cadence and picture health -/

/-- The judgement of an arrival: with its interval in ACQUIRING and LOCKED, counting towards LOCK and SLIP,
and RESUME in STALE; then the times are set and the signature is compared, nine equal ones in a row
setting FROZEN. The CADENCE report goes before the FROZEN report. -/
def Obligations.ArrivalIsJudged : Prop :=
  ∀ (c : Camera) (period : Nat) (t : Time) (r : CadenceRec),
    let x := arrivalOf c period t r
    let dev := fun n : Nat => (n - period) + (period - n)
    x.1.previous = some t ∧ x.1.staleRef = t ∧ x.1.sigAcc = none ∧ x.1.prevSig = some (r.sigAcc.getD 0)
      ∧ (r.previous = none → r.state ≠ .stale → (x.1.state, x.1.good, x.1.slip) = (r.state, r.good, r.slip))
      ∧ (r.state = .stale → (x.1.state, x.1.good, x.1.slip) = (.acquiring, 0, 0)
          ∧ x.2.head? = some (.cadence c .stale .acquiring .resume none))
      ∧ (∀ p, r.previous = some p → r.state = .acquiring →
          (period / 16 < dev (elapsed p t) → (x.1.state, x.1.good, x.1.slip) = (.acquiring, 0, r.slip))
            ∧ (dev (elapsed p t) ≤ period / 16 → r.good ≠ 3 →
                (x.1.state, x.1.good, x.1.slip) = (.acquiring, r.good + 1, r.slip))
            ∧ (dev (elapsed p t) ≤ period / 16 → r.good = 3 → (x.1.state, x.1.good, x.1.slip) = (.locked, 0, 0)
                ∧ x.2.head? = some (.cadence c .acquiring .locked .lock (some (elapsed p t)))))
      ∧ (∀ p, r.previous = some p → r.state = .locked →
          (dev (elapsed p t) ≤ period / 8 → (x.1.state, x.1.good, x.1.slip) = (.locked, r.good, 0))
            ∧ (period / 8 < dev (elapsed p t) → r.slip ≠ 2 →
                (x.1.state, x.1.good, x.1.slip) = (.locked, r.good, r.slip + 1))
            ∧ (period / 8 < dev (elapsed p t) → r.slip = 2 → (x.1.state, x.1.good, x.1.slip) = (.acquiring, 0, 0)
                ∧ x.2.head? = some (.cadence c .locked .acquiring .slip (some (elapsed p t)))))
      ∧ (r.prevSig = none → x.1.run = 0 ∧ x.1.frozen = r.frozen)
      ∧ (∀ p, r.prevSig = some p → p = r.sigAcc.getD 0 →
          x.1.run = min (r.run + 1) 8 ∧ (x.1.frozen = true ↔ r.frozen = true ∨ 7 ≤ r.run)
            ∧ (r.frozen = false → 7 ≤ r.run → x.2.getLast? = some (.frozen c true .signature (some p))))
      ∧ ∀ p, r.prevSig = some p → p ≠ r.sigAcc.getD 0 →
          x.1.run = 0 ∧ x.1.frozen = false
            ∧ (r.frozen = true → x.2.getLast? = some (.frozen c false .signature (some (r.sigAcc.getD 0))))

/-- The stale timeout runs out at three periods from the stale reference, in ACQUIRING and LOCKED alone:
the camera goes STALE with its counts at 0 and no previous arrival, its signature state and FROZEN flag
kept. Otherwise the command does nothing (log entry 3). -/
def Obligations.StaleTimeoutRunsOut : Prop :=
  ∀ (c : Camera) (s : State), s.isRunning →
    let r := s.cadence[c]
    let due := (r.state = .acquiring ∨ r.state = .locked) ∧ 3 * s.cameras[c].period ≤ elapsed r.staleRef s.time
    (due → ∃ t, exec (.staleTimeout c) s = .next t ∧ Touches [.cadence, .mem, .ring] s t
        ∧ t.cadence[c] = { r with state := .stale, good := 0, slip := 0, previous := none }
        ∧ (∀ c' : Camera, c' ≠ c → t.cadence[c'] = s.cadence[c'])
        ∧ Reported s s.mem [.cadence c r.state .stale .timeout none] t)
      ∧ (¬due → exec (.staleTimeout c) s = .next s)

/-! ### The lens condition monitor -/

/-- A judged frame on a baseline: the ratio and new score of every usable zone and its flag are renewed by
the arithmetic of R52 to R54 and no other zone's, the class joins a history of at most 8, which loses its
oldest one where it is full, and the lens state changes exactly when 5 of 8 classes name another one, which
is then the only one that can, with one LENS report of cause JUDGED that carries Z and U (R56). And the
whole accepted notice (R48): the frame's figures (R47); a frame that is not eligible changes nothing else
(R49); the eligible counter, and the candidate at the judge interval (R50); the light gate, both ends
included (R51); the verdict, and then the learning run: sums and counts (R58), the completed or FEATURELESS
run at 64 learned frames (R59), TOO_DARK at 4,096 candidates (R60). -/
def Obligations.JudgedFrame : Prop :=
  ((∀ si b, zoneRatio si b = min 1023 (si * 256 / b))
      ∧ (∀ e ratio, e ≤ 1023 → ratio ≤ 1023 → zoneScore e ratio = (7 * e + ratio + 4) / 8 ∧ zoneScore e ratio ≤ 1023
          ∧ zoneScore e e = e)
      ∧ (∀ on off e was, on < off → (zoneFlag on off e was = true ↔ e < on ∨ e < off ∧ was = true))
      ∧ (∀ part obsc z u, frameClass part obsc z u = .obscured ↔ obsc * u ≤ 16 * z)
      ∧ (∀ part obsc z u, frameClass part obsc z u = .part ↔ 16 * z < obsc * u ∧ part * u ≤ 16 * z)
      ∧ ∀ part obsc z u, frameClass part obsc z u = .clean ↔ 16 * z < obsc * u ∧ 16 * z < part * u)
    ∧ (∀ (c : Camera) (setup : SetupRec) (base : Baseline) (a : FrameAcc) (l : LensRec), l.history.length ≤ 8 →
        let x := judgeFrame c setup base a l
        let flagged := (List.finRange 48).countP fun z : Zone => base.usable.get z && x.1.flags.get z
        (∀ z : Zone, base.usable.get z = false →
            x.1.scores.get z = l.scores.get z ∧ x.1.flags.get z = l.flags.get z)
          ∧ (∀ z : Zone, base.usable.get z = true →
              x.1.scores.get z = zoneScore (l.scores.get z) (zoneRatio (sharpness (a.zones.get z)) (base.b.get z))
                ∧ x.1.flags.get z = zoneFlag setup.onLevel setup.offLevel (x.1.scores.get z) (l.flags.get z))
          ∧ x.1.history = (if l.history.length < 8 then l.history else l.history.tail)
              ++ [frameClass setup.partFrac setup.obscFrac flagged l.usableCount]
          ∧ (∀ k : FrameClass, x.1.history.length = 8 → 5 ≤ x.1.history.count k → k.state ≠ l.state →
              x.1.state = k.state ∧ x.2 = [.lens c l.state k.state .judged (some (flagged, l.usableCount))])
          ∧ ((x.1.history.length < 8 ∨ ∀ k : FrameClass, 5 ≤ x.1.history.count k → k.state = l.state) →
              x.1.state = l.state ∧ x.2 = []))
    ∧ (∀ (c : Camera) (r : CameraRec) (setup : SetupRec) (prior : CadenceState) (frozen : Bool) (l : LensRec),
        let a := l.acc.getD .zero
        let x := lensAcceptedOf c r setup prior frozen l
        let mean := fun z : Zone =>
          if (a.zones.get z).words = 0 then 0 else (a.zones.get z).luma / (4 * (a.zones.get z).words)
        let si := fun z : Zone =>
          if (a.zones.get z).words = 0 then 0 else (a.zones.get z).gradient * 256 / (3 * (a.zones.get z).words)
        let included := fun z : Zone => r.excl.getLsbD z.val = false
        let eligible := r.lensOn = true ∧ prior = .locked ∧ frozen = false
        let light := setup.darkGate ≤ x.1.lastMean ∧ x.1.lastMean ≤ setup.glareGate
        let figured := { l with acc := none, lastMean := x.1.lastMean, lastDark := x.1.lastDark }
        let candidate := { figured with
          eligible := 0, candidates := if l.learn = .running then l.candidates + 1 else l.candidates }
        let idle := fun m : LensRec =>
          { m with learn := .idle, sums := Vector.replicate 48 0, learned := 0, candidates := 0 }
        let dark := fun m : LensRec =>
          if 4096 ≤ l.candidates + 1 ∧ m.learned < 64 then
            (idle m, [Report.learnEnd c .tooDark m.learned (l.candidates + 1) none]) else (m, [])
        x.1.lastMean = a.total / (r.w * r.h)
          ∧ ((∀ z, ¬included z) → x.1.lastDark = x.1.lastMean)
          ∧ ((∃ z, included z) →
              (∃ z, included z ∧ x.1.lastDark = mean z) ∧ ∀ z, included z → x.1.lastDark ≤ mean z)
          ∧ (¬eligible → x = (figured, []))
          ∧ (eligible → l.eligible + 1 < r.judge → x = ({ figured with eligible := l.eligible + 1 }, []))
          ∧ (eligible → r.judge ≤ l.eligible + 1 → ¬light →
              x = if l.learn = .running then dark candidate else (candidate, []))
          ∧ (eligible → r.judge ≤ l.eligible + 1 → light →
              let j : LensRec × List Report := match l.baseline with
                | some base => judgeFrame c setup base a candidate
                | none => (candidate, [])
              let k : LensRec := { j.1 with sums := Vector.ofFn fun z : Zone => l.sums.get z + si z, learned := l.learned + 1 }
              let b := fun z : Zone => (k.sums.get z + 32) / 64
              let usable := fun z : Zone => included z ∧ 64 ≤ b z
              let u := (List.finRange 48).countP fun z : Zone => decide (r.excl.getLsbD z.val = false ∧ 64 ≤ b z)
              (l.learn ≠ .running → x = j)
                ∧ (l.learn = .running → l.learned + 1 ≠ 64 → x = ((dark k).1, j.2 ++ (dark k).2))
                ∧ (l.learn = .running → l.learned + 1 = 64 → u < 12 →
                    x = (idle k, j.2 ++ [.learnEnd c .featureless 64 (l.candidates + 1) (some u)]))
                ∧ (l.learn = .running → l.learned + 1 = 64 → 12 ≤ u → ∃ base : Baseline,
                    (∀ z : Zone, base.b.get z = b z ∧ (base.usable.get z = true ↔ usable z))
                      ∧ x = ({ idle k with
                          baseline := some base, usableCount := u, state := .clean, history := []
                          scores := Vector.replicate 48 256, flags := Vector.replicate 48 false },
                        j.2 ++ (if k.state = .clean then [] else [.lens c k.state .clean .learned none])
                          ++ [.learnEnd c .complete 64 (l.candidates + 1) (some u)]))))

/-! ### Screens -/

/-- R97 and R99: a camera is usable when all five conditions hold, and a pane shows its own camera, or that
camera's partner exactly when the own camera is not usable, the pane allows substitution and the partner
is usable. -/
def Obligations.UsableAndShownCameras : Prop :=
  (∀ (s : State) (c : Camera), s.usable c = true ↔ s.cameras[c].enable = true ∧ s.cadence[c].state ≠ .stale
      ∧ s.cadence[c].frozen = false ∧ s.lens[c].state ≠ .obscured ∧ s.rings[c].ready ≠ [])
    ∧ ∀ (s : State) (p : PaneRec) (own q : Camera),
        (s.usable own = true → s.shownCamera p own = own)
          ∧ (s.usable own = false → p.subst = false → s.shownCamera p own = own)
          ∧ (s.usable own = false → 16 ≤ s.cameras[own].partner → s.shownCamera p own = own)
          ∧ (s.usable own = false → p.subst = true → s.cameras[own].partner = q.val → s.usable q = true →
              s.shownCamera p own = q)
          ∧ (s.usable own = false → s.cameras[own].partner = q.val → s.usable q = false → s.shownCamera p own = own)

/-- A screen read that is no frame start changes nothing: black fill for a disabled screen or one without a
scan context, and in the padding beside or below the picture; else the word of the first pane in chain
order that contains it, or the background. A pane's pair of pixels takes the first cover of R110 that
covers it: border, marker, stale band, lens band, and last the picture, which is the latched slot's source
picture under the pane's crop and decimation (R88 to R91), dimmed when the dim flag is set (R104), or
no-picture grey (R105). An address of the latched slot beyond frame memory wraps (log entry 10); no slot
has one. -/
def Obligations.ScreenReadComposes : Prop :=
  (∀ (r : Requester) (i : Screen) (word : BitVec 21) (s : State), s.isRunning →
    word ≠ 0 ∨ s.roleOf r.tag ≠ .display ∨ s.screens[i].enable = false →
      ∃ t w, exec (.screenRead r i word) s = .next t ∧ Returned s t r w ∧ Touches [.port] s t
        ∧ (s.screens[i].enable = false ∨ s.contexts[i] = none → w = 0x8010801080108010)
        ∧ ∀ ctx, s.screens[i].enable = true → s.contexts[i] = some ctx →
            let y := 8 * word.toNat / ctx.stride
            let x := 8 * word.toNat % ctx.stride / 2
            (ctx.height ≤ y ∨ ctx.width * 2 ≤ 8 * word.toNat % ctx.stride → w = 0x8010801080108010)
              ∧ (y < ctx.height → 8 * word.toNat % ctx.stride < ctx.width * 2 →
                  ((∀ e ∈ ctx.panes, e.contains x y = false) → w = ctx.background.word)
                    ∧ ∀ before e after, ctx.panes = before ++ e :: after →
                        (∀ e' ∈ before, e'.contains x y = false) → e.contains x y = true →
                          w = wordOfPairs (e.pairAt s.mem ctx.blink x y 0) (e.pairAt s.mem ctx.blink x y 1)))
    ∧ (∀ p q : Pair, bytesOfWord (wordOfPairs p q) = [p.y0, p.cb, p.y1, p.cr, q.y0, q.cb, q.y1, q.cr])
    ∧ (∀ k : Color, bytesOfWord k.word = [k.y, k.cb, k.y, k.cr, k.y, k.cb, k.y, k.cr])
    ∧ ∀ (e : PaneEntry) (m : Memory) (blink : Bool) (x y p : Nat),
      let c := e.copy
      let px := x + 2 * p
      let edge := px < c.x + 4 ∨ c.x + c.w ≤ px + 4 ∨ y < c.y + 4 ∨ c.y + c.h ≤ y + 4
      let top := c.y + (if e.staleBand then 8 else 0)
      let rows := match e.band with
        | .none => 0
        | .rows8 => 8
        | .rows16 => 16
      let sx := c.cropX + (x - c.x) * c.d
      let sy := c.cropY + (y - c.y) * c.d
      let mean := fun f : Nat → Nat → Nat =>
        (((List.range c.d).map fun k => ((List.range c.d).map fun j => f j k).sum).sum + c.d * c.d / 2) / (c.d * c.d)
      let dimmed := fun v : Nat => BitVec.ofNat 8 (if e.dim = true ∧ 16 ≤ v then 16 + (v - 16) / 2 else v)
      (e.contains x y = true ↔ c.x ≤ x ∧ x < c.x + c.w ∧ c.y ≤ y ∧ y < c.y + c.h)
        ∧ (edge → e.border = .openAmber → e.pairAt m blink x y p = ⟨162, 162, 44, 181⟩)
        ∧ (edge → e.border = .alertRed → blink = false → e.pairAt m blink x y p = ⟨81, 81, 90, 240⟩)
        ∧ (¬edge ∨ e.border = .none ∨ e.border = .alertRed ∧ blink = true →
            let marker := e.marker = true ∧ c.x + c.w ≤ px + 16 ∧ y < c.y + 16
            let stale := e.staleBand = true ∧ y < c.y + 8
            let lens := top ≤ y ∧ y < top + rows
            (marker → e.pairAt m blink x y p = ⟨235, 235, 128, 128⟩)
              ∧ (¬marker → stale → e.pairAt m blink x y p = ⟨128, 128, 128, 128⟩)
              ∧ (¬marker → ¬stale → lens → (px + (y - c.y)) / 8 % 2 = 0 →
                  e.pairAt m blink x y p = ⟨210, 210, 16, 146⟩)
              ∧ (¬marker → ¬stale → lens → (px + (y - c.y)) / 8 % 2 = 1 →
                  e.pairAt m blink x y p = ⟨16, 16, 128, 128⟩)
              ∧ (¬marker → ¬stale → ¬lens → e.latched = none → e.pairAt m blink x y p = ⟨64, 64, 128, 128⟩)
              ∧ ∀ latched, ¬marker → ¬stale → ¬lens → e.latched = some latched →
                let byte := fun off : Nat => (m.read (physical (latched.addr + off))).toNat
                let row := fun k : Nat => min (sy + k) (e.shownH - 1)
                let luma := fun i : Nat => mean fun j k =>
                  byte ((row k * e.shownW + min (sx + i * c.d + j) (e.shownW - 1)) * 2)
                let chroma := fun at_ : Nat => mean fun j k =>
                  byte ((row k * e.shownW + 2 * min ((sx + 2 * p * c.d) / 2 + j) (e.shownW / 2 - 1)) * 2 + at_)
                e.pairAt m blink x y p =
                  ⟨dimmed (luma (2 * p)), dimmed (luma (2 * p + 1)),
                    if e.dim then 128 else BitVec.ofNat 8 (chroma 1), if e.dim then 128 else BitVec.ofNat 8 (chroma 3)⟩)

/-- A frame start: a DISPLAY read of word 0 of an enabled screen latches a new scan context, with the
screen's geometry, the governing layout or else the base layout, the blink phase and the panes of the
chain, and is answered from it; in APPLYING the screen leaves the pending set, and the last one ends the
COMMIT DONE. The old context's slots are unpinned first (R80 step 1; the order of these unpins is log entry
29); every pane shows its own camera or its partner (R99), with the newest READY member of the camera
shown, pinned once for each camera (R83), and with the overlays of R101 to R103. The chain runs from the
layout's head over the panes' next indices, at most 8 panes and none behind an index that names no pane
(R75, R82). A layout above 31 and a
camera above 15 wrap (log entry 25); validation lets neither in. -/
def Obligations.FrameStartLatches : Prop :=
  (∀ (r : Requester) (i : Screen) (s : State), s.isRunning → s.roleOf r.tag = .display →
    s.screens[i].enable = true →
      let lay : Fin 32 := Fin.ofNat 32 ((s.spots[i].entries.head?.map SpotEntry.layout).getD s.screens[i].base)
      let left := s.engine.pending &&& ~~~(1#4 <<< i.val)
      let u := s.unpinContext i
      let newest := fun c : Camera => if s.cameras[c].enable then u.rings[c].ready.getLast? else none
      let bad := fun c : Camera => s.cadence[c].state = .stale ∨ s.cadence[c].frozen = true
      let named := fun (c : Camera) (x : DoorState) =>
        ∃ d : Door, s.doors[d].camera = c.val ∧ s.doorUnit.states.get d = x
      ∃ t ctx, exec (.screenRead r i 0) s = .next t ∧ t.contexts[i] = some ctx
        ∧ (∀ j : Screen, j ≠ i → t.contexts[j] = s.contexts[j])
        ∧ Touches [.contexts, .pool, .rings, .mem, .ring, .engine, .port] s t
        ∧ ctx.width = s.screens[i].width ∧ ctx.height = s.screens[i].height ∧ ctx.stride = s.screens[i].stride
        ∧ ctx.layout = lay.val ∧ ctx.background = s.layouts[lay].background
        ∧ (ctx.blink = true ↔ s.time.toNat / 250000 % 2 = 1)
        ∧ ctx.panes.map (fun e => (e.pane, e.copy)) =
            (chainFrom s.panes 8 s.layouts[lay].head).map (fun p => (p.val, s.panes[p]))
        ∧ (∀ e ∈ ctx.panes, e.own.val = e.copy.camera % 16
            ∧ e.shown = u.shownCamera e.copy e.own
            ∧ e.shownW = s.cameras[e.shown].w ∧ e.shownH = s.cameras[e.shown].h
            ∧ (e.marker = true ↔ e.shown ≠ e.own)
            ∧ e.latched.map Latched.slot = newest e.shown
            ∧ (∀ l, e.latched = some l → l.addr = t.pool.slotAddr l.slot)
            ∧ (e.dim = true ↔ e.latched ≠ none ∧ bad e.shown)
            ∧ (e.staleBand = true ↔ e.latched = none ∨ bad e.shown)
            ∧ e.band = (if e.copy.lensBand = false ∨ e.latched = none then .none
                else if s.lens[e.shown].state = .part then .rows8
                else if s.lens[e.shown].state = .obscured then .rows16
                else .none)
            ∧ (e.copy.border = false → e.border = .none)
            ∧ (e.copy.border = true → named e.own .alert → e.border = .alertRed)
            ∧ (e.copy.border = true → ¬named e.own .alert → named e.own .opened → e.border = .openAmber)
            ∧ (¬named e.own .alert → ¬named e.own .opened → e.border = .none))
        ∧ t.rings = u.rings ∧ t.pool.slots.length = u.pool.slots.length
        ∧ (∀ k, k < u.pool.slots.length → t.slot k = { u.slot k with
            pins := (u.slot k).pins + (List.finRange 16).countP fun c : Camera =>
              decide ((∃ e ∈ ctx.panes, e.shown = c) ∧ newest c = some k) })
        ∧ (∃ w, Returned s t r w
          ∧ (ctx.height = 0 ∨ ctx.width = 0 → w = 0x8010801080108010)
          ∧ (0 < ctx.height → 0 < ctx.width →
              ((∀ e ∈ ctx.panes, e.contains 0 0 = false) → w = ctx.background.word)
                ∧ ∀ before e after, ctx.panes = before ++ e :: after → (∀ e' ∈ before, e'.contains 0 0 = false) →
                  e.contains 0 0 = true →
                    w = wordOfPairs (e.pairAt t.mem ctx.blink 0 0 0) (e.pairAt t.mem ctx.blink 0 0 1)))
        ∧ (s.engine.state ≠ .applying ∨ s.engine.pending.getLsbD i.val = false → t.engine = s.engine
            ∧ t.mem = u.mem ∧ t.ring = u.ring)
        ∧ (s.engine.state = .applying → s.engine.pending.getLsbD i.val = true → left ≠ 0 →
            t.engine = { s.engine with pending := left } ∧ t.mem = u.mem ∧ t.ring = u.ring)
        ∧ (s.engine.state = .applying → s.engine.pending.getLsbD i.val = true → left = 0 →
            t.engine = { s.engine with
              state := .idle, pending := 0, result := .done, reason := .none, table := b8 s.engine.load.table.code
              index := BitVec.ofNat 16 s.engine.load.first }
              ∧ Reported u u.mem [.commandDone 0x02 s.engine.lastTag .done .none (b8 s.engine.load.table.code)
                  (BitVec.ofNat 16 s.engine.load.first)] t))
    ∧ ∀ (panes : Vector PaneRec 224) (head n : Nat),
      (∀ p, (chainFrom panes 8 head)[n]? = some p → p.val = chainIndex panes head n)
        ∧ ((chainFrom panes 8 head)[n]?.isSome = true ↔ n < 8 ∧ ∀ m, m ≤ n → chainIndex panes head m < 224)

/-! ### The report ring -/

/-- R177: an unconfigured ring discards a report; a full one loses and counts it, the count holding at
65,535; otherwise its 32 bytes are written at the producer's place with the lost count in the lost-before
field, the lost count becomes 0 and the producer advances. Nothing else is written. And the 32 bytes (11.5,
R182, R201), with the codes of 11.2: kind, subject, lost before and time, and then the detail byte by byte
for each kind and event, an absent field as R201 writes it and every other bit 0. Several reports are taken
one after the other in their order. -/
def Obligations.ReportWriterTakesAReport : Prop :=
  (∀ (s : State) (r : Report), s.mem.wf = true → s.ring.inRange →
    let g := s.ring
    let t := s.emit r
    Touches [.mem, .ring] s t
      ∧ (g.configured = false → t = s)
      ∧ (g.configured = true → (g.producer + 1) % g.capacity = g.consumer →
          t.mem = s.mem ∧ t.ring = { g with lost := if g.lost < 65535 then g.lost + 1 else 65535 })
      ∧ (g.configured = true → (g.producer + 1) % g.capacity ≠ g.consumer →
          t.ring = { g with lost := 0, producer := (g.producer + 1) % g.capacity }
            ∧ (r.bytes s.time g.lost).length = 32
            ∧ (∀ j (h : j < (r.bytes s.time g.lost).length),
                t.mem.read (g.base + g.producer * 32 + j) = (r.bytes s.time g.lost)[j])
            ∧ ∀ a, outside (g.base + g.producer * 32) 32 a → t.mem.read a = s.mem.read a))
    ∧ (∀ s : State, s.emitAll [] = s ∧ ∀ r rs, s.emitAll (r :: rs) = (s.emit r).emitAll rs)
    ∧ ([TableId.setup, .cameras, .screens, .layouts, .panes, .doors].map TableId.code = List.range 6
      ∧ [EngineState.idle, .staging, .applying, .aborted].map EngineState.code = List.range 4
      ∧ [Result.none, .done, .invalid, .refused, .aborted, .overtime].map Result.code = List.range 6
      ∧ [CadenceState.off, .acquiring, .locked, .stale].map CadenceState.code = List.range 4
      ∧ [LensState.unlearned, .clean, .part, .obscured].map LensState.code = List.range 4
      ∧ [LearnActivity.idle, .running, .suspended].map LearnActivity.code = List.range 3
      ∧ [DoorState.closed, .opened, .alert, .unknown].map DoorState.code = List.range 4
      ∧ [MemberState.empty, .filling, .ready].map MemberState.code = List.range 3
      ∧ [GuardKind.slotWrite, .screenWrite, .landingRole, .landingRange, .landingDisabled, .controlRole, .unmapped].map
          guardCode = [1, 2, 3, 4, 5, 6, 7]
      ∧ [Reason.none, .badTable, .badCount, .outOfRange, .overcount, .short, .otherCommand, .nothingStaged, .badCode,
          .badArg, .listFull, .locked, .cameraOff, .lensOff, .notLearning, .tableFull, .noFrame, .noSlot, .badRange,
          .badOrder, .badRoles, .badRing, .badArea, .busySlots, .busyCamera, .badLink, .chainLoop, .chainLong, .badPane,
          .restarted].map Reason.code = List.range 30
      ∧ [CadenceCause.enable, .disable, .lock, .slip, .timeout, .resume, .restart].map CadenceCause.code = List.range 7
      ∧ [FrozenCause.signature, .disable, .restart].map FrozenCause.code = List.range 3
      ∧ [LensCause.judged, .learned, .enable, .config, .restart].map LensCause.code = List.range 5
      ∧ [LearnResult.complete, .featureless, .tooDark, .discarded .disable].map LearnResult.code = List.range 4
      ∧ [DiscardCause.disable, .lensOff, .config, .restart].map (fun d => LearnResult.causeCode (.discarded d)) = List.range 4
      ∧ [DoorCause.lines, .enable, .disable, .restart].map DoorCause.code = List.range 4
      ∧ [some HoldCause.atTake, some .count, some .noSlot, some .disable, some .restart, none].map holdCauseCode =
          [0, 1, 2, 3, 4, 7])
    ∧ ∀ (report : Report) (time : Time) (lost : Nat),
      let byte := fun n : Nat => ((report.bytes time lost).getD n 0).toNat
      let two := fun n : Nat => byte n + 256 * byte (n + 1)
      let four := fun n : Nat => two n + 65536 * two (n + 2)
      let zeros := fun a b : Nat => ∀ n, a ≤ n → n < b → byte n = 0
      let head := fun kind subject : Nat => byte 0 = kind ∧ byte 1 = subject
      let entries := fun x : Hold => ∀ n, n < 4 →
        (∀ e, x.slots[n]? = some e → byte (12 + n) = e.slot % 256 ∧ four (16 + 4 * n) = e.frame.toNat)
          ∧ (x.slots[n]? = none → byte (12 + n) = 0xFF ∧ four (16 + 4 * n) = 0)
      let held := fun x : Hold => byte 9 = rankOf x.origin ∧ byte 10 = x.camera.val
        ∧ byte 11 % 8 = holdCauseCode x.cause ∧ byte 11 / 8 % 2 = bit x.short ∧ byte 11 / 16 % 2 = bit x.staleSource
        ∧ byte 11 / 32 = x.slots.length % 8 ∧ entries x
      (report.bytes time lost).length = 32 ∧ two 2 = lost % 65536 ∧ four 4 = time.toNat
        ∧ match report with
          | .commandDone code tag result reason table index => head 1 0
              ∧ byte 8 = code.toNat ∧ byte 9 = tag.toNat ∧ byte 10 = result.code ∧ byte 11 = reason.code
              ∧ byte 12 = table.toNat ∧ byte 13 = 0 ∧ two 14 = index.toNat ∧ zeros 16 32
          | .cadence c old new cause interval => head 2 c.val
              ∧ byte 8 = old.code ∧ byte 9 = new.code ∧ byte 10 = cause.code
              ∧ (∀ n, interval = some n → byte 11 = 1 ∧ four 12 = n % 2 ^ 32)
              ∧ (interval = none → zeros 11 16) ∧ zeros 16 32
          | .frozen c set cause signature => head 3 c.val
              ∧ byte 8 = bit set ∧ byte 9 = cause.code
              ∧ (∀ x, signature = some x → byte 10 = 1 ∧ byte 11 = 0 ∧ two 12 = x.toNat)
              ∧ (signature = none → zeros 10 14) ∧ zeros 14 32
          | .starved c begins => head 4 c.val ∧ byte 8 = bit begins ∧ zeros 9 32
          | .lens c old new cause zu => head 5 c.val
              ∧ byte 8 = old.code ∧ byte 9 = new.code ∧ byte 10 = cause.code
              ∧ (∀ z u, zu = some (z, u) → byte 11 = z % 256 ∧ byte 12 = u % 256)
              ∧ (zu = none → byte 11 = 0xFF ∧ byte 12 = 0xFF) ∧ zeros 13 32
          | .learnEnd c result learned candidates usable => head 6 c.val
              ∧ byte 8 = result.code
              ∧ (∀ d, result = .discarded d → byte 9 = LearnResult.causeCode (.discarded d))
              ∧ ((∀ d, result ≠ .discarded d) → byte 9 = 0xFF)
              ∧ byte 10 = learned % 256 ∧ (∀ u, usable = some u → byte 11 = u % 256) ∧ (usable = none → byte 11 = 0xFF)
              ∧ two 12 = candidates % 65536 ∧ zeros 14 32
          | .door d old new cause => head 7 d.val
              ∧ byte 8 = old.code ∧ byte 9 = new.code ∧ byte 10 = cause.code ∧ zeros 11 32
          | .spotGoverning i new old => head 8 i.val ∧ byte 8 = 0
              ∧ (∀ o layout, new = some (o, layout) → byte 9 = rankOf o ∧ byte 10 = layout % 256)
              ∧ (new = none → byte 9 = 0xFF ∧ byte 10 = 0xFF)
              ∧ (∀ o, old = some o → byte 11 = rankOf o) ∧ (old = none → byte 11 = 0xFF) ∧ zeros 12 32
          | .spotEvicted i removed removedLevel inserted insertedLevel => head 8 i.val ∧ byte 8 = 1
              ∧ byte 9 = rankOf removed ∧ byte 10 = removedLevel % 256 ∧ byte 11 = rankOf inserted
              ∧ byte 12 = insertedLevel % 256 ∧ zeros 13 32
          | .spotRefused i origin level lastLevel => head 8 i.val ∧ byte 8 = 2
              ∧ byte 9 = rankOf origin ∧ byte 10 = level % 256 ∧ byte 11 = lastLevel % 256 ∧ zeros 12 32
          | .holdTaken h x => head 9 h.val ∧ byte 8 = 0
              ∧ byte 9 = rankOf x.origin ∧ byte 10 = x.camera.val ∧ byte 11 = x.post % 256
              ∧ byte 12 = 2 * bit x.staleSource ∧ zeros 14 16
              ∧ (∀ e t, x.slots[0]? = some e → e.captured = some t →
                  byte 13 = e.slot % 256 ∧ four 16 = e.frame.toNat ∧ four 20 = t.toNat) ∧ zeros 24 32
          | .holdRefused c origin post reason => head 9 c.val ∧ byte 8 = 1
              ∧ byte 9 = rankOf origin ∧ byte 10 = post % 256 ∧ byte 11 = reason.code ∧ zeros 12 32
          | .holdComplete h x => head 9 h.val ∧ byte 8 = 2 ∧ held x
          | .holdReleased h x freed retiring => head 9 h.val ∧ byte 8 = 3
              ∧ byte 9 = x.camera.val ∧ byte 10 = x.slots.length % 256 ∧ byte 11 = freed % 256
              ∧ byte 12 = retiring % 256 ∧ zeros 13 32
          | .guard kind e => head 10 (guardCode kind)
              ∧ byte 8 = e.tag.toNat ∧ zeros 9 12 ∧ four 12 = e.addr.toNat ∧ four 16 = e.opened.toNat
              ∧ two 20 = e.count % 65536 ∧ zeros 22 32
          | .cameraStatus c x => head 11 c.val
              ∧ byte 8 % 2 = bit x.enable ∧ byte 8 / 2 % 2 = bit x.frozen ∧ byte 8 / 4 % 2 = bit x.starved
              ∧ (x.members.length ≤ 7 → byte 8 / 8 = x.members.length)
              ∧ byte 9 = x.cadence.code + 4 * x.lens.code + 16 * x.learn.code
              ∧ (∀ m, m < 6 →
                  (∀ i k, x.members[m]? = some (i, k) → two 10 / 4 ^ m % 4 = k.code ∧ byte (12 + m) = i % 256)
                    ∧ (x.members[m]? = none → two 10 / 4 ^ m % 4 = 3 ∧ byte (12 + m) = 0xFF))
              ∧ two 10 < 4096
              ∧ two 18 = x.accepted.toNat ∧ two 20 = x.torn.toNat ∧ two 22 = x.starvedDrop.toNat
              ∧ (∀ z : Zone, byte (24 + z.val / 8) / 2 ^ (z.val % 8) % 2 = bit (x.flags.get z))
              ∧ byte 30 = x.lastMean % 256 ∧ byte 31 = x.lastDark % 256
          | .spotList i places => head 12 i.val
              ∧ ∀ n, n < 8 →
                let place := two (8 + 3 * n) + 65536 * byte (10 + 3 * n)
                (places[n]? = none → place = 31)
                  ∧ ∀ p, places[n]? = some p → p.level ≤ 7 → p.layout ≤ 31 → p.linger ≤ 20 → p.age ≤ 31 →
                    place % 32 = rankOf p.origin ∧ place / 32 % 2 = bit p.active ∧ place / 64 % 8 = p.level
                      ∧ place / 512 % 32 = p.layout ∧ place / 16384 % 32 = p.linger ∧ place / 524288 = p.age
          | .holdList h x => head 13 h.val
              ∧ byte 8 % 2 = bit (decide (x.state = .complete)) ∧ (x.post ≤ 3 → byte 8 / 2 = x.post) ∧ held x

/-! ### Invariants that every step keeps -/

/-- Frame memory keeps its canonical form; the report ring keeps both indices below its capacity, its lost
count at most 65,535 and its place inside frame memory, with no figure but 0 while it is unconfigured; the
engine's load stays within its table, its staged words within its load, and its pending set is not empty
exactly while it is APPLYING. -/
def Obligations.MemoryRingAndEngineStayInRange : Prop :=
  (∀ s t : State, s.mem.wf = true → step s = .next t → t.mem.wf = true)
    ∧ (∀ s t : State, s.ring.inRange → step s = .next t → t.ring.inRange)
    ∧ (∀ s t : State, s.engine.inRange → step s = .next t → t.engine.inRange)

/-- Every spotlight list keeps at most 8 entries, one per origin, by descending level, and counts a linger
exactly while its governing entry is inactive. And it keeps R121's order of activation among entries of one
level, with the order numbers of log entry 13, as long as no entry was activated a whole turn of the time
base (2^32 microseconds) before the present value: only then could two activations fall at the same value
and not together. -/
def Obligations.SpotlightListsStayInOrder : Prop :=
  (∀ s t : State, (∀ i : Screen, s.spots[i].inOrder) → step s = .next t → ∀ i : Screen, t.spots[i].inOrder)
    ∧ ∀ s t : State,
      (∀ i : Screen, s.spots[i].inOrder ∧ s.spots[i].inActivationOrder ∧ s.spots[i].noneOneTurnOld s.time) →
        step s = .next t → ∀ i : Screen, t.spots[i].inActivationOrder

/-- Every cadence record keeps its ranges, OFF exactly while its camera is disabled and FROZEN exactly at a
full run of equal signatures. -/
def Obligations.CadenceStaysInRange : Prop :=
  ∀ s t : State, (∀ c : Camera, s.cadence[c].inRange s.cameras[c].enable) → step s = .next t →
    ∀ c : Camera, t.cadence[c].inRange t.cameras[c].enable

/-- Every lens record keeps its ranges: scores, class history, U, the learning figures, and UNLEARNED
exactly without a baseline. And with a load in its range, so do the eligible counter, the noise floor in use,
the last luma figures, the baseline's B and the learn sums (R43): validation keeps the judge interval at most
16 and Tn at most 31, and the accumulators of a frame in progress are bounded by its words. -/
def Obligations.LensStaysInRange : Prop :=
  (∀ s t : State, (∀ c : Camera, s.lens[c].inRange) → step s = .next t → ∀ c : Camera, t.lens[c].inRange)
    ∧ ∀ s t : State, (∀ c : Camera, s.lens[c].inRange ∧ s.lensFigures c) → s.engine.inRange → step s = .next t →
      ∀ c : Camera, t.lensFigures c

/-- Every present hold keeps its shape and stands once in the order of creation; no DOOR record asks for
more than three post-event frames. -/
def Obligations.HoldsStayConsistent : Prop :=
  ∀ s t : State, s.holds.consistent → (∀ d : Door, s.doors[d].post ≤ 3) → step s = .next t →
    t.holds.consistent ∧ ∀ d : Door, t.doors[d].post ≤ 3

/-- The two laws of the pool: every slot is in exactly one place, and every enabled camera's ring has
exactly k members, through enables, disables, frames, pins, holds, releases and restarts. And what ties the
slots to the other blocks: a slot is HELD(h) exactly while one entry of hold h's slot list names it (R134);
frame number and capture time are present exactly for READY and HELD slots (R3); a camera in the FRAME phase
has a FILLING member (R10); and a slot's pin count is the number of screens whose scan context latches it
(R19). -/
def Obligations.PoolLawsAreKept : Prop :=
  (∀ s t : State, s.poolLaws → s.regionsApart → s.engine.inRange → step s = .next t → t.poolLaws)
    ∧ ∀ s t : State, s.poolLaws → s.regionsApart → s.engine.inRange → s.holds.consistent → s.slotLaws →
      step s = .next t → t.slotLaws

/-- The slot table stays that of the SETUP record in force, the slot area stays in frame memory and off the
report ring and the control page, and every enabled camera's frame fits its slot. -/
def Obligations.RegionsStayApart : Prop :=
  ∀ s t : State, s.regionsApart → step s = .next t → t.regionsApart

end
end

