-- ==== Sys2Proof/Laws/State.lean ====
section
/-! SUPPORT. The setters of State, one lemma per field per update, and reading a fixed-length table
after one entry has been replaced. -/

namespace Sys2Proof.Machine

@[simp] theorem upd_getElem_self {α : Type} {n : Nat} (v : Vector α n) (i : Fin n) (x : α) :
    (upd v i x)[i] = x := by simp [upd]

@[simp] theorem upd_get_self {α : Type} {n : Nat} (v : Vector α n) (i : Fin n) (x : α) :
    (upd v i x).get i = x := by simp [upd, Vector.get_eq_getElem]

theorem upd_getElem_of_ne {α : Type} {n : Nat} (v : Vector α n) {i j : Fin n} (x : α) (h : j ≠ i) :
    (upd v i x)[j] = v[j] := by
  have : i.val ≠ j.val := fun e => h (Fin.ext e.symm)
  simp [upd, this]

theorem upd_get_of_ne {α : Type} {n : Nat} (v : Vector α n) {i j : Fin n} (x : α) (h : j ≠ i) :
    (upd v i x).get j = v.get j := by
  have : i.val ≠ j.val := fun e => h (Fin.ext e.symm)
  simp [upd, Vector.get_eq_getElem, this]

/-- An entry of a table after one entry has been replaced: the new one or an old one. -/
theorem upd_getElem_cases {α : Type} {n : Nat} (v : Vector α n) (i j : Fin n) (x : α) :
    (upd v i x)[j] = x ∧ j = i ∨ (upd v i x)[j] = v[j] ∧ j ≠ i := by
  by_cases h : j = i
  · subst h; exact .inl ⟨upd_getElem_self .., rfl⟩
  · exact .inr ⟨upd_getElem_of_ne v x h, h⟩

/-! ### setCamera -/

@[simp] theorem State.setCamera_condition (s : State) (c : Camera) (r : CameraRec) :
    (s.setCamera c r).condition = s.condition := rfl
@[simp] theorem State.setCamera_straps (s : State) (c : Camera) (r : CameraRec) :
    (s.setCamera c r).straps = s.straps := rfl
@[simp] theorem State.setCamera_lines (s : State) (c : Camera) (r : CameraRec) :
    (s.setCamera c r).lines = s.lines := rfl
@[simp] theorem State.setCamera_port (s : State) (c : Camera) (r : CameraRec) : (s.setCamera c r).port = s.port := rfl
@[simp] theorem State.setCamera_time (s : State) (c : Camera) (r : CameraRec) : (s.setCamera c r).time = s.time := rfl
@[simp] theorem State.setCamera_mem (s : State) (c : Camera) (r : CameraRec) : (s.setCamera c r).mem = s.mem := rfl
@[simp] theorem State.setCamera_setup (s : State) (c : Camera) (r : CameraRec) :
    (s.setCamera c r).setup = s.setup := rfl
@[simp] theorem State.setCamera_cameras (s : State) (c : Camera) (r : CameraRec) :
    (s.setCamera c r).cameras = upd s.cameras c r := rfl
@[simp] theorem State.setCamera_doors (s : State) (c : Camera) (r : CameraRec) :
    (s.setCamera c r).doors = s.doors := rfl
@[simp] theorem State.setCamera_screens (s : State) (c : Camera) (r : CameraRec) :
    (s.setCamera c r).screens = s.screens := rfl
@[simp] theorem State.setCamera_layouts (s : State) (c : Camera) (r : CameraRec) :
    (s.setCamera c r).layouts = s.layouts := rfl
@[simp] theorem State.setCamera_panes (s : State) (c : Camera) (r : CameraRec) :
    (s.setCamera c r).panes = s.panes := rfl
@[simp] theorem State.setCamera_pool (s : State) (c : Camera) (r : CameraRec) : (s.setCamera c r).pool = s.pool := rfl
@[simp] theorem State.setCamera_rings (s : State) (c : Camera) (r : CameraRec) :
    (s.setCamera c r).rings = s.rings := rfl
@[simp] theorem State.setCamera_cadence (s : State) (c : Camera) (r : CameraRec) :
    (s.setCamera c r).cadence = s.cadence := rfl
@[simp] theorem State.setCamera_lens (s : State) (c : Camera) (r : CameraRec) : (s.setCamera c r).lens = s.lens := rfl
@[simp] theorem State.setCamera_contexts (s : State) (c : Camera) (r : CameraRec) :
    (s.setCamera c r).contexts = s.contexts := rfl
@[simp] theorem State.setCamera_doorUnit (s : State) (c : Camera) (r : CameraRec) :
    (s.setCamera c r).doorUnit = s.doorUnit := rfl
@[simp] theorem State.setCamera_spots (s : State) (c : Camera) (r : CameraRec) :
    (s.setCamera c r).spots = s.spots := rfl
@[simp] theorem State.setCamera_holds (s : State) (c : Camera) (r : CameraRec) :
    (s.setCamera c r).holds = s.holds := rfl
@[simp] theorem State.setCamera_engine (s : State) (c : Camera) (r : CameraRec) :
    (s.setCamera c r).engine = s.engine := rfl
@[simp] theorem State.setCamera_ring (s : State) (c : Camera) (r : CameraRec) : (s.setCamera c r).ring = s.ring := rfl
@[simp] theorem State.setCamera_episodes (s : State) (c : Camera) (r : CameraRec) :
    (s.setCamera c r).episodes = s.episodes := rfl
@[simp] theorem State.setCamera_pending (s : State) (c : Camera) (r : CameraRec) :
    (s.setCamera c r).pending = s.pending := rfl

/-! ### setDoor -/

@[simp] theorem State.setDoor_condition (s : State) (d : Door) (r : DoorRec) :
    (s.setDoor d r).condition = s.condition := rfl
@[simp] theorem State.setDoor_straps (s : State) (d : Door) (r : DoorRec) : (s.setDoor d r).straps = s.straps := rfl
@[simp] theorem State.setDoor_lines (s : State) (d : Door) (r : DoorRec) : (s.setDoor d r).lines = s.lines := rfl
@[simp] theorem State.setDoor_port (s : State) (d : Door) (r : DoorRec) : (s.setDoor d r).port = s.port := rfl
@[simp] theorem State.setDoor_time (s : State) (d : Door) (r : DoorRec) : (s.setDoor d r).time = s.time := rfl
@[simp] theorem State.setDoor_mem (s : State) (d : Door) (r : DoorRec) : (s.setDoor d r).mem = s.mem := rfl
@[simp] theorem State.setDoor_setup (s : State) (d : Door) (r : DoorRec) : (s.setDoor d r).setup = s.setup := rfl
@[simp] theorem State.setDoor_cameras (s : State) (d : Door) (r : DoorRec) : (s.setDoor d r).cameras = s.cameras := rfl
@[simp] theorem State.setDoor_doors (s : State) (d : Door) (r : DoorRec) :
    (s.setDoor d r).doors = upd s.doors d r := rfl
@[simp] theorem State.setDoor_screens (s : State) (d : Door) (r : DoorRec) : (s.setDoor d r).screens = s.screens := rfl
@[simp] theorem State.setDoor_layouts (s : State) (d : Door) (r : DoorRec) : (s.setDoor d r).layouts = s.layouts := rfl
@[simp] theorem State.setDoor_panes (s : State) (d : Door) (r : DoorRec) : (s.setDoor d r).panes = s.panes := rfl
@[simp] theorem State.setDoor_pool (s : State) (d : Door) (r : DoorRec) : (s.setDoor d r).pool = s.pool := rfl
@[simp] theorem State.setDoor_rings (s : State) (d : Door) (r : DoorRec) : (s.setDoor d r).rings = s.rings := rfl
@[simp] theorem State.setDoor_cadence (s : State) (d : Door) (r : DoorRec) : (s.setDoor d r).cadence = s.cadence := rfl
@[simp] theorem State.setDoor_lens (s : State) (d : Door) (r : DoorRec) : (s.setDoor d r).lens = s.lens := rfl
@[simp] theorem State.setDoor_contexts (s : State) (d : Door) (r : DoorRec) :
    (s.setDoor d r).contexts = s.contexts := rfl
@[simp] theorem State.setDoor_doorUnit (s : State) (d : Door) (r : DoorRec) :
    (s.setDoor d r).doorUnit = s.doorUnit := rfl
@[simp] theorem State.setDoor_spots (s : State) (d : Door) (r : DoorRec) : (s.setDoor d r).spots = s.spots := rfl
@[simp] theorem State.setDoor_holds (s : State) (d : Door) (r : DoorRec) : (s.setDoor d r).holds = s.holds := rfl
@[simp] theorem State.setDoor_engine (s : State) (d : Door) (r : DoorRec) : (s.setDoor d r).engine = s.engine := rfl
@[simp] theorem State.setDoor_ring (s : State) (d : Door) (r : DoorRec) : (s.setDoor d r).ring = s.ring := rfl
@[simp] theorem State.setDoor_episodes (s : State) (d : Door) (r : DoorRec) :
    (s.setDoor d r).episodes = s.episodes := rfl
@[simp] theorem State.setDoor_pending (s : State) (d : Door) (r : DoorRec) : (s.setDoor d r).pending = s.pending := rfl

/-! ### setScreen -/

@[simp] theorem State.setScreen_condition (s : State) (i : Screen) (r : ScreenRec) :
    (s.setScreen i r).condition = s.condition := rfl
@[simp] theorem State.setScreen_straps (s : State) (i : Screen) (r : ScreenRec) :
    (s.setScreen i r).straps = s.straps := rfl
@[simp] theorem State.setScreen_lines (s : State) (i : Screen) (r : ScreenRec) :
    (s.setScreen i r).lines = s.lines := rfl
@[simp] theorem State.setScreen_port (s : State) (i : Screen) (r : ScreenRec) : (s.setScreen i r).port = s.port := rfl
@[simp] theorem State.setScreen_time (s : State) (i : Screen) (r : ScreenRec) : (s.setScreen i r).time = s.time := rfl
@[simp] theorem State.setScreen_mem (s : State) (i : Screen) (r : ScreenRec) : (s.setScreen i r).mem = s.mem := rfl
@[simp] theorem State.setScreen_setup (s : State) (i : Screen) (r : ScreenRec) :
    (s.setScreen i r).setup = s.setup := rfl
@[simp] theorem State.setScreen_cameras (s : State) (i : Screen) (r : ScreenRec) :
    (s.setScreen i r).cameras = s.cameras := rfl
@[simp] theorem State.setScreen_doors (s : State) (i : Screen) (r : ScreenRec) :
    (s.setScreen i r).doors = s.doors := rfl
@[simp] theorem State.setScreen_screens (s : State) (i : Screen) (r : ScreenRec) :
    (s.setScreen i r).screens = upd s.screens i r := rfl
@[simp] theorem State.setScreen_layouts (s : State) (i : Screen) (r : ScreenRec) :
    (s.setScreen i r).layouts = s.layouts := rfl
@[simp] theorem State.setScreen_panes (s : State) (i : Screen) (r : ScreenRec) :
    (s.setScreen i r).panes = s.panes := rfl
@[simp] theorem State.setScreen_pool (s : State) (i : Screen) (r : ScreenRec) : (s.setScreen i r).pool = s.pool := rfl
@[simp] theorem State.setScreen_rings (s : State) (i : Screen) (r : ScreenRec) :
    (s.setScreen i r).rings = s.rings := rfl
@[simp] theorem State.setScreen_cadence (s : State) (i : Screen) (r : ScreenRec) :
    (s.setScreen i r).cadence = s.cadence := rfl
@[simp] theorem State.setScreen_lens (s : State) (i : Screen) (r : ScreenRec) : (s.setScreen i r).lens = s.lens := rfl
@[simp] theorem State.setScreen_contexts (s : State) (i : Screen) (r : ScreenRec) :
    (s.setScreen i r).contexts = s.contexts := rfl
@[simp] theorem State.setScreen_doorUnit (s : State) (i : Screen) (r : ScreenRec) :
    (s.setScreen i r).doorUnit = s.doorUnit := rfl
@[simp] theorem State.setScreen_spots (s : State) (i : Screen) (r : ScreenRec) :
    (s.setScreen i r).spots = s.spots := rfl
@[simp] theorem State.setScreen_holds (s : State) (i : Screen) (r : ScreenRec) :
    (s.setScreen i r).holds = s.holds := rfl
@[simp] theorem State.setScreen_engine (s : State) (i : Screen) (r : ScreenRec) :
    (s.setScreen i r).engine = s.engine := rfl
@[simp] theorem State.setScreen_ring (s : State) (i : Screen) (r : ScreenRec) : (s.setScreen i r).ring = s.ring := rfl
@[simp] theorem State.setScreen_episodes (s : State) (i : Screen) (r : ScreenRec) :
    (s.setScreen i r).episodes = s.episodes := rfl
@[simp] theorem State.setScreen_pending (s : State) (i : Screen) (r : ScreenRec) :
    (s.setScreen i r).pending = s.pending := rfl

/-! ### setLayout -/

@[simp] theorem State.setLayout_condition (s : State) (i : Fin 32) (r : LayoutRec) :
    (s.setLayout i r).condition = s.condition := rfl
@[simp] theorem State.setLayout_straps (s : State) (i : Fin 32) (r : LayoutRec) :
    (s.setLayout i r).straps = s.straps := rfl
@[simp] theorem State.setLayout_lines (s : State) (i : Fin 32) (r : LayoutRec) :
    (s.setLayout i r).lines = s.lines := rfl
@[simp] theorem State.setLayout_port (s : State) (i : Fin 32) (r : LayoutRec) : (s.setLayout i r).port = s.port := rfl
@[simp] theorem State.setLayout_time (s : State) (i : Fin 32) (r : LayoutRec) : (s.setLayout i r).time = s.time := rfl
@[simp] theorem State.setLayout_mem (s : State) (i : Fin 32) (r : LayoutRec) : (s.setLayout i r).mem = s.mem := rfl
@[simp] theorem State.setLayout_setup (s : State) (i : Fin 32) (r : LayoutRec) :
    (s.setLayout i r).setup = s.setup := rfl
@[simp] theorem State.setLayout_cameras (s : State) (i : Fin 32) (r : LayoutRec) :
    (s.setLayout i r).cameras = s.cameras := rfl
@[simp] theorem State.setLayout_doors (s : State) (i : Fin 32) (r : LayoutRec) :
    (s.setLayout i r).doors = s.doors := rfl
@[simp] theorem State.setLayout_screens (s : State) (i : Fin 32) (r : LayoutRec) :
    (s.setLayout i r).screens = s.screens := rfl
@[simp] theorem State.setLayout_layouts (s : State) (i : Fin 32) (r : LayoutRec) :
    (s.setLayout i r).layouts = upd s.layouts i r := rfl
@[simp] theorem State.setLayout_panes (s : State) (i : Fin 32) (r : LayoutRec) :
    (s.setLayout i r).panes = s.panes := rfl
@[simp] theorem State.setLayout_pool (s : State) (i : Fin 32) (r : LayoutRec) : (s.setLayout i r).pool = s.pool := rfl
@[simp] theorem State.setLayout_rings (s : State) (i : Fin 32) (r : LayoutRec) :
    (s.setLayout i r).rings = s.rings := rfl
@[simp] theorem State.setLayout_cadence (s : State) (i : Fin 32) (r : LayoutRec) :
    (s.setLayout i r).cadence = s.cadence := rfl
@[simp] theorem State.setLayout_lens (s : State) (i : Fin 32) (r : LayoutRec) : (s.setLayout i r).lens = s.lens := rfl
@[simp] theorem State.setLayout_contexts (s : State) (i : Fin 32) (r : LayoutRec) :
    (s.setLayout i r).contexts = s.contexts := rfl
@[simp] theorem State.setLayout_doorUnit (s : State) (i : Fin 32) (r : LayoutRec) :
    (s.setLayout i r).doorUnit = s.doorUnit := rfl
@[simp] theorem State.setLayout_spots (s : State) (i : Fin 32) (r : LayoutRec) :
    (s.setLayout i r).spots = s.spots := rfl
@[simp] theorem State.setLayout_holds (s : State) (i : Fin 32) (r : LayoutRec) :
    (s.setLayout i r).holds = s.holds := rfl
@[simp] theorem State.setLayout_engine (s : State) (i : Fin 32) (r : LayoutRec) :
    (s.setLayout i r).engine = s.engine := rfl
@[simp] theorem State.setLayout_ring (s : State) (i : Fin 32) (r : LayoutRec) : (s.setLayout i r).ring = s.ring := rfl
@[simp] theorem State.setLayout_episodes (s : State) (i : Fin 32) (r : LayoutRec) :
    (s.setLayout i r).episodes = s.episodes := rfl
@[simp] theorem State.setLayout_pending (s : State) (i : Fin 32) (r : LayoutRec) :
    (s.setLayout i r).pending = s.pending := rfl

/-! ### setPane -/

@[simp] theorem State.setPane_condition (s : State) (i : Fin 224) (r : PaneRec) :
    (s.setPane i r).condition = s.condition := rfl
@[simp] theorem State.setPane_straps (s : State) (i : Fin 224) (r : PaneRec) : (s.setPane i r).straps = s.straps := rfl
@[simp] theorem State.setPane_lines (s : State) (i : Fin 224) (r : PaneRec) : (s.setPane i r).lines = s.lines := rfl
@[simp] theorem State.setPane_port (s : State) (i : Fin 224) (r : PaneRec) : (s.setPane i r).port = s.port := rfl
@[simp] theorem State.setPane_time (s : State) (i : Fin 224) (r : PaneRec) : (s.setPane i r).time = s.time := rfl
@[simp] theorem State.setPane_mem (s : State) (i : Fin 224) (r : PaneRec) : (s.setPane i r).mem = s.mem := rfl
@[simp] theorem State.setPane_setup (s : State) (i : Fin 224) (r : PaneRec) : (s.setPane i r).setup = s.setup := rfl
@[simp] theorem State.setPane_cameras (s : State) (i : Fin 224) (r : PaneRec) :
    (s.setPane i r).cameras = s.cameras := rfl
@[simp] theorem State.setPane_doors (s : State) (i : Fin 224) (r : PaneRec) : (s.setPane i r).doors = s.doors := rfl
@[simp] theorem State.setPane_screens (s : State) (i : Fin 224) (r : PaneRec) :
    (s.setPane i r).screens = s.screens := rfl
@[simp] theorem State.setPane_layouts (s : State) (i : Fin 224) (r : PaneRec) :
    (s.setPane i r).layouts = s.layouts := rfl
@[simp] theorem State.setPane_panes (s : State) (i : Fin 224) (r : PaneRec) :
    (s.setPane i r).panes = upd s.panes i r := rfl
@[simp] theorem State.setPane_pool (s : State) (i : Fin 224) (r : PaneRec) : (s.setPane i r).pool = s.pool := rfl
@[simp] theorem State.setPane_rings (s : State) (i : Fin 224) (r : PaneRec) : (s.setPane i r).rings = s.rings := rfl
@[simp] theorem State.setPane_cadence (s : State) (i : Fin 224) (r : PaneRec) :
    (s.setPane i r).cadence = s.cadence := rfl
@[simp] theorem State.setPane_lens (s : State) (i : Fin 224) (r : PaneRec) : (s.setPane i r).lens = s.lens := rfl
@[simp] theorem State.setPane_contexts (s : State) (i : Fin 224) (r : PaneRec) :
    (s.setPane i r).contexts = s.contexts := rfl
@[simp] theorem State.setPane_doorUnit (s : State) (i : Fin 224) (r : PaneRec) :
    (s.setPane i r).doorUnit = s.doorUnit := rfl
@[simp] theorem State.setPane_spots (s : State) (i : Fin 224) (r : PaneRec) : (s.setPane i r).spots = s.spots := rfl
@[simp] theorem State.setPane_holds (s : State) (i : Fin 224) (r : PaneRec) : (s.setPane i r).holds = s.holds := rfl
@[simp] theorem State.setPane_engine (s : State) (i : Fin 224) (r : PaneRec) : (s.setPane i r).engine = s.engine := rfl
@[simp] theorem State.setPane_ring (s : State) (i : Fin 224) (r : PaneRec) : (s.setPane i r).ring = s.ring := rfl
@[simp] theorem State.setPane_episodes (s : State) (i : Fin 224) (r : PaneRec) :
    (s.setPane i r).episodes = s.episodes := rfl
@[simp] theorem State.setPane_pending (s : State) (i : Fin 224) (r : PaneRec) :
    (s.setPane i r).pending = s.pending := rfl

/-! ### setRing -/

@[simp] theorem State.setRing_condition (s : State) (c : Camera) (r : RingRec) :
    (s.setRing c r).condition = s.condition := rfl
@[simp] theorem State.setRing_straps (s : State) (c : Camera) (r : RingRec) : (s.setRing c r).straps = s.straps := rfl
@[simp] theorem State.setRing_lines (s : State) (c : Camera) (r : RingRec) : (s.setRing c r).lines = s.lines := rfl
@[simp] theorem State.setRing_port (s : State) (c : Camera) (r : RingRec) : (s.setRing c r).port = s.port := rfl
@[simp] theorem State.setRing_time (s : State) (c : Camera) (r : RingRec) : (s.setRing c r).time = s.time := rfl
@[simp] theorem State.setRing_mem (s : State) (c : Camera) (r : RingRec) : (s.setRing c r).mem = s.mem := rfl
@[simp] theorem State.setRing_setup (s : State) (c : Camera) (r : RingRec) : (s.setRing c r).setup = s.setup := rfl
@[simp] theorem State.setRing_cameras (s : State) (c : Camera) (r : RingRec) :
    (s.setRing c r).cameras = s.cameras := rfl
@[simp] theorem State.setRing_doors (s : State) (c : Camera) (r : RingRec) : (s.setRing c r).doors = s.doors := rfl
@[simp] theorem State.setRing_screens (s : State) (c : Camera) (r : RingRec) :
    (s.setRing c r).screens = s.screens := rfl
@[simp] theorem State.setRing_layouts (s : State) (c : Camera) (r : RingRec) :
    (s.setRing c r).layouts = s.layouts := rfl
@[simp] theorem State.setRing_panes (s : State) (c : Camera) (r : RingRec) : (s.setRing c r).panes = s.panes := rfl
@[simp] theorem State.setRing_pool (s : State) (c : Camera) (r : RingRec) : (s.setRing c r).pool = s.pool := rfl
@[simp] theorem State.setRing_rings (s : State) (c : Camera) (r : RingRec) :
    (s.setRing c r).rings = upd s.rings c r := rfl
@[simp] theorem State.setRing_cadence (s : State) (c : Camera) (r : RingRec) :
    (s.setRing c r).cadence = s.cadence := rfl
@[simp] theorem State.setRing_lens (s : State) (c : Camera) (r : RingRec) : (s.setRing c r).lens = s.lens := rfl
@[simp] theorem State.setRing_contexts (s : State) (c : Camera) (r : RingRec) :
    (s.setRing c r).contexts = s.contexts := rfl
@[simp] theorem State.setRing_doorUnit (s : State) (c : Camera) (r : RingRec) :
    (s.setRing c r).doorUnit = s.doorUnit := rfl
@[simp] theorem State.setRing_spots (s : State) (c : Camera) (r : RingRec) : (s.setRing c r).spots = s.spots := rfl
@[simp] theorem State.setRing_holds (s : State) (c : Camera) (r : RingRec) : (s.setRing c r).holds = s.holds := rfl
@[simp] theorem State.setRing_engine (s : State) (c : Camera) (r : RingRec) : (s.setRing c r).engine = s.engine := rfl
@[simp] theorem State.setRing_ring (s : State) (c : Camera) (r : RingRec) : (s.setRing c r).ring = s.ring := rfl
@[simp] theorem State.setRing_episodes (s : State) (c : Camera) (r : RingRec) :
    (s.setRing c r).episodes = s.episodes := rfl
@[simp] theorem State.setRing_pending (s : State) (c : Camera) (r : RingRec) :
    (s.setRing c r).pending = s.pending := rfl

/-! ### setCadence -/

@[simp] theorem State.setCadence_condition (s : State) (c : Camera) (r : CadenceRec) :
    (s.setCadence c r).condition = s.condition := rfl
@[simp] theorem State.setCadence_straps (s : State) (c : Camera) (r : CadenceRec) :
    (s.setCadence c r).straps = s.straps := rfl
@[simp] theorem State.setCadence_lines (s : State) (c : Camera) (r : CadenceRec) :
    (s.setCadence c r).lines = s.lines := rfl
@[simp] theorem State.setCadence_port (s : State) (c : Camera) (r : CadenceRec) :
    (s.setCadence c r).port = s.port := rfl
@[simp] theorem State.setCadence_time (s : State) (c : Camera) (r : CadenceRec) :
    (s.setCadence c r).time = s.time := rfl
@[simp] theorem State.setCadence_mem (s : State) (c : Camera) (r : CadenceRec) : (s.setCadence c r).mem = s.mem := rfl
@[simp] theorem State.setCadence_setup (s : State) (c : Camera) (r : CadenceRec) :
    (s.setCadence c r).setup = s.setup := rfl
@[simp] theorem State.setCadence_cameras (s : State) (c : Camera) (r : CadenceRec) :
    (s.setCadence c r).cameras = s.cameras := rfl
@[simp] theorem State.setCadence_doors (s : State) (c : Camera) (r : CadenceRec) :
    (s.setCadence c r).doors = s.doors := rfl
@[simp] theorem State.setCadence_screens (s : State) (c : Camera) (r : CadenceRec) :
    (s.setCadence c r).screens = s.screens := rfl
@[simp] theorem State.setCadence_layouts (s : State) (c : Camera) (r : CadenceRec) :
    (s.setCadence c r).layouts = s.layouts := rfl
@[simp] theorem State.setCadence_panes (s : State) (c : Camera) (r : CadenceRec) :
    (s.setCadence c r).panes = s.panes := rfl
@[simp] theorem State.setCadence_pool (s : State) (c : Camera) (r : CadenceRec) :
    (s.setCadence c r).pool = s.pool := rfl
@[simp] theorem State.setCadence_rings (s : State) (c : Camera) (r : CadenceRec) :
    (s.setCadence c r).rings = s.rings := rfl
@[simp] theorem State.setCadence_cadence (s : State) (c : Camera) (r : CadenceRec) :
    (s.setCadence c r).cadence = upd s.cadence c r := rfl
@[simp] theorem State.setCadence_lens (s : State) (c : Camera) (r : CadenceRec) :
    (s.setCadence c r).lens = s.lens := rfl
@[simp] theorem State.setCadence_contexts (s : State) (c : Camera) (r : CadenceRec) :
    (s.setCadence c r).contexts = s.contexts := rfl
@[simp] theorem State.setCadence_doorUnit (s : State) (c : Camera) (r : CadenceRec) :
    (s.setCadence c r).doorUnit = s.doorUnit := rfl
@[simp] theorem State.setCadence_spots (s : State) (c : Camera) (r : CadenceRec) :
    (s.setCadence c r).spots = s.spots := rfl
@[simp] theorem State.setCadence_holds (s : State) (c : Camera) (r : CadenceRec) :
    (s.setCadence c r).holds = s.holds := rfl
@[simp] theorem State.setCadence_engine (s : State) (c : Camera) (r : CadenceRec) :
    (s.setCadence c r).engine = s.engine := rfl
@[simp] theorem State.setCadence_ring (s : State) (c : Camera) (r : CadenceRec) :
    (s.setCadence c r).ring = s.ring := rfl
@[simp] theorem State.setCadence_episodes (s : State) (c : Camera) (r : CadenceRec) :
    (s.setCadence c r).episodes = s.episodes := rfl
@[simp] theorem State.setCadence_pending (s : State) (c : Camera) (r : CadenceRec) :
    (s.setCadence c r).pending = s.pending := rfl

/-! ### setLens -/

@[simp] theorem State.setLens_condition (s : State) (c : Camera) (r : LensRec) :
    (s.setLens c r).condition = s.condition := rfl
@[simp] theorem State.setLens_straps (s : State) (c : Camera) (r : LensRec) : (s.setLens c r).straps = s.straps := rfl
@[simp] theorem State.setLens_lines (s : State) (c : Camera) (r : LensRec) : (s.setLens c r).lines = s.lines := rfl
@[simp] theorem State.setLens_port (s : State) (c : Camera) (r : LensRec) : (s.setLens c r).port = s.port := rfl
@[simp] theorem State.setLens_time (s : State) (c : Camera) (r : LensRec) : (s.setLens c r).time = s.time := rfl
@[simp] theorem State.setLens_mem (s : State) (c : Camera) (r : LensRec) : (s.setLens c r).mem = s.mem := rfl
@[simp] theorem State.setLens_setup (s : State) (c : Camera) (r : LensRec) : (s.setLens c r).setup = s.setup := rfl
@[simp] theorem State.setLens_cameras (s : State) (c : Camera) (r : LensRec) :
    (s.setLens c r).cameras = s.cameras := rfl
@[simp] theorem State.setLens_doors (s : State) (c : Camera) (r : LensRec) : (s.setLens c r).doors = s.doors := rfl
@[simp] theorem State.setLens_screens (s : State) (c : Camera) (r : LensRec) :
    (s.setLens c r).screens = s.screens := rfl
@[simp] theorem State.setLens_layouts (s : State) (c : Camera) (r : LensRec) :
    (s.setLens c r).layouts = s.layouts := rfl
@[simp] theorem State.setLens_panes (s : State) (c : Camera) (r : LensRec) : (s.setLens c r).panes = s.panes := rfl
@[simp] theorem State.setLens_pool (s : State) (c : Camera) (r : LensRec) : (s.setLens c r).pool = s.pool := rfl
@[simp] theorem State.setLens_rings (s : State) (c : Camera) (r : LensRec) : (s.setLens c r).rings = s.rings := rfl
@[simp] theorem State.setLens_cadence (s : State) (c : Camera) (r : LensRec) :
    (s.setLens c r).cadence = s.cadence := rfl
@[simp] theorem State.setLens_lens (s : State) (c : Camera) (r : LensRec) : (s.setLens c r).lens = upd s.lens c r := rfl
@[simp] theorem State.setLens_contexts (s : State) (c : Camera) (r : LensRec) :
    (s.setLens c r).contexts = s.contexts := rfl
@[simp] theorem State.setLens_doorUnit (s : State) (c : Camera) (r : LensRec) :
    (s.setLens c r).doorUnit = s.doorUnit := rfl
@[simp] theorem State.setLens_spots (s : State) (c : Camera) (r : LensRec) : (s.setLens c r).spots = s.spots := rfl
@[simp] theorem State.setLens_holds (s : State) (c : Camera) (r : LensRec) : (s.setLens c r).holds = s.holds := rfl
@[simp] theorem State.setLens_engine (s : State) (c : Camera) (r : LensRec) : (s.setLens c r).engine = s.engine := rfl
@[simp] theorem State.setLens_ring (s : State) (c : Camera) (r : LensRec) : (s.setLens c r).ring = s.ring := rfl
@[simp] theorem State.setLens_episodes (s : State) (c : Camera) (r : LensRec) :
    (s.setLens c r).episodes = s.episodes := rfl
@[simp] theorem State.setLens_pending (s : State) (c : Camera) (r : LensRec) :
    (s.setLens c r).pending = s.pending := rfl

/-! ### setContext -/

@[simp] theorem State.setContext_condition (s : State) (i : Screen) (x : Option ScanContext) :
    (s.setContext i x).condition = s.condition := rfl
@[simp] theorem State.setContext_straps (s : State) (i : Screen) (x : Option ScanContext) :
    (s.setContext i x).straps = s.straps := rfl
@[simp] theorem State.setContext_lines (s : State) (i : Screen) (x : Option ScanContext) :
    (s.setContext i x).lines = s.lines := rfl
@[simp] theorem State.setContext_port (s : State) (i : Screen) (x : Option ScanContext) :
    (s.setContext i x).port = s.port := rfl
@[simp] theorem State.setContext_time (s : State) (i : Screen) (x : Option ScanContext) :
    (s.setContext i x).time = s.time := rfl
@[simp] theorem State.setContext_mem (s : State) (i : Screen) (x : Option ScanContext) :
    (s.setContext i x).mem = s.mem := rfl
@[simp] theorem State.setContext_setup (s : State) (i : Screen) (x : Option ScanContext) :
    (s.setContext i x).setup = s.setup := rfl
@[simp] theorem State.setContext_cameras (s : State) (i : Screen) (x : Option ScanContext) :
    (s.setContext i x).cameras = s.cameras := rfl
@[simp] theorem State.setContext_doors (s : State) (i : Screen) (x : Option ScanContext) :
    (s.setContext i x).doors = s.doors := rfl
@[simp] theorem State.setContext_screens (s : State) (i : Screen) (x : Option ScanContext) :
    (s.setContext i x).screens = s.screens := rfl
@[simp] theorem State.setContext_layouts (s : State) (i : Screen) (x : Option ScanContext) :
    (s.setContext i x).layouts = s.layouts := rfl
@[simp] theorem State.setContext_panes (s : State) (i : Screen) (x : Option ScanContext) :
    (s.setContext i x).panes = s.panes := rfl
@[simp] theorem State.setContext_pool (s : State) (i : Screen) (x : Option ScanContext) :
    (s.setContext i x).pool = s.pool := rfl
@[simp] theorem State.setContext_rings (s : State) (i : Screen) (x : Option ScanContext) :
    (s.setContext i x).rings = s.rings := rfl
@[simp] theorem State.setContext_cadence (s : State) (i : Screen) (x : Option ScanContext) :
    (s.setContext i x).cadence = s.cadence := rfl
@[simp] theorem State.setContext_lens (s : State) (i : Screen) (x : Option ScanContext) :
    (s.setContext i x).lens = s.lens := rfl
@[simp] theorem State.setContext_contexts (s : State) (i : Screen) (x : Option ScanContext) :
    (s.setContext i x).contexts = upd s.contexts i x := rfl
@[simp] theorem State.setContext_doorUnit (s : State) (i : Screen) (x : Option ScanContext) :
    (s.setContext i x).doorUnit = s.doorUnit := rfl
@[simp] theorem State.setContext_spots (s : State) (i : Screen) (x : Option ScanContext) :
    (s.setContext i x).spots = s.spots := rfl
@[simp] theorem State.setContext_holds (s : State) (i : Screen) (x : Option ScanContext) :
    (s.setContext i x).holds = s.holds := rfl
@[simp] theorem State.setContext_engine (s : State) (i : Screen) (x : Option ScanContext) :
    (s.setContext i x).engine = s.engine := rfl
@[simp] theorem State.setContext_ring (s : State) (i : Screen) (x : Option ScanContext) :
    (s.setContext i x).ring = s.ring := rfl
@[simp] theorem State.setContext_episodes (s : State) (i : Screen) (x : Option ScanContext) :
    (s.setContext i x).episodes = s.episodes := rfl
@[simp] theorem State.setContext_pending (s : State) (i : Screen) (x : Option ScanContext) :
    (s.setContext i x).pending = s.pending := rfl

/-! ### setSpot -/

@[simp] theorem State.setSpot_condition (s : State) (i : Screen) (l : SpotList) :
    (s.setSpot i l).condition = s.condition := rfl
@[simp] theorem State.setSpot_straps (s : State) (i : Screen) (l : SpotList) : (s.setSpot i l).straps = s.straps := rfl
@[simp] theorem State.setSpot_lines (s : State) (i : Screen) (l : SpotList) : (s.setSpot i l).lines = s.lines := rfl
@[simp] theorem State.setSpot_port (s : State) (i : Screen) (l : SpotList) : (s.setSpot i l).port = s.port := rfl
@[simp] theorem State.setSpot_time (s : State) (i : Screen) (l : SpotList) : (s.setSpot i l).time = s.time := rfl
@[simp] theorem State.setSpot_mem (s : State) (i : Screen) (l : SpotList) : (s.setSpot i l).mem = s.mem := rfl
@[simp] theorem State.setSpot_setup (s : State) (i : Screen) (l : SpotList) : (s.setSpot i l).setup = s.setup := rfl
@[simp] theorem State.setSpot_cameras (s : State) (i : Screen) (l : SpotList) :
    (s.setSpot i l).cameras = s.cameras := rfl
@[simp] theorem State.setSpot_doors (s : State) (i : Screen) (l : SpotList) : (s.setSpot i l).doors = s.doors := rfl
@[simp] theorem State.setSpot_screens (s : State) (i : Screen) (l : SpotList) :
    (s.setSpot i l).screens = s.screens := rfl
@[simp] theorem State.setSpot_layouts (s : State) (i : Screen) (l : SpotList) :
    (s.setSpot i l).layouts = s.layouts := rfl
@[simp] theorem State.setSpot_panes (s : State) (i : Screen) (l : SpotList) : (s.setSpot i l).panes = s.panes := rfl
@[simp] theorem State.setSpot_pool (s : State) (i : Screen) (l : SpotList) : (s.setSpot i l).pool = s.pool := rfl
@[simp] theorem State.setSpot_rings (s : State) (i : Screen) (l : SpotList) : (s.setSpot i l).rings = s.rings := rfl
@[simp] theorem State.setSpot_cadence (s : State) (i : Screen) (l : SpotList) :
    (s.setSpot i l).cadence = s.cadence := rfl
@[simp] theorem State.setSpot_lens (s : State) (i : Screen) (l : SpotList) : (s.setSpot i l).lens = s.lens := rfl
@[simp] theorem State.setSpot_contexts (s : State) (i : Screen) (l : SpotList) :
    (s.setSpot i l).contexts = s.contexts := rfl
@[simp] theorem State.setSpot_doorUnit (s : State) (i : Screen) (l : SpotList) :
    (s.setSpot i l).doorUnit = s.doorUnit := rfl
@[simp] theorem State.setSpot_spots (s : State) (i : Screen) (l : SpotList) :
    (s.setSpot i l).spots = upd s.spots i l := rfl
@[simp] theorem State.setSpot_holds (s : State) (i : Screen) (l : SpotList) : (s.setSpot i l).holds = s.holds := rfl
@[simp] theorem State.setSpot_engine (s : State) (i : Screen) (l : SpotList) : (s.setSpot i l).engine = s.engine := rfl
@[simp] theorem State.setSpot_ring (s : State) (i : Screen) (l : SpotList) : (s.setSpot i l).ring = s.ring := rfl
@[simp] theorem State.setSpot_episodes (s : State) (i : Screen) (l : SpotList) :
    (s.setSpot i l).episodes = s.episodes := rfl
@[simp] theorem State.setSpot_pending (s : State) (i : Screen) (l : SpotList) :
    (s.setSpot i l).pending = s.pending := rfl

/-! ### setEpisode -/

@[simp] theorem State.setEpisode_condition (s : State) (k : Fin 7) (e : Option Episode) :
    (s.setEpisode k e).condition = s.condition := rfl
@[simp] theorem State.setEpisode_straps (s : State) (k : Fin 7) (e : Option Episode) :
    (s.setEpisode k e).straps = s.straps := rfl
@[simp] theorem State.setEpisode_lines (s : State) (k : Fin 7) (e : Option Episode) :
    (s.setEpisode k e).lines = s.lines := rfl
@[simp] theorem State.setEpisode_port (s : State) (k : Fin 7) (e : Option Episode) :
    (s.setEpisode k e).port = s.port := rfl
@[simp] theorem State.setEpisode_time (s : State) (k : Fin 7) (e : Option Episode) :
    (s.setEpisode k e).time = s.time := rfl
@[simp] theorem State.setEpisode_mem (s : State) (k : Fin 7) (e : Option Episode) :
    (s.setEpisode k e).mem = s.mem := rfl
@[simp] theorem State.setEpisode_setup (s : State) (k : Fin 7) (e : Option Episode) :
    (s.setEpisode k e).setup = s.setup := rfl
@[simp] theorem State.setEpisode_cameras (s : State) (k : Fin 7) (e : Option Episode) :
    (s.setEpisode k e).cameras = s.cameras := rfl
@[simp] theorem State.setEpisode_doors (s : State) (k : Fin 7) (e : Option Episode) :
    (s.setEpisode k e).doors = s.doors := rfl
@[simp] theorem State.setEpisode_screens (s : State) (k : Fin 7) (e : Option Episode) :
    (s.setEpisode k e).screens = s.screens := rfl
@[simp] theorem State.setEpisode_layouts (s : State) (k : Fin 7) (e : Option Episode) :
    (s.setEpisode k e).layouts = s.layouts := rfl
@[simp] theorem State.setEpisode_panes (s : State) (k : Fin 7) (e : Option Episode) :
    (s.setEpisode k e).panes = s.panes := rfl
@[simp] theorem State.setEpisode_pool (s : State) (k : Fin 7) (e : Option Episode) :
    (s.setEpisode k e).pool = s.pool := rfl
@[simp] theorem State.setEpisode_rings (s : State) (k : Fin 7) (e : Option Episode) :
    (s.setEpisode k e).rings = s.rings := rfl
@[simp] theorem State.setEpisode_cadence (s : State) (k : Fin 7) (e : Option Episode) :
    (s.setEpisode k e).cadence = s.cadence := rfl
@[simp] theorem State.setEpisode_lens (s : State) (k : Fin 7) (e : Option Episode) :
    (s.setEpisode k e).lens = s.lens := rfl
@[simp] theorem State.setEpisode_contexts (s : State) (k : Fin 7) (e : Option Episode) :
    (s.setEpisode k e).contexts = s.contexts := rfl
@[simp] theorem State.setEpisode_doorUnit (s : State) (k : Fin 7) (e : Option Episode) :
    (s.setEpisode k e).doorUnit = s.doorUnit := rfl
@[simp] theorem State.setEpisode_spots (s : State) (k : Fin 7) (e : Option Episode) :
    (s.setEpisode k e).spots = s.spots := rfl
@[simp] theorem State.setEpisode_holds (s : State) (k : Fin 7) (e : Option Episode) :
    (s.setEpisode k e).holds = s.holds := rfl
@[simp] theorem State.setEpisode_engine (s : State) (k : Fin 7) (e : Option Episode) :
    (s.setEpisode k e).engine = s.engine := rfl
@[simp] theorem State.setEpisode_ring (s : State) (k : Fin 7) (e : Option Episode) :
    (s.setEpisode k e).ring = s.ring := rfl
@[simp] theorem State.setEpisode_episodes (s : State) (k : Fin 7) (e : Option Episode) :
    (s.setEpisode k e).episodes = upd s.episodes k e := rfl
@[simp] theorem State.setEpisode_pending (s : State) (k : Fin 7) (e : Option Episode) :
    (s.setEpisode k e).pending = s.pending := rfl

/-! ### setHold -/

@[simp] theorem State.setHold_condition (s : State) (h : HoldId) (x : Option Hold) :
    (s.setHold h x).condition = s.condition := rfl
@[simp] theorem State.setHold_straps (s : State) (h : HoldId) (x : Option Hold) :
    (s.setHold h x).straps = s.straps := rfl
@[simp] theorem State.setHold_lines (s : State) (h : HoldId) (x : Option Hold) : (s.setHold h x).lines = s.lines := rfl
@[simp] theorem State.setHold_port (s : State) (h : HoldId) (x : Option Hold) : (s.setHold h x).port = s.port := rfl
@[simp] theorem State.setHold_time (s : State) (h : HoldId) (x : Option Hold) : (s.setHold h x).time = s.time := rfl
@[simp] theorem State.setHold_mem (s : State) (h : HoldId) (x : Option Hold) : (s.setHold h x).mem = s.mem := rfl
@[simp] theorem State.setHold_setup (s : State) (h : HoldId) (x : Option Hold) : (s.setHold h x).setup = s.setup := rfl
@[simp] theorem State.setHold_cameras (s : State) (h : HoldId) (x : Option Hold) :
    (s.setHold h x).cameras = s.cameras := rfl
@[simp] theorem State.setHold_doors (s : State) (h : HoldId) (x : Option Hold) : (s.setHold h x).doors = s.doors := rfl
@[simp] theorem State.setHold_screens (s : State) (h : HoldId) (x : Option Hold) :
    (s.setHold h x).screens = s.screens := rfl
@[simp] theorem State.setHold_layouts (s : State) (h : HoldId) (x : Option Hold) :
    (s.setHold h x).layouts = s.layouts := rfl
@[simp] theorem State.setHold_panes (s : State) (h : HoldId) (x : Option Hold) : (s.setHold h x).panes = s.panes := rfl
@[simp] theorem State.setHold_pool (s : State) (h : HoldId) (x : Option Hold) : (s.setHold h x).pool = s.pool := rfl
@[simp] theorem State.setHold_rings (s : State) (h : HoldId) (x : Option Hold) : (s.setHold h x).rings = s.rings := rfl
@[simp] theorem State.setHold_cadence (s : State) (h : HoldId) (x : Option Hold) :
    (s.setHold h x).cadence = s.cadence := rfl
@[simp] theorem State.setHold_lens (s : State) (h : HoldId) (x : Option Hold) : (s.setHold h x).lens = s.lens := rfl
@[simp] theorem State.setHold_contexts (s : State) (h : HoldId) (x : Option Hold) :
    (s.setHold h x).contexts = s.contexts := rfl
@[simp] theorem State.setHold_doorUnit (s : State) (h : HoldId) (x : Option Hold) :
    (s.setHold h x).doorUnit = s.doorUnit := rfl
@[simp] theorem State.setHold_spots (s : State) (h : HoldId) (x : Option Hold) : (s.setHold h x).spots = s.spots := rfl
@[simp] theorem State.setHold_holds (s : State) (h : HoldId) (x : Option Hold) :
    (s.setHold h x).holds = { s.holds with table := upd s.holds.table h x } := rfl
@[simp] theorem State.setHold_engine (s : State) (h : HoldId) (x : Option Hold) :
    (s.setHold h x).engine = s.engine := rfl
@[simp] theorem State.setHold_ring (s : State) (h : HoldId) (x : Option Hold) : (s.setHold h x).ring = s.ring := rfl
@[simp] theorem State.setHold_episodes (s : State) (h : HoldId) (x : Option Hold) :
    (s.setHold h x).episodes = s.episodes := rfl
@[simp] theorem State.setHold_pending (s : State) (h : HoldId) (x : Option Hold) :
    (s.setHold h x).pending = s.pending := rfl

/-! ### setMem -/

@[simp] theorem State.setMem_condition (s : State) (m : Memory) : (s.setMem m).condition = s.condition := rfl
@[simp] theorem State.setMem_straps (s : State) (m : Memory) : (s.setMem m).straps = s.straps := rfl
@[simp] theorem State.setMem_lines (s : State) (m : Memory) : (s.setMem m).lines = s.lines := rfl
@[simp] theorem State.setMem_port (s : State) (m : Memory) : (s.setMem m).port = s.port := rfl
@[simp] theorem State.setMem_time (s : State) (m : Memory) : (s.setMem m).time = s.time := rfl
@[simp] theorem State.setMem_mem (s : State) (m : Memory) : (s.setMem m).mem = m := rfl
@[simp] theorem State.setMem_setup (s : State) (m : Memory) : (s.setMem m).setup = s.setup := rfl
@[simp] theorem State.setMem_cameras (s : State) (m : Memory) : (s.setMem m).cameras = s.cameras := rfl
@[simp] theorem State.setMem_doors (s : State) (m : Memory) : (s.setMem m).doors = s.doors := rfl
@[simp] theorem State.setMem_screens (s : State) (m : Memory) : (s.setMem m).screens = s.screens := rfl
@[simp] theorem State.setMem_layouts (s : State) (m : Memory) : (s.setMem m).layouts = s.layouts := rfl
@[simp] theorem State.setMem_panes (s : State) (m : Memory) : (s.setMem m).panes = s.panes := rfl
@[simp] theorem State.setMem_pool (s : State) (m : Memory) : (s.setMem m).pool = s.pool := rfl
@[simp] theorem State.setMem_rings (s : State) (m : Memory) : (s.setMem m).rings = s.rings := rfl
@[simp] theorem State.setMem_cadence (s : State) (m : Memory) : (s.setMem m).cadence = s.cadence := rfl
@[simp] theorem State.setMem_lens (s : State) (m : Memory) : (s.setMem m).lens = s.lens := rfl
@[simp] theorem State.setMem_contexts (s : State) (m : Memory) : (s.setMem m).contexts = s.contexts := rfl
@[simp] theorem State.setMem_doorUnit (s : State) (m : Memory) : (s.setMem m).doorUnit = s.doorUnit := rfl
@[simp] theorem State.setMem_spots (s : State) (m : Memory) : (s.setMem m).spots = s.spots := rfl
@[simp] theorem State.setMem_holds (s : State) (m : Memory) : (s.setMem m).holds = s.holds := rfl
@[simp] theorem State.setMem_engine (s : State) (m : Memory) : (s.setMem m).engine = s.engine := rfl
@[simp] theorem State.setMem_ring (s : State) (m : Memory) : (s.setMem m).ring = s.ring := rfl
@[simp] theorem State.setMem_episodes (s : State) (m : Memory) : (s.setMem m).episodes = s.episodes := rfl
@[simp] theorem State.setMem_pending (s : State) (m : Memory) : (s.setMem m).pending = s.pending := rfl

/-! ### setEngine -/

@[simp] theorem State.setEngine_condition (s : State) (e : Engine) : (s.setEngine e).condition = s.condition := rfl
@[simp] theorem State.setEngine_straps (s : State) (e : Engine) : (s.setEngine e).straps = s.straps := rfl
@[simp] theorem State.setEngine_lines (s : State) (e : Engine) : (s.setEngine e).lines = s.lines := rfl
@[simp] theorem State.setEngine_port (s : State) (e : Engine) : (s.setEngine e).port = s.port := rfl
@[simp] theorem State.setEngine_time (s : State) (e : Engine) : (s.setEngine e).time = s.time := rfl
@[simp] theorem State.setEngine_mem (s : State) (e : Engine) : (s.setEngine e).mem = s.mem := rfl
@[simp] theorem State.setEngine_setup (s : State) (e : Engine) : (s.setEngine e).setup = s.setup := rfl
@[simp] theorem State.setEngine_cameras (s : State) (e : Engine) : (s.setEngine e).cameras = s.cameras := rfl
@[simp] theorem State.setEngine_doors (s : State) (e : Engine) : (s.setEngine e).doors = s.doors := rfl
@[simp] theorem State.setEngine_screens (s : State) (e : Engine) : (s.setEngine e).screens = s.screens := rfl
@[simp] theorem State.setEngine_layouts (s : State) (e : Engine) : (s.setEngine e).layouts = s.layouts := rfl
@[simp] theorem State.setEngine_panes (s : State) (e : Engine) : (s.setEngine e).panes = s.panes := rfl
@[simp] theorem State.setEngine_pool (s : State) (e : Engine) : (s.setEngine e).pool = s.pool := rfl
@[simp] theorem State.setEngine_rings (s : State) (e : Engine) : (s.setEngine e).rings = s.rings := rfl
@[simp] theorem State.setEngine_cadence (s : State) (e : Engine) : (s.setEngine e).cadence = s.cadence := rfl
@[simp] theorem State.setEngine_lens (s : State) (e : Engine) : (s.setEngine e).lens = s.lens := rfl
@[simp] theorem State.setEngine_contexts (s : State) (e : Engine) : (s.setEngine e).contexts = s.contexts := rfl
@[simp] theorem State.setEngine_doorUnit (s : State) (e : Engine) : (s.setEngine e).doorUnit = s.doorUnit := rfl
@[simp] theorem State.setEngine_spots (s : State) (e : Engine) : (s.setEngine e).spots = s.spots := rfl
@[simp] theorem State.setEngine_holds (s : State) (e : Engine) : (s.setEngine e).holds = s.holds := rfl
@[simp] theorem State.setEngine_engine (s : State) (e : Engine) : (s.setEngine e).engine = e := rfl
@[simp] theorem State.setEngine_ring (s : State) (e : Engine) : (s.setEngine e).ring = s.ring := rfl
@[simp] theorem State.setEngine_episodes (s : State) (e : Engine) : (s.setEngine e).episodes = s.episodes := rfl
@[simp] theorem State.setEngine_pending (s : State) (e : Engine) : (s.setEngine e).pending = s.pending := rfl

/-! ### setSlot -/

@[simp] theorem State.setSlot_condition (s : State) (i : Nat) (r : SlotRec) :
    (s.setSlot i r).condition = s.condition := rfl
@[simp] theorem State.setSlot_straps (s : State) (i : Nat) (r : SlotRec) : (s.setSlot i r).straps = s.straps := rfl
@[simp] theorem State.setSlot_lines (s : State) (i : Nat) (r : SlotRec) : (s.setSlot i r).lines = s.lines := rfl
@[simp] theorem State.setSlot_port (s : State) (i : Nat) (r : SlotRec) : (s.setSlot i r).port = s.port := rfl
@[simp] theorem State.setSlot_time (s : State) (i : Nat) (r : SlotRec) : (s.setSlot i r).time = s.time := rfl
@[simp] theorem State.setSlot_mem (s : State) (i : Nat) (r : SlotRec) : (s.setSlot i r).mem = s.mem := rfl
@[simp] theorem State.setSlot_setup (s : State) (i : Nat) (r : SlotRec) : (s.setSlot i r).setup = s.setup := rfl
@[simp] theorem State.setSlot_cameras (s : State) (i : Nat) (r : SlotRec) : (s.setSlot i r).cameras = s.cameras := rfl
@[simp] theorem State.setSlot_doors (s : State) (i : Nat) (r : SlotRec) : (s.setSlot i r).doors = s.doors := rfl
@[simp] theorem State.setSlot_screens (s : State) (i : Nat) (r : SlotRec) : (s.setSlot i r).screens = s.screens := rfl
@[simp] theorem State.setSlot_layouts (s : State) (i : Nat) (r : SlotRec) : (s.setSlot i r).layouts = s.layouts := rfl
@[simp] theorem State.setSlot_panes (s : State) (i : Nat) (r : SlotRec) : (s.setSlot i r).panes = s.panes := rfl
@[simp] theorem State.setSlot_pool (s : State) (i : Nat) (r : SlotRec) :
    (s.setSlot i r).pool = { s.pool with slots := s.pool.slots.set i r } := rfl
@[simp] theorem State.setSlot_rings (s : State) (i : Nat) (r : SlotRec) : (s.setSlot i r).rings = s.rings := rfl
@[simp] theorem State.setSlot_cadence (s : State) (i : Nat) (r : SlotRec) : (s.setSlot i r).cadence = s.cadence := rfl
@[simp] theorem State.setSlot_lens (s : State) (i : Nat) (r : SlotRec) : (s.setSlot i r).lens = s.lens := rfl
@[simp] theorem State.setSlot_contexts (s : State) (i : Nat) (r : SlotRec) :
    (s.setSlot i r).contexts = s.contexts := rfl
@[simp] theorem State.setSlot_doorUnit (s : State) (i : Nat) (r : SlotRec) :
    (s.setSlot i r).doorUnit = s.doorUnit := rfl
@[simp] theorem State.setSlot_spots (s : State) (i : Nat) (r : SlotRec) : (s.setSlot i r).spots = s.spots := rfl
@[simp] theorem State.setSlot_holds (s : State) (i : Nat) (r : SlotRec) : (s.setSlot i r).holds = s.holds := rfl
@[simp] theorem State.setSlot_engine (s : State) (i : Nat) (r : SlotRec) : (s.setSlot i r).engine = s.engine := rfl
@[simp] theorem State.setSlot_ring (s : State) (i : Nat) (r : SlotRec) : (s.setSlot i r).ring = s.ring := rfl
@[simp] theorem State.setSlot_episodes (s : State) (i : Nat) (r : SlotRec) :
    (s.setSlot i r).episodes = s.episodes := rfl
@[simp] theorem State.setSlot_pending (s : State) (i : Nat) (r : SlotRec) : (s.setSlot i r).pending = s.pending := rfl

/-! ### returnWord -/

@[simp] theorem State.returnWord_condition (s : State) (r : Requester) (w : Word) :
    (s.returnWord r w).condition = s.condition := rfl
@[simp] theorem State.returnWord_straps (s : State) (r : Requester) (w : Word) :
    (s.returnWord r w).straps = s.straps := rfl
@[simp] theorem State.returnWord_lines (s : State) (r : Requester) (w : Word) :
    (s.returnWord r w).lines = s.lines := rfl
@[simp] theorem State.returnWord_port (s : State) (r : Requester) (w : Word) :
    (s.returnWord r w).port = { s.port with read := some ⟨r.tag, w, r.last⟩ } := rfl
@[simp] theorem State.returnWord_time (s : State) (r : Requester) (w : Word) : (s.returnWord r w).time = s.time := rfl
@[simp] theorem State.returnWord_mem (s : State) (r : Requester) (w : Word) : (s.returnWord r w).mem = s.mem := rfl
@[simp] theorem State.returnWord_setup (s : State) (r : Requester) (w : Word) :
    (s.returnWord r w).setup = s.setup := rfl
@[simp] theorem State.returnWord_cameras (s : State) (r : Requester) (w : Word) :
    (s.returnWord r w).cameras = s.cameras := rfl
@[simp] theorem State.returnWord_doors (s : State) (r : Requester) (w : Word) :
    (s.returnWord r w).doors = s.doors := rfl
@[simp] theorem State.returnWord_screens (s : State) (r : Requester) (w : Word) :
    (s.returnWord r w).screens = s.screens := rfl
@[simp] theorem State.returnWord_layouts (s : State) (r : Requester) (w : Word) :
    (s.returnWord r w).layouts = s.layouts := rfl
@[simp] theorem State.returnWord_panes (s : State) (r : Requester) (w : Word) :
    (s.returnWord r w).panes = s.panes := rfl
@[simp] theorem State.returnWord_pool (s : State) (r : Requester) (w : Word) : (s.returnWord r w).pool = s.pool := rfl
@[simp] theorem State.returnWord_rings (s : State) (r : Requester) (w : Word) :
    (s.returnWord r w).rings = s.rings := rfl
@[simp] theorem State.returnWord_cadence (s : State) (r : Requester) (w : Word) :
    (s.returnWord r w).cadence = s.cadence := rfl
@[simp] theorem State.returnWord_lens (s : State) (r : Requester) (w : Word) : (s.returnWord r w).lens = s.lens := rfl
@[simp] theorem State.returnWord_contexts (s : State) (r : Requester) (w : Word) :
    (s.returnWord r w).contexts = s.contexts := rfl
@[simp] theorem State.returnWord_doorUnit (s : State) (r : Requester) (w : Word) :
    (s.returnWord r w).doorUnit = s.doorUnit := rfl
@[simp] theorem State.returnWord_spots (s : State) (r : Requester) (w : Word) :
    (s.returnWord r w).spots = s.spots := rfl
@[simp] theorem State.returnWord_holds (s : State) (r : Requester) (w : Word) :
    (s.returnWord r w).holds = s.holds := rfl
@[simp] theorem State.returnWord_engine (s : State) (r : Requester) (w : Word) :
    (s.returnWord r w).engine = s.engine := rfl
@[simp] theorem State.returnWord_ring (s : State) (r : Requester) (w : Word) : (s.returnWord r w).ring = s.ring := rfl
@[simp] theorem State.returnWord_episodes (s : State) (r : Requester) (w : Word) :
    (s.returnWord r w).episodes = s.episodes := rfl
@[simp] theorem State.returnWord_pending (s : State) (r : Requester) (w : Word) :
    (s.returnWord r w).pending = s.pending := rfl

/-! ### completeWrite -/

@[simp] theorem State.completeWrite_condition (s : State) (r : Requester) :
    (s.completeWrite r).condition = s.condition := rfl
@[simp] theorem State.completeWrite_straps (s : State) (r : Requester) : (s.completeWrite r).straps = s.straps := rfl
@[simp] theorem State.completeWrite_lines (s : State) (r : Requester) : (s.completeWrite r).lines = s.lines := rfl
@[simp] theorem State.completeWrite_port (s : State) (r : Requester) :
    (s.completeWrite r).port = { s.port with completed := if r.last then some r.tag else s.port.completed } := rfl
@[simp] theorem State.completeWrite_time (s : State) (r : Requester) : (s.completeWrite r).time = s.time := rfl
@[simp] theorem State.completeWrite_mem (s : State) (r : Requester) : (s.completeWrite r).mem = s.mem := rfl
@[simp] theorem State.completeWrite_setup (s : State) (r : Requester) : (s.completeWrite r).setup = s.setup := rfl
@[simp] theorem State.completeWrite_cameras (s : State) (r : Requester) : (s.completeWrite r).cameras = s.cameras := rfl
@[simp] theorem State.completeWrite_doors (s : State) (r : Requester) : (s.completeWrite r).doors = s.doors := rfl
@[simp] theorem State.completeWrite_screens (s : State) (r : Requester) : (s.completeWrite r).screens = s.screens := rfl
@[simp] theorem State.completeWrite_layouts (s : State) (r : Requester) : (s.completeWrite r).layouts = s.layouts := rfl
@[simp] theorem State.completeWrite_panes (s : State) (r : Requester) : (s.completeWrite r).panes = s.panes := rfl
@[simp] theorem State.completeWrite_pool (s : State) (r : Requester) : (s.completeWrite r).pool = s.pool := rfl
@[simp] theorem State.completeWrite_rings (s : State) (r : Requester) : (s.completeWrite r).rings = s.rings := rfl
@[simp] theorem State.completeWrite_cadence (s : State) (r : Requester) : (s.completeWrite r).cadence = s.cadence := rfl
@[simp] theorem State.completeWrite_lens (s : State) (r : Requester) : (s.completeWrite r).lens = s.lens := rfl
@[simp] theorem State.completeWrite_contexts (s : State) (r : Requester) :
    (s.completeWrite r).contexts = s.contexts := rfl
@[simp] theorem State.completeWrite_doorUnit (s : State) (r : Requester) :
    (s.completeWrite r).doorUnit = s.doorUnit := rfl
@[simp] theorem State.completeWrite_spots (s : State) (r : Requester) : (s.completeWrite r).spots = s.spots := rfl
@[simp] theorem State.completeWrite_holds (s : State) (r : Requester) : (s.completeWrite r).holds = s.holds := rfl
@[simp] theorem State.completeWrite_engine (s : State) (r : Requester) : (s.completeWrite r).engine = s.engine := rfl
@[simp] theorem State.completeWrite_ring (s : State) (r : Requester) : (s.completeWrite r).ring = s.ring := rfl
@[simp] theorem State.completeWrite_episodes (s : State) (r : Requester) :
    (s.completeWrite r).episodes = s.episodes := rfl
@[simp] theorem State.completeWrite_pending (s : State) (r : Requester) : (s.completeWrite r).pending = s.pending := rfl

end Sys2Proof.Machine
end

