-- ==== Sys2Proof/Laws/Memory.lean ====
section
/-! SUPPORT. Frame memory: a read after a write, the bytes a write leaves alone, and the canonical form
that every memory operation keeps. -/

namespace Sys2Proof.Machine

/-! ### The canonical form -/

theorem Memory.wfAbove_cons {f k : Nat} {v : Byte} {m : Memory} :
    Memory.wfAbove f ((k, v) :: m) = true ↔
      f ≤ k ∧ k < Config.memoryBytes ∧ v ≠ Config.unwrittenByte ∧ Memory.wfAbove (k + 1) m = true := by
  simp [Memory.wfAbove, and_assoc]

theorem Memory.wfAbove_mono {f g : Nat} {m : Memory} (h : f ≤ g) (w : Memory.wfAbove g m = true) :
    Memory.wfAbove f m = true := by
  cases m with
  | nil => rfl
  | cons x m =>
    obtain ⟨k, v⟩ := x
    rw [Memory.wfAbove_cons] at w ⊢
    exact ⟨h.trans w.1, w.2⟩

/-- A write at or above the floor keeps the canonical form. -/
theorem Memory.wfAbove_write {m : Memory} {f a : Nat} {b : Byte} (w : Memory.wfAbove f m = true) (hf : f ≤ a)
    (ha : a < Config.memoryBytes) : Memory.wfAbove f (m.write a b) = true := by
  induction m generalizing f with
  | nil =>
    by_cases hb : b = Config.unwrittenByte
    · simp [Memory.write, hb, Memory.wfAbove]
    · simp [Memory.write, hb, Memory.wfAbove, hf, ha]
  | cons x m ih =>
    obtain ⟨k, v⟩ := x
    rw [Memory.wfAbove_cons] at w
    obtain ⟨h1, h2, h3, h4⟩ := w
    by_cases hlt : a < k
    · by_cases hb : b = Config.unwrittenByte
      · simp [Memory.write, hlt, hb, Memory.wfAbove_cons, h1, h2, h3, h4]
      · simp only [Memory.write, hlt, hb, if_true, if_false, Memory.wfAbove_cons]
        exact ⟨hf, ha, hb, by omega, h2, h3, h4⟩
    · by_cases hk : a = k
      · by_cases hb : b = Config.unwrittenByte
        · simp only [Memory.write, hk, hb, if_true]
          simpa [hk] using Memory.wfAbove_mono (by omega) h4
        · simp only [Memory.write, hlt, if_false, if_pos hk, hb, Memory.wfAbove_cons]
          exact ⟨hf, ha, hb, by simpa [hk] using h4⟩
      · simp only [Memory.write, hlt, hk, if_false, Memory.wfAbove_cons]
        exact ⟨h1, h2, h3, ih h4 (by omega)⟩

theorem Memory.wf_write {m : Memory} {a : Nat} {b : Byte} (w : m.wf = true) (ha : a < Config.memoryBytes) :
    (m.write a b).wf = true := Memory.wfAbove_write w (Nat.zero_le a) ha

theorem physical_lt (a : Nat) : physical a < Config.memoryBytes := Nat.mod_lt _ (by decide)

theorem physical_of_lt {a : Nat} (h : a < Config.memoryBytes) : physical a = a := Nat.mod_eq_of_lt h

theorem Memory.wf_writeBytes {m : Memory} (bs : List Byte) {a : Nat} (w : m.wf = true) :
    (m.writeBytes a bs).wf = true := by
  induction bs generalizing m a with
  | nil => exact w
  | cons b bs ih => exact ih (Memory.wf_write w (physical_lt a))

theorem Memory.wf_writeEnabled {m : Memory} {a : Nat} {w : WriteData} (n i : Nat) (h : m.wf = true) :
    (m.writeEnabled a w i n).wf = true := by
  induction n generalizing m i with
  | zero => exact h
  | succ n ih =>
    unfold Memory.writeEnabled
    split
    · exact ih _ (Memory.wf_write h (physical_lt _))
    · exact ih _ h

/-- A write beat keeps the canonical form of frame memory. -/
theorem Memory.wf_writeWord {m : Memory} {a : Nat} {w : WriteData} (h : m.wf = true) :
    (m.writeWord a w).wf = true := Memory.wf_writeEnabled 8 0 h

/-! ### Reading -/

/-- The addresses of a memory rise strictly, from a floor up. -/
theorem Memory.read_of_lt_floor {m : Memory} {f a : Nat} (w : Memory.wfAbove f m = true) (h : a < f) :
    m.read a = Config.unwrittenByte := by
  induction m generalizing f with
  | nil => rfl
  | cons x m ih =>
    obtain ⟨k, v⟩ := x
    rw [Memory.wfAbove_cons] at w
    have hk : k ≠ a := by omega
    simp only [Memory.read, hk, if_false]
    exact ih w.2.2.2 (by omega)

/-- Reading the byte that was written, in canonical memory. -/
theorem Memory.read_write_self {m : Memory} {f a : Nat} {b : Byte} (w : Memory.wfAbove f m = true) :
    (m.write a b).read a = b := by
  induction m generalizing f with
  | nil => by_cases hb : b = Config.unwrittenByte <;> simp [Memory.write, hb, Memory.read]
  | cons x m ih =>
    obtain ⟨k, v⟩ := x
    rw [Memory.wfAbove_cons] at w
    have hm := w.2.2.2
    by_cases hlt : a < k
    · have hk : k ≠ a := by omega
      by_cases hb : b = Config.unwrittenByte
      · simp only [Memory.write, hlt, hb, if_true, Memory.read, hk, if_false]
        exact Memory.read_of_lt_floor hm (by omega)
      · simp [Memory.write, hlt, hb, Memory.read]
    · by_cases hk : a = k
      · by_cases hb : b = Config.unwrittenByte
        · simp only [Memory.write, hlt, if_false, if_pos hk, hb, if_true]
          exact Memory.read_of_lt_floor hm (by omega)
        · simp [Memory.write, hk, hb, Memory.read]
      · have hk' : k ≠ a := fun e => hk e.symm
        simp only [Memory.write, hlt, hk, if_false, Memory.read, hk']
        exact ih hm

/-- A write leaves every other byte alone. -/
theorem Memory.read_write_of_ne {m : Memory} {a x : Nat} {b : Byte} (h : x ≠ a) :
    (m.write a b).read x = m.read x := by
  have ha : a ≠ x := fun e => h e.symm
  induction m with
  | nil => by_cases hb : b = Config.unwrittenByte <;> simp [Memory.write, hb, Memory.read, ha]
  | cons y m ih =>
    obtain ⟨k, v⟩ := y
    by_cases hlt : a < k
    · by_cases hb : b = Config.unwrittenByte <;> simp [Memory.write, hlt, hb, Memory.read, ha]
    · by_cases hk : a = k
      · subst hk
        by_cases hb : b = Config.unwrittenByte <;> simp [Memory.write, hb, Memory.read, ha]
      · simp only [Memory.write, hlt, hk, if_false, Memory.read, ih]

/-- A byte outside the run of bytes written reads as before. -/
theorem Memory.read_writeBytes_of_ne {m : Memory} (bs : List Byte) {a x : Nat}
    (h : ∀ j, j < bs.length → x ≠ physical (a + j)) : (m.writeBytes a bs).read x = m.read x := by
  induction bs generalizing m a with
  | nil => rfl
  | cons b bs ih =>
    unfold Memory.writeBytes
    rw [ih (fun j hj => by
      have := h (j + 1) (by simpa using hj)
      rwa [Nat.add_assoc, Nat.add_comm 1 j]), Memory.read_write_of_ne]
    simpa using h 0 (by simp)

theorem Memory.read_writeEnabled_of_ne {a x : Nat} {w : WriteData} (n : Nat) {m : Memory} {i : Nat}
    (h : ∀ j, j < n → w.enables.getLsbD (i + j) = true → x ≠ physical (a + (i + j))) :
    (m.writeEnabled a w i n).read x = m.read x := by
  induction n generalizing m i with
  | zero => rfl
  | succ n ih =>
    unfold Memory.writeEnabled
    rw [ih (fun j hj he => by
      have := h (j + 1) (by omega)
      rw [show i + (j + 1) = i + 1 + j by omega] at this
      exact this he)]
    split
    · rename_i he
      exact Memory.read_write_of_ne (by simpa using h 0 (by omega) (by simpa using he))
    · rfl

/-- A byte outside the enabled bytes of a write beat reads as before. -/
theorem Memory.read_writeWord_of_ne {m : Memory} {a x : Nat} {w : WriteData}
    (h : ∀ j, j < 8 → w.enables.getLsbD j = true → x ≠ physical (a + j)) : (m.writeWord a w).read x = m.read x :=
  Memory.read_writeEnabled_of_ne 8 (by simpa using h)

theorem physical_add_inj {a i j : Nat} (hi : i < 64) (hj : j < 64) (h : physical (a + i) = physical (a + j)) :
    i = j := by
  unfold physical Config.memoryBytes at h
  omega

theorem Memory.read_writeEnabled_self {a : Nat} {w : WriteData} (n : Nat) {m : Memory} {i j : Nat}
    (hw : m.wf = true) (hn : i + n ≤ 8) (hij : i ≤ j) (hj : j < i + n) (he : w.enables.getLsbD j = true) :
    (m.writeEnabled a w i n).read (physical (a + j)) = byteOf w.data j := by
  induction n generalizing m i with
  | zero => omega
  | succ n ih =>
    unfold Memory.writeEnabled
    have hw' : (if w.enables.getLsbD i then m.write (physical (a + i)) (byteOf w.data i) else m).wf = true := by
      split
      · exact Memory.wf_write hw (physical_lt _)
      · exact hw
    by_cases hij' : i = j
    · subst hij'
      rw [if_pos he, Memory.read_writeEnabled_of_ne]
      · exact Memory.read_write_self (f := 0) hw
      · intro k hk _ hp
        have := physical_add_inj (by omega) (by omega) hp
        omega
    · exact ih hw' (by omega) (by omega) (by omega)

/-- An enabled byte of a write beat reads as written. -/
theorem Memory.read_writeWord_self {m : Memory} {a j : Nat} {w : WriteData} (hw : m.wf = true) (hj : j < 8)
    (he : w.enables.getLsbD j = true) : (m.writeWord a w).read (physical (a + j)) = byteOf w.data j :=
  Memory.read_writeEnabled_self 8 hw (by omega) (by omega) (by omega) he

/-- A byte of a run that was written reads as written. -/
theorem Memory.read_writeBytes_self {m : Memory} (bs : List Byte) {a j : Nat} (hw : m.wf = true)
    (hl : bs.length ≤ 64) (hj : j < bs.length) : (m.writeBytes a bs).read (physical (a + j)) = bs[j] := by
  induction bs generalizing m a j with
  | nil => simp at hj
  | cons b bs ih =>
    unfold Memory.writeBytes
    cases j with
    | zero =>
      rw [Memory.read_writeBytes_of_ne]
      · exact Memory.read_write_self (f := 0) hw
      · intro k hk hp
        have hk' : k + 1 < 64 := by simp at hl; omega
        rw [show a + 1 + k = a + (k + 1) by omega] at hp
        have := physical_add_inj (by omega) hk' hp
        omega
    | succ j =>
      have := ih (m := m.write (physical a) b) (a := a + 1) (j := j) (Memory.wf_write hw (physical_lt _))
        (by simp at hl; omega) (by simpa using hj)
      rw [show a + 1 + j = a + (j + 1) by omega] at this
      simpa using this

/-- The memory of the reset state lists nothing. -/
theorem reset_mem_wf : State.reset.mem.wf = true := rfl

end Sys2Proof.Machine
end

