-- ==== Sys2Proof/Laws/Frame.lean ====
section
/-! SUPPORT. `Effect ps s t`: from `s` to `t` at most the pieces `ps` change, and frame memory and the
report ring change only by reports that the Report Writer took. Effects compose, so each operation of
the part has one lemma that says everything it can do outside its own block. -/

namespace Sys2Proof.Machine

/-! ### Touches -/

theorem Touches.refl (ps : List Piece) (s : State) : Touches ps s s := fun p _ => by cases p <;> rfl

theorem Piece.same_trans {s t u : State} {p : Piece} (h : p.same s t) (k : p.same t u) : p.same s u := by
  cases p <;> exact Eq.trans k h

theorem Touches.trans {ps qs : List Piece} {s t u : State} (h : Touches ps s t) (k : Touches qs t u) :
    Touches (ps ++ qs) s u := fun p hp =>
  Piece.same_trans (h p fun x => hp (List.mem_append.2 (.inl x))) (k p fun x => hp (List.mem_append.2 (.inr x)))

theorem Touches.mono {ps qs : List Piece} {s t : State} (h : Touches ps s t) (hs : ps ⊆ qs) : Touches qs s t :=
  fun p hp => h p fun x => hp (hs x)

/-! ### What a report changes -/

/-- A report changes frame memory and the report ring alone. -/
theorem State.emit_touches (s : State) (r : Report) : Touches [.mem, .ring] s (s.emit r) := by
  intro p hp
  cases p <;> first | rfl | exact absurd hp (by decide)

theorem State.emitAll_touches (s : State) (rs : List Report) : Touches [.mem, .ring] s (s.emitAll rs) := by
  induction rs generalizing s with
  | nil => exact .refl _ s
  | cons r rs ih => exact ((s.emit_touches r).trans (ih _)).mono (by decide)

@[simp] theorem State.emitAll_nil (s : State) : s.emitAll [] = s := rfl

@[simp] theorem State.emitAll_cons (s : State) (r : Report) (rs : List Report) :
    s.emitAll (r :: rs) = (s.emit r).emitAll rs := rfl

theorem State.emitAll_append (s : State) (rs qs : List Report) : s.emitAll (rs ++ qs) = (s.emitAll rs).emitAll qs := by
  simp [State.emitAll, List.foldl_append]

/-- What the Report Writer writes depends on frame memory, its ring and the time base alone. -/
theorem State.emit_congr {s t : State} (r : Report) (hm : t.mem = s.mem) (hr : t.ring = s.ring)
    (ht : t.time = s.time) :
    (t.emit r).mem = (s.emit r).mem ∧ (t.emit r).ring = (s.emit r).ring ∧ (t.emit r).time = (s.emit r).time := by
  simp [State.emit, hm, hr, ht]

theorem State.emitAll_congr {s t : State} (rs : List Report) (hm : t.mem = s.mem) (hr : t.ring = s.ring)
    (ht : t.time = s.time) : (t.emitAll rs).mem = (s.emitAll rs).mem ∧ (t.emitAll rs).ring = (s.emitAll rs).ring := by
  induction rs generalizing s t with
  | nil => exact ⟨hm, hr⟩
  | cons r rs ih =>
    obtain ⟨h1, h2, h3⟩ := State.emit_congr r hm hr ht
    exact ih h1 h2 h3

/-! ### Effects -/

/-- From `s` to `t` at most the pieces `ps` change beside frame memory and the report ring, which change
only by reports taken at the standing time. -/
structure Effect (ps : List Piece) (s t : State) : Prop where
  touches : Touches (.mem :: .ring :: ps) s t
  time : t.time = s.time
  logs : ∃ rs, t.mem = (s.emitAll rs).mem ∧ t.ring = (s.emitAll rs).ring

theorem Effect.refl (ps : List Piece) (s : State) : Effect ps s s := ⟨.refl _ s, rfl, [], rfl, rfl⟩

theorem Effect.trans {ps qs : List Piece} {s t u : State} (h : Effect ps s t) (k : Effect qs t u) :
    Effect (ps ++ qs) s u := by
  obtain ⟨ht, hx, rs, h1, h2⟩ := h
  obtain ⟨kt, kx, qs', k1, k2⟩ := k
  refine ⟨(ht.trans kt).mono ?_, kx.trans hx, rs ++ qs', ?_⟩
  · intro p hp
    simp only [List.mem_append, List.mem_cons] at hp ⊢
    tauto
  · have hc := State.emitAll_congr (s := s.emitAll rs) qs' h1 h2 (by
      rw [hx]; exact ((s.emitAll_touches rs) .time (by decide)).symm)
    rw [State.emitAll_append, k1, k2]
    exact hc

theorem Effect.mono {ps qs : List Piece} {s t : State} (h : Effect ps s t) (hs : ps ⊆ qs) : Effect qs s t :=
  ⟨h.touches.mono (by intro p hp; simp only [List.mem_cons] at hp ⊢; have := @hs p; tauto), h.time, h.logs⟩

/-- An update of block state alone, with no report. -/
theorem Effect.quiet {ps : List Piece} {s t : State} (h : Touches ps s t) (hm : t.mem = s.mem)
    (hr : t.ring = s.ring) (ht : t.time = s.time) : Effect ps s t :=
  ⟨h.mono (by intro p hp; simp only [List.mem_cons]; tauto), ht, [], hm, hr⟩

theorem Effect.emit (s : State) (r : Report) : Effect [] s (s.emit r) := ⟨s.emit_touches r, rfl, [r], rfl, rfl⟩

theorem Effect.emitAll (s : State) (rs : List Report) : Effect [] s (s.emitAll rs) :=
  ⟨s.emitAll_touches rs, (s.emitAll_touches rs) .time (by decide), rs, rfl, rfl⟩

theorem Effect.foldl {α : Type} {ps : List Piece} {f : State → α → State} (h : ∀ s x, Effect ps s (f s x)) (l : List α)
    (s : State) : Effect ps s (l.foldl f s) := by
  induction l generalizing s with
  | nil => exact .refl ps s
  | cons x l ih => exact ((h s x).trans (ih _)).mono (by simp)

/-- A choice of two operations. -/
theorem Effect.ite {ps : List Piece} {s t u : State} {p : Prop} [Decidable p] (h : p → Effect ps s t)
    (k : ¬p → Effect ps s u) : Effect ps s (if p then t else u) := by
  split
  · exact h ‹_›
  · exact k ‹_›

end Sys2Proof.Machine
end

