-- ==== Sys2Proof/Laws/Effects.lean ====
section
/-! SUPPORT. The effect of every operation of the blocks: the pieces of State it can change, with its
reports as the only change of frame memory and the report ring. One lemma for each operation; callers
cite it and do not unfold the operation. -/

namespace Sys2Proof.Machine

/-! ### Setters -/

theorem State.setCamera_effect (s : State) (c : Camera) (r : CameraRec) : Effect [.cameras] s (s.setCamera c r) :=
  .quiet (by intro p hp; cases p <;> first | rfl | exact absurd hp (by decide)) rfl rfl rfl

theorem State.setDoor_effect (s : State) (d : Door) (r : DoorRec) : Effect [.doors] s (s.setDoor d r) :=
  .quiet (by intro p hp; cases p <;> first | rfl | exact absurd hp (by decide)) rfl rfl rfl

theorem State.setScreen_effect (s : State) (i : Screen) (r : ScreenRec) : Effect [.screens] s (s.setScreen i r) :=
  .quiet (by intro p hp; cases p <;> first | rfl | exact absurd hp (by decide)) rfl rfl rfl

theorem State.setRing_effect (s : State) (c : Camera) (r : RingRec) : Effect [.rings] s (s.setRing c r) :=
  .quiet (by intro p hp; cases p <;> first | rfl | exact absurd hp (by decide)) rfl rfl rfl

theorem State.setCadence_effect (s : State) (c : Camera) (r : CadenceRec) : Effect [.cadence] s (s.setCadence c r) :=
  .quiet (by intro p hp; cases p <;> first | rfl | exact absurd hp (by decide)) rfl rfl rfl

theorem State.setLens_effect (s : State) (c : Camera) (r : LensRec) : Effect [.lens] s (s.setLens c r) :=
  .quiet (by intro p hp; cases p <;> first | rfl | exact absurd hp (by decide)) rfl rfl rfl

theorem State.setContext_effect (s : State) (i : Screen) (x : Option ScanContext) : Effect [.contexts] s (s.setContext i x) :=
  .quiet (by intro p hp; cases p <;> first | rfl | exact absurd hp (by decide)) rfl rfl rfl

theorem State.setSpot_effect (s : State) (i : Screen) (l : SpotList) : Effect [.spots] s (s.setSpot i l) :=
  .quiet (by intro p hp; cases p <;> first | rfl | exact absurd hp (by decide)) rfl rfl rfl

theorem State.setEpisode_effect (s : State) (k : Fin 7) (e : Option Episode) : Effect [.episodes] s (s.setEpisode k e) :=
  .quiet (by intro p hp; cases p <;> first | rfl | exact absurd hp (by decide)) rfl rfl rfl

theorem State.setHold_effect (s : State) (h : HoldId) (x : Option Hold) : Effect [.holds] s (s.setHold h x) :=
  .quiet (by intro p hp; cases p <;> first | rfl | exact absurd hp (by decide)) rfl rfl rfl

theorem State.setEngine_effect (s : State) (e : Engine) : Effect [.engine] s (s.setEngine e) :=
  .quiet (by intro p hp; cases p <;> first | rfl | exact absurd hp (by decide)) rfl rfl rfl

theorem State.setSlot_effect (s : State) (i : Nat) (r : SlotRec) : Effect [.pool] s (s.setSlot i r) :=
  .quiet (by intro p hp; cases p <;> first | rfl | exact absurd hp (by decide)) rfl rfl rfl

theorem State.returnWord_effect (s : State) (r : Requester) (w : Word) : Effect [.port] s (s.returnWord r w) :=
  .quiet (by intro p hp; cases p <;> first | rfl | exact absurd hp (by decide)) rfl rfl rfl

theorem State.completeWrite_effect (s : State) (r : Requester) : Effect [.port] s (s.completeWrite r) :=
  .quiet (by intro p hp; cases p <;> first | rfl | exact absurd hp (by decide)) rfl rfl rfl

theorem State.withDoorUnit_effect (s : State) (u : DoorUnit) : Effect [.doorUnit] s { s with doorUnit := u } :=
  .quiet (by intro p hp; cases p <;> first | rfl | exact absurd hp (by decide)) rfl rfl rfl

theorem State.withHolds_effect (s : State) (u : HoldUnit) : Effect [.holds] s { s with holds := u } :=
  .quiet (by intro p hp; cases p <;> first | rfl | exact absurd hp (by decide)) rfl rfl rfl

theorem State.withContexts_effect (s : State) (u : Vector (Option ScanContext) 4) :
    Effect [.contexts] s { s with contexts := u } := .quiet
  (by intro p hp; cases p <;> first | rfl | exact absurd hp (by decide)) rfl rfl rfl

theorem State.withEpisodes_effect (s : State) (u : Vector (Option Episode) 7) :
    Effect [.episodes] s { s with episodes := u } := .quiet
  (by intro p hp; cases p <;> first | rfl | exact absurd hp (by decide)) rfl rfl rfl

theorem State.withSlots_effect (s : State) (p : SlotPool) (r : Vector RingRec 16) :
    Effect [.pool, .rings] s { s with pool := p, rings := r } := .quiet
  (by intro p hp; cases p <;> first | rfl | exact absurd hp (by decide)) rfl rfl rfl

/-! ### Slot Manager -/

theorem State.takeTarget_effect {s t : State} {c : Camera} (h : s.takeTarget c = some t) :
    Effect [.pool, .rings] s t := by
  unfold State.takeTarget at h
  split at h
  · cases h
    exact ((s.setRing_effect _ _).trans (State.setSlot_effect _ _ _)).mono (by decide)
  · cases h

theorem State.chooseTarget_effect (s : State) (c : Camera) : Effect [.pool, .rings] s (s.chooseTarget c) := by
  unfold State.chooseTarget
  split
  · exact State.takeTarget_effect ‹_›
  · exact (Effect.emit s _).mono (by decide)

theorem State.endStarved_effect (s : State) (c : Camera) : Effect [.pool, .rings] s (s.endStarved c) := by
  unfold State.endStarved
  split
  · exact ((State.takeTarget_effect ‹_›).trans (Effect.emit _ _)).mono (by decide)
  · exact .refl _ s

theorem State.claimSlot_effect {s t : State} {c : Camera} {i : Nat} (h : s.claimSlot c = some (i, t)) :
    Effect [.pool] s t := by
  unfold State.claimSlot at h
  split at h
  · cases h
    exact s.setSlot_effect _ _
  · cases h

theorem State.claimSlots_effect (n : Nat) (s : State) (c : Camera) : Effect [.pool] s (s.claimSlots c n).2 := by
  induction n generalizing s with
  | zero => exact .refl _ s
  | succ n ih =>
    unfold State.claimSlots
    split
    · rename_i i s' h
      exact ((State.claimSlot_effect h).trans (ih s')).mono (by decide)
    · exact .refl _ s

theorem State.buildRing_effect (s : State) (c : Camera) (k : Nat) : Effect [.pool, .rings] s (s.buildRing c k) := by
  have h := s.claimSlots_effect k c
  unfold State.buildRing
  generalize s.claimSlots c k = x at h ⊢
  obtain ⟨is, s'⟩ := x
  cases is with
  | nil => exact (h.trans (s'.setRing_effect _ _)).mono (by decide)
  | cons i is => exact ((h.trans (s'.setRing_effect _ _)).trans (State.setSlot_effect _ _ _)).mono (by decide)

theorem State.slotsEnable_effect (s : State) (c : Camera) : Effect [.pool, .rings] s (s.slotsEnable c) :=
  ((s.buildRing_effect c _).trans (State.setRing_effect _ _ _)).mono (by decide)

theorem State.slotsDisable_effect (s : State) (c : Camera) : Effect [.pool, .rings] s (s.slotsDisable c) :=
  .quiet (by intro p hp; cases p <;> first | rfl | exact absurd hp (by decide)) rfl rfl rfl

theorem State.pin_effect (s : State) (c : Camera) : Effect [.pool] s (s.pin c).1 := by
  unfold State.pin
  split
  · exact s.setSlot_effect _ _
  · exact .refl _ s

theorem State.unpinned_effect (s : State) (i : Nat) : Effect [.pool, .rings] s (s.unpinned i) := by
  unfold State.unpinned
  split
  · exact .ite (fun _ => s.endStarved_effect _) fun _ => .refl _ s
  · exact .refl _ s
  · exact .refl _ s
  · exact (s.setSlot_effect _ _).mono (by decide)
  · exact .refl _ s
  · exact .refl _ s

theorem State.unpin_effect (s : State) (i : Nat) : Effect [.pool, .rings] s (s.unpin i) := by
  unfold State.unpin
  refine .ite (fun _ => .refl _ s) fun _ => .ite (fun _ => ?_) fun _ => ?_
  · exact ((s.setSlot_effect _ _).trans (State.unpinned_effect _ _)).mono (by decide)
  · exact (s.setSlot_effect _ _).mono (by decide)

theorem State.joinEmpty_effect (s : State) (c : Camera) (i : Nat) : Effect [.rings] s (s.joinEmpty c i) :=
  s.setRing_effect _ _

theorem State.liftMember_effect (s : State) (c : Camera) (h : HoldId) (i : Nat) :
    Effect [.pool, .rings] s (s.liftMember c h i) :=
  ((s.setRing_effect _ _).trans (State.setSlot_effect _ _ _)).mono (by decide)

theorem State.transfer_effect {s t : State} {c : Camera} {h : HoldId} {i : Nat} {x : Taken}
    (e : s.transfer c h i = some (x, t)) : Effect [.pool, .rings] s t := by
  unfold State.transfer at e
  split at e
  · cases e
  · cases e
    exact (((s.liftMember_effect c h i).trans (State.setSlot_effect _ _ _)).trans
      (State.joinEmpty_effect _ _ _)).mono (by decide)

theorem State.takeRequest_effect {s t : State} {c : Camera} {h : HoldId} {x : Taken}
    (e : s.takeRequest c h = some (x, t)) : Effect [.pool, .rings] s t := by
  unfold State.takeRequest at e
  split at e
  · cases e
  · split at e
    · cases e
    · rename_i y u hu
      cases e
      exact .ite (fun _ => ((State.transfer_effect hu).trans (State.endStarved_effect _ _)).mono (by decide))
        fun _ => State.transfer_effect hu

theorem State.releaseSlots_effect (s : State) (h : HoldId) : Effect [.pool] s (s.releaseSlots h) :=
  .quiet (by intro p hp; cases p <;> first | rfl | exact absurd hp (by decide)) rfl rfl rfl

theorem State.slotsRestart_effect (s : State) : Effect [.pool, .rings] s s.slotsRestart := by
  have step : ∀ (t : State) (c : Fin 16), Effect [.pool, .rings] t
      (if t.cameras[c].enable then t.buildRing c t.cameras[c].k else t) := fun t c =>
    .ite (fun _ => t.buildRing_effect _ _) fun _ => .refl _ t
  unfold State.slotsRestart
  exact Effect.mono ((s.withSlots_effect _ _).trans (Effect.foldl step _ _)) (by decide)

/-! ### Cadence Monitor and Lens Monitor -/

theorem State.cadenceTo_effect (s : State) (c : Camera) (x : CadenceRec × List Report) :
    Effect [.cadence] s (s.cadenceTo c x) := ((s.setCadence_effect c x.1).trans (Effect.emitAll _ _)).mono (by decide)

theorem State.arrival_effect (s : State) (c : Camera) : Effect [.cadence] s (s.arrival c) := s.cadenceTo_effect _ _

theorem State.staleTimeout_effect (s : State) (c : Camera) : Effect [.cadence] s (s.staleTimeout c) :=
  .ite (fun _ => s.cadenceTo_effect _ _) fun _ => .refl _ s

theorem State.cadenceRestart_effect (s : State) : Effect [.cadence] s s.cadenceRestart :=
  .foldl (fun s _ => s.cadenceTo_effect _ _) _ s

theorem State.lensTo_effect (s : State) (c : Camera) (x : LensRec × List Report) : Effect [.lens] s (s.lensTo c x) :=
  ((s.setLens_effect c x.1).trans (Effect.emitAll _ _)).mono (by decide)

theorem State.lensAccepted_effect (s : State) (c : Camera) (p : CadenceState) (f : Bool) :
    Effect [.lens] s (s.lensAccepted c p f) := s.lensTo_effect _ _

theorem State.lensRestart_effect (s : State) : Effect [.lens] s s.lensRestart :=
  .foldl (fun s _ => s.lensTo_effect _ _) _ s

theorem State.learnEach_effect (s : State) (f : CameraRec → LensRec → LensRec × Option Reason) (mask : BitVec 16) :
    Effect [.lens] s (s.learnEach f mask).1 := by
  unfold State.learnEach
  suffices h : ∀ (l : List Camera) (x : State × List (Option Reason)),
      Effect [.lens] x.1 (l.foldl (fun (x : State × List (Option Reason)) c =>
        let y := f x.1.cameras[c] x.1.lens[c]
        (x.1.setLens c y.1, x.2 ++ [y.2])) x).1 from h _ (s, [])
  intro l
  induction l with
  | nil => exact fun x => .refl _ _
  | cons c l ih =>
    intro x
    rw [List.foldl_cons]
    exact Effect.mono ((x.1.setLens_effect c (f x.1.cameras[c] x.1.lens[c]).1).trans
      (ih (x.1.setLens c (f x.1.cameras[c] x.1.lens[c]).1, x.2 ++ [(f x.1.cameras[c] x.1.lens[c]).2]))) (by decide)

/-! ### Spotlight Arbiter -/

theorem State.spotTo_effect (s : State) (i : Screen) (x : SpotList × List Report) : Effect [.spots] s (s.spotTo i x) :=
  ((s.setSpot_effect i x.1).trans (Effect.emitAll _ _)).mono (by decide)

theorem State.raiseOn_effect (s : State) (i : Screen) (o : Origin) (v l : Nat) : Effect [.spots] s (s.raiseOn i o v l) :=
  s.spotTo_effect _ _

theorem State.endOn_effect (s : State) (i : Screen) (o : Origin) (n : Nat) : Effect [.spots] s (s.endOn i o n) :=
  s.spotTo_effect _ _

theorem State.raiseOrigin_effect (s : State) (o : Origin) (q : SpotRequest) : Effect [.spots] s (s.raiseOrigin o q) :=
  .foldl (fun s _ => .ite (fun _ => s.raiseOn_effect _ _ _ _) fun _ => .refl _ s) _ s

theorem State.endOrigin_effect (s : State) (o : Origin) (n : Nat) : Effect [.spots] s (s.endOrigin o n) :=
  .foldl (fun s _ => s.endOn_effect _ _ _) _ s

theorem State.redescribeOn_effect (s : State) (o : Origin) (old new : SpotRequest) (i : Screen) :
    Effect [.spots] s (s.redescribeOn o old new i) := by
  unfold State.redescribeOn
  refine .ite (fun _ => s.raiseOn_effect _ _ _ _) fun _ => .ite (fun _ => s.endOn_effect _ _ _) fun _ =>
    .ite (fun _ => ?_) fun _ => .refl _ s
  split
  · exact .ite (fun _ => s.raiseOn_effect _ _ _ _) fun _ => .refl _ s
  · exact .refl _ s

theorem State.redescribe_effect (s : State) (o : Origin) (old new : SpotRequest) :
    Effect [.spots] s (s.redescribe o old new) := .foldl (fun s _ => s.redescribeOn_effect _ _ _ _) _ s

theorem State.lingerExpiry_effect (s : State) (i : Screen) : Effect [.spots] s (s.lingerExpiry i) :=
  .ite (fun _ => s.spotTo_effect _ _) fun _ => .refl _ s

theorem State.spotsRestart_effect (s : State) : Effect [.spots] s s.spotsRestart :=
  .quiet (by intro p hp; cases p <;> first | rfl | exact absurd hp (by decide)) rfl rfl rfl

/-! ### Evidence Hold Unit -/

theorem State.addHold_effect (s : State) (h : HoldId) (x : Hold) : Effect [.holds] s (s.addHold h x) :=
  .quiet (by intro p hp; cases p <;> first | rfl | exact absurd hp (by decide)) rfl rfl rfl

theorem State.makeHold_effect (s : State) (h : HoldId) (o : Origin) (c : Camera) (n : Nat) (x : Taken) :
    Effect [.holds] s (s.makeHold h o c n x).1 := by
  have k := fun r q => ((s.addHold_effect h r).trans (Effect.emit _ q)).mono (show _ ⊆ [Piece.holds] by decide)
  exact .ite (fun _ => ((k _ _).trans (Effect.emit _ _)).mono (by decide)) fun _ => k _ _

theorem State.take_effect (s : State) (o : Origin) (c : Camera) (n : Nat) :
    Effect [.holds, .pool, .rings] s (s.take o c n).1 := by
  have refuse : ∀ reason, Effect [.holds, .pool, .rings] s (s.refuseTake o c n reason).1 :=
    fun _ => (Effect.emit s _).mono (by decide)
  unfold State.take
  split
  · exact refuse _
  · split
    · exact refuse _
    · split
      · exact refuse _
      · split
        · exact ((State.takeRequest_effect ‹_›).trans (State.makeHold_effect _ _ _ _ _ _)).mono (by decide)
        · exact refuse _

theorem State.completeHold_effect (s : State) (h : HoldId) (x : Hold) (k : HoldCause) (b : Bool) :
    Effect [.holds] s (s.completeHold h x k b) := ((s.setHold_effect h _).trans (Effect.emit _ _)).mono (by decide)

theorem State.offerFrame_effect (s : State) (c : Camera) (i : Nat) :
    Effect [.holds, .pool, .rings] s (s.offerFrame c i) := by
  unfold State.offerFrame
  split
  · exact .refl _ s
  · split
    · exact (s.completeHold_effect _ _ _ _).mono (by decide)
    · exact .ite (fun _ => ((State.transfer_effect ‹_›).trans (State.completeHold_effect _ _ _ _ _)).mono (by decide))
        fun _ => ((State.transfer_effect ‹_›).trans (State.setHold_effect _ _ _)).mono (by decide)

theorem State.completeShort_effect (s : State) (which : Hold → Bool) (k : HoldCause) :
    Effect [.holds] s (s.completeShort which k) := by
  refine .foldl (fun s h => ?_) _ s
  split
  · exact .ite (fun _ => s.completeHold_effect _ _ _ _) fun _ => .refl _ s
  · exact .refl _ s

theorem State.releaseHold_effect (s : State) (h : HoldId) (x : Hold) :
    Effect [.holds, .pool] s (s.releaseHold h x) := by
  unfold State.releaseHold
  exact Effect.mono (((s.releaseSlots_effect h).trans (State.withHolds_effect _ _)).trans (Effect.emit _ _)) (by decide)

/-! ### Door Line Unit -/

theorem State.setDoorState_effect (s : State) (d : Door) (x : DoorState) (k : DoorCause) :
    Effect [.doorUnit] s (s.setDoorState d x k) := by
  have q : Effect [.doorUnit] s { s with doorUnit := { s.doorUnit with states := upd s.doorUnit.states d x } } :=
    .quiet (by intro p hp; cases p <;> first | rfl | exact absurd hp (by decide)) rfl rfl rfl
  exact .ite (fun _ => q) fun _ => (q.trans (Effect.emit _ _)).mono (by decide)

theorem State.notice_effect (s : State) (o : Origin) (q : SpotRequest) (was is : Bool) :
    Effect [.spots] s (s.notice o q was is) :=
  .ite (fun _ => s.raiseOrigin_effect _ _) fun _ => .ite (fun _ => s.endOrigin_effect _ _) fun _ => .refl _ s

theorem State.sampleStates_effect (s : State) : Effect [.doorUnit] s s.sampleStates :=
  .foldl (fun s _ => s.setDoorState_effect _ _ _) _ s

theorem State.sampleNotices_effect (s : State) (u : DoorUnit) : Effect [.spots] s (s.sampleNotices u) :=
  ((Effect.foldl (ps := [.spots]) (fun s _ => ((s.notice_effect _ _ _ _).trans (State.notice_effect _ _ _ _ _)).mono
    (by decide)) _ s).trans (State.notice_effect _ _ _ _ _)).mono (by decide)

theorem State.holdTrigger_effect (s : State) (d : Door) : Effect [.holds, .pool, .rings] s (s.holdTrigger d) :=
  s.take_effect _ _ _

theorem State.sampleTriggers_effect (s : State) (u : DoorUnit) :
    Effect [.holds, .pool, .rings] s (s.sampleTriggers u) :=
  .foldl (fun s _ => .ite (fun _ => s.holdTrigger_effect _) fun _ => .refl _ s) _ s

/-- The pieces that a sample of the lines can change. -/
def samplePieces : List Piece := [.doorUnit, .spots, .holds, .pool, .rings]

theorem State.sampleLines_effect (s : State) : Effect samplePieces s s.sampleLines := by
  unfold State.sampleLines
  exact Effect.mono ((((s.withDoorUnit_effect _).trans (State.sampleStates_effect _)).trans
    (State.sampleNotices_effect _ _)).trans (State.sampleTriggers_effect _ _)) (by decide)

theorem State.sampleInstant_effect (s : State) : Effect samplePieces s s.sampleInstant := by
  unfold State.sampleInstant
  exact .ite (fun _ => Effect.mono ((s.withDoorUnit_effect _).trans (State.sampleLines_effect _)) (by decide))
    fun _ => .refl _ s

theorem State.debounceChanged_effect (s : State) : Effect samplePieces s s.debounceChanged := by
  unfold State.debounceChanged
  exact .ite (fun _ => Effect.mono ((s.withDoorUnit_effect _).trans (State.sampleLines_effect _)) (by decide))
    fun _ => .refl _ s

theorem State.applyDoor_effect (s : State) (d : Door) (r : DoorRec) :
    Effect [.doors, .doorUnit, .spots] s (s.applyDoor d r) := by
  have two : ∀ (u : State) (x : DoorState) (k : DoorCause) (o p : Origin) (q w : SpotRequest) (a b e f : Bool),
      Effect [.doorUnit, .spots] u (((u.setDoorState d x k).notice o q a b).notice p w e f) :=
    fun u x k o p q w a b e f => Effect.mono (((u.setDoorState_effect d x k).trans (State.notice_effect _ o q a b)).trans
      (State.notice_effect _ _ _ _ _)) (by decide)
  have one : ∀ (u : State) (b : Bool) (o : Origin) (p q : SpotRequest),
      Effect [.spots] u (if b then u.redescribe o p q else u) := fun u b o p q =>
    .ite (fun _ => u.redescribe_effect _ _ _) fun _ => .refl _ u
  unfold State.applyDoor
  refine .ite (fun _ => ?_) fun _ => .ite (fun _ => ?_) fun _ => ?_
  · exact Effect.mono ((s.setDoor_effect d r).trans (two _ _ _ _ _ _ _ _ _ _ _)) (by decide)
  · exact Effect.mono ((s.setDoor_effect d r).trans (two _ _ _ _ _ _ _ _ _ _ _)) (by decide)
  · exact Effect.mono (((s.setDoor_effect d r).trans (one _ _ _ _ _)).trans (one _ _ _ _ _)) (by decide)

theorem State.doorsRestart_effect (s : State) : Effect [.doorUnit] s s.doorsRestart := by
  have step : ∀ (t : State) (d : Door), Effect [.doorUnit] t
      (if t.doors[d].enable then t.setDoorState d .unknown .restart else t) := fun t d =>
    .ite (fun _ => t.setDoorState_effect _ _ _) fun _ => .refl _ t
  unfold State.doorsRestart
  exact Effect.mono ((s.withDoorUnit_effect _).trans (Effect.foldl step _ _)) (by decide)

/-! ### Scan Compositor -/

theorem State.releaseContext_effect (s : State) (i : Screen) :
    Effect [.pool, .rings, .contexts] s (s.releaseContext i) := by
  unfold State.releaseContext
  split
  · exact .refl _ s
  · exact ((Effect.foldl (ps := [.pool, .rings]) (fun s x => s.unpin_effect x) _ s).trans
      (State.setContext_effect _ _ _)).mono (by decide)

theorem State.pinShown_effect (s : State) (cams : List Camera) : Effect [.pool] s (s.pinShown cams).1 := by
  unfold State.pinShown
  suffices h : ∀ (l : List Camera) (x : State × List (Camera × Option Nat)),
      Effect [.pool] x.1 (l.foldl (fun (x : State × List (Camera × Option Nat)) c =>
        let y := x.1.pin c
        (y.1, x.2 ++ [(c, y.2)])) x).1 from h _ (s, [])
  intro l
  induction l with
  | nil => exact fun x => .refl _ _
  | cons c l ih =>
    intro x
    rw [List.foldl_cons]
    exact Effect.mono ((x.1.pin_effect c).trans (ih ((x.1.pin c).1, x.2 ++ [(c, (x.1.pin c).2)]))) (by decide)

theorem State.latch_effect (s : State) (i : Screen) : Effect [.pool, .rings, .contexts] s (s.latch i) :=
  (((s.releaseContext_effect i).trans (State.pinShown_effect _ _)).trans (State.setContext_effect _ _ _)).mono
    (by decide)

theorem State.applyScreen_effect (s : State) (i : Screen) (r : ScreenRec) :
    Effect [.screens, .pool, .rings, .contexts] s (s.applyScreen i r) :=
  .ite (fun _ => ((s.setScreen_effect i r).trans (State.releaseContext_effect _ _)).mono (by decide))
    fun _ => (s.setScreen_effect i r).mono (by decide)

/-! ### Access Guard -/

theorem State.guardDrop_effect (s : State) (k : GuardKind) (t : Tag) (a : BitVec 32) :
    Effect [.episodes] s (s.guardDrop k t a) := s.setEpisode_effect _ _

theorem State.guardClose_effect (s : State) (k : GuardKind) : Effect [.episodes] s (s.guardClose k) := by
  unfold State.guardClose
  split
  · exact .refl _ s
  · exact ((Effect.emit s _).trans (State.setEpisode_effect _ _ _)).mono (by decide)

/-! ### Command Engine -/

theorem State.record_effect (s : State) (code tag : Byte) (x : Result) (y : Reason) (t : Byte) (n : BitVec 16) :
    Effect [.engine] s (s.record code tag x y t n) :=
  ((s.setEngine_effect _).trans (Effect.emit _ _)).mono (by decide)

theorem State.finish_effect (s : State) (code : Byte) (x : Result) (y : Reason) (t : Byte) (n : BitVec 16) :
    Effect [.engine] s (s.finish code x y t n) := s.record_effect _ _ _ _ _ _

theorem State.finishPlain_effect (s : State) (code : Byte) (x : Result) (y : Reason) :
    Effect [.engine] s (s.finishPlain code x y) := s.finish_effect _ _ _ _ _

theorem State.finishLoad_effect (s : State) (code : Byte) (x : Result) (y : Reason) :
    Effect [.engine] s (s.finishLoad code x y) := s.finish_effect _ _ _ _ _

theorem State.takeTag_effect (s : State) (t : Byte) : Effect [.engine] s (s.takeTag t) := s.setEngine_effect _

theorem State.enter_effect (s : State) (x : EngineState) : Effect [.engine] s (s.enter x) := s.setEngine_effect _

theorem State.discardStaging_effect (s : State) : Effect [.engine] s s.discardStaging := s.setEngine_effect _

theorem State.abortLoad_effect (s : State) (code : Byte) (y : Reason) : Effect [.engine] s (s.abortLoad code y) :=
  (((s.discardStaging_effect).trans (State.enter_effect _ _)).trans (State.finishLoad_effect _ _ _ _)).mono (by decide)

theorem State.idleLoad_effect (s : State) (t f n : Byte) : Effect [.engine] s (s.idleLoad t f n) := by
  unfold State.idleLoad
  split
  · exact ((s.enter_effect _).trans (State.finish_effect _ _ _ _ _ _)).mono (by decide)
  · exact .ite (fun _ => ((s.enter_effect _).trans (State.finish_effect _ _ _ _ _ _)).mono (by decide)) fun _ =>
      ((s.discardStaging_effect.trans (State.setEngine_effect _ _)).trans (State.finishLoad_effect _ _ _ _)).mono
        (by decide)

theorem State.stageBeat_effect (s : State) (i : Fin 256) (w : WriteData) : Effect [.engine] s (s.stageBeat i w) :=
  .ite (fun _ => s.abortLoad_effect _ _) fun _ => .ite (fun _ => s.abortLoad_effect _ _) fun _ => s.setEngine_effect _

theorem State.awaitScreens_effect (b s : State) : Effect [.engine] s (State.awaitScreens b s) :=
  .ite (fun _ => ((s.enter_effect _).trans (State.finishLoad_effect _ _ _ _)).mono (by decide))
    fun _ => s.setEngine_effect _

theorem State.endApplying_effect (s : State) (x : Result) : Effect [.engine] s (s.endApplying x) :=
  ((s.setEngine_effect _).trans (State.finishLoad_effect _ _ _ _)).mono (by decide)

theorem State.frameStartNotice_effect (s : State) (i : Screen) : Effect [.engine] s (s.frameStartNotice i) := by
  unfold State.frameStartNotice
  split
  · exact .ite (fun _ => .ite (fun _ => ((s.setEngine_effect _).trans (State.endApplying_effect _ _)).mono (by decide))
      fun _ => s.setEngine_effect _) fun _ => .refl _ s
  · exact .refl _ s
  · exact .refl _ s
  · exact .refl _ s

theorem State.applyingOvertime_effect (s : State) : Effect [.engine] s s.applyingOvertime :=
  .ite (fun _ => s.endApplying_effect _) fun _ => .refl _ s

theorem State.finishLearn_effect (s : State) (code : Byte) (l : List (Option Reason)) :
    Effect [.engine] s (s.finishLearn code l) := by
  unfold State.finishLearn
  refine .ite (fun _ => s.finishPlain_effect _ _ _) fun _ => ?_
  split <;> exact s.finishPlain_effect _ _ _

theorem State.idleLearn_effect (s : State) (m : BitVec 16) : Effect [.lens, .engine] s (s.idleLearn m) :=
  ((s.learnEach_effect _ m).trans (State.finishLearn_effect _ _ _)).mono (by decide)

theorem State.idleLearnSuspend_effect (s : State) (m : BitVec 16) : Effect [.lens, .engine] s (s.idleLearnSuspend m) :=
  ((s.learnEach_effect _ m).trans (State.finishLearn_effect _ _ _)).mono (by decide)

theorem State.idleLearnResume_effect (s : State) (m : BitVec 16) : Effect [.lens, .engine] s (s.idleLearnResume m) :=
  ((s.learnEach_effect _ m).trans (State.finishLearn_effect _ _ _)).mono (by decide)

theorem State.idleSpotSet_effect (s : State) (i l v : Byte) : Effect [.spots, .engine] s (s.idleSpotSet i l v) := by
  unfold State.idleSpotSet
  split
  · exact (s.finishPlain_effect _ _ _).mono (by decide)
  · rename_i n _
    refine .ite (fun _ => (s.finishPlain_effect _ _ _).mono (by decide)) fun _ => ?_
    have k : ∀ x y, Effect [.spots, .engine] s ((s.raiseOn n .manual v.toNat l.toNat).finishPlain 0x20 x y) :=
      fun x y => Effect.mono ((s.raiseOn_effect _ _ _ _).trans (State.finishPlain_effect _ _ _ _)) (by decide)
    dsimp only
    split <;> exact k _ _

theorem State.idleSpotClear_effect (s : State) (i : Byte) : Effect [.spots, .engine] s (s.idleSpotClear i) := by
  unfold State.idleSpotClear
  split
  · exact (s.finishPlain_effect _ _ _).mono (by decide)
  · exact ((s.endOn_effect _ _ _).trans (State.finishPlain_effect _ _ _ _)).mono (by decide)

theorem State.idleHoldTake_effect (s : State) (c n : Byte) :
    Effect [.holds, .pool, .rings, .engine] s (s.idleHoldTake c n) := by
  unfold State.idleHoldTake
  split
  · exact (s.finishPlain_effect _ _ _).mono (by decide)
  · refine .ite (fun _ => (s.finishPlain_effect _ _ _).mono (by decide)) fun _ => ?_
    dsimp only
    split
    · exact ((s.take_effect _ _ _).trans (State.finish_effect _ _ _ _ _ _)).mono (by decide)
    · exact ((s.take_effect _ _ _).trans (State.finishPlain_effect _ _ _ _)).mono (by decide)

theorem State.idleHoldRelease_effect (s : State) (h : Byte) :
    Effect [.holds, .pool, .engine] s (s.idleHoldRelease h) := by
  unfold State.idleHoldRelease
  split
  · exact (s.finishPlain_effect _ _ _).mono (by decide)
  · exact .ite (fun _ => (s.finishPlain_effect _ _ _).mono (by decide)) fun _ =>
      ((s.releaseHold_effect _ _).trans (State.finishPlain_effect _ _ _ _)).mono (by decide)

theorem State.idleHoldLock_effect (s : State) : Effect [.holds, .engine] s s.idleHoldLock := by
  unfold State.idleHoldLock
  exact Effect.mono ((s.withHolds_effect _).trans (State.finishPlain_effect _ _ _ _)) (by decide)

theorem State.snapshotRecords_effect (s : State) : Effect [] s s.snapshotRecords.1 := by
  have k : ∀ {α : Type} (g : State × Nat → α → State × Nat), (∀ x a, Effect [] x.1 (g x a).1) →
      ∀ (l : List α) (x : State × Nat), Effect [] x.1 (l.foldl g x).1 := by
    intro α g hg l
    induction l with
    | nil => exact fun x => .refl _ _
    | cons a l ih => exact fun x => ((hg x a).trans (ih _)).mono (by decide)
  unfold State.snapshotRecords
  refine (((k _ (fun x a => Effect.emit _ _) _ (s, 0)).trans (k _ (fun x a => Effect.emit _ _) _ _)).trans
    (k _ (fun x a => ?_) _ _)).mono (by decide)
  split
  · exact Effect.emit _ _
  · exact .refl _ _

theorem State.idleSnapshot_effect (s : State) : Effect [.engine] s s.idleSnapshot :=
  (s.snapshotRecords_effect.trans (State.finish_effect _ _ _ _ _ _)).mono (by decide)

/-- The pieces that a warm restart can change. -/
def restartPieces : List Piece :=
  [.pool, .rings, .cadence, .lens, .contexts, .doorUnit, .spots, .holds, .episodes, .engine]

theorem State.restartBlocks_effect (s : State) : Effect restartPieces s s.restartBlocks := by
  unfold State.restartBlocks
  exact Effect.mono (((((((s.slotsRestart_effect.trans (State.cadenceRestart_effect _)).trans
    (State.lensRestart_effect _)).trans (State.withContexts_effect _ _)).trans (State.doorsRestart_effect _)).trans
    (State.spotsRestart_effect _)).trans (State.completeShort_effect _ _ _)).trans (State.withEpisodes_effect _ _))
    (by decide)

theorem State.cutApplying_effect (s : State) (t : Byte) : Effect [.engine] s (s.cutApplying t) := by
  unfold State.cutApplying
  split
  · exact s.record_effect _ _ _ _ _ _
  · exact .refl _ s
  · exact .refl _ s
  · exact .refl _ s

theorem State.warmRestart_effect (s : State) (t : Byte) : Effect restartPieces s (s.warmRestart t) := by
  unfold State.warmRestart
  exact Effect.mono ((((((s.takeTag_effect t).trans (State.discardStaging_effect _)).trans
    (State.cutApplying_effect _ _)).trans (State.setEngine_effect _ _)).trans (State.restartBlocks_effect _)).trans
    (State.finishPlain_effect _ _ _ _)) (by decide)

end Sys2Proof.Machine
end

