-- ==== Sys2Proof/Laws/Reports.lean ====
section
/-! SUPPORT. What the Report Writer does to frame memory and to its ring, said once (R176, R177), for
one report and for any number of them, and so for every `Effect`. -/

namespace Sys2Proof.Machine

/-! ### The record -/

@[simp] theorem leBytes_length (n v : Nat) : (leBytes n v).length = n := by
  induction n generalizing v with
  | zero => rfl
  | succ n ih => simp [leBytes, ih]

/-- Every report record has 32 bytes (R182). -/
@[simp] theorem Report.bytes_length (r : Report) (t : Time) (n : Nat) : (r.bytes t n).length = 32 := by
  simp [Report.bytes]

/-! ### The ring -/

theorem ReportRing.inRange_configured {g : ReportRing} (h : g.inRange) (c : g.configured = true) :
    64 ≤ g.capacity ∧ g.capacity ≤ 4096 ∧ g.producer < g.capacity ∧ g.consumer < g.capacity
      ∧ g.lost ≤ Config.sixteenMax ∧ g.base + g.capacity * Config.reportBytes ≤ Config.memoryBytes := by
  simpa [ReportRing.inRange, c] using h

@[simp] theorem ReportRing.afterReport_base (g : ReportRing) : g.afterReport.base = g.base := by
  unfold ReportRing.afterReport
  split
  · rfl
  · split <;> rfl

@[simp] theorem ReportRing.afterReport_capacity (g : ReportRing) : g.afterReport.capacity = g.capacity := by
  unfold ReportRing.afterReport
  split
  · rfl
  · split <;> rfl

@[simp] theorem ReportRing.afterReport_configured (g : ReportRing) : g.afterReport.configured = g.configured := by
  unfold ReportRing.afterReport
  split
  · rfl
  · split <;> rfl

/-- A report keeps the ranges of the ring. -/
theorem ReportRing.inRange_afterReport {g : ReportRing} (h : g.inRange) : g.afterReport.inRange := by
  unfold ReportRing.afterReport
  split
  · exact h
  · rename_i c
    have c : g.configured = true := by simpa using c
    obtain ⟨h1, h2, h3, h4, h5, h6⟩ := ReportRing.inRange_configured h c
    split
    · simp only [ReportRing.inRange, c, if_true]
      exact ⟨h1, h2, h3, h4, Nat.min_le_right .., h6⟩
    · simp only [ReportRing.inRange, c, if_true]
      exact ⟨h1, h2, Nat.mod_lt _ (by omega), h4, by decide, h6⟩

/-! ### Reports and memory -/

@[simp] theorem State.emit_ring (s : State) (r : Report) : (s.emit r).ring = s.ring.afterReport := rfl

theorem State.emitAll_ring_inRange {s : State} (rs : List Report) (h : s.ring.inRange) : (s.emitAll rs).ring.inRange := by
  induction rs generalizing s with
  | nil => exact h
  | cons r rs ih => exact ih (s := s.emit r) (ReportRing.inRange_afterReport h)

theorem State.emitAll_ring_place (s : State) (rs : List Report) :
    (s.emitAll rs).ring.base = s.ring.base ∧ (s.emitAll rs).ring.capacity = s.ring.capacity
      ∧ (s.emitAll rs).ring.configured = s.ring.configured := by
  induction rs generalizing s with
  | nil => exact ⟨rfl, rfl, rfl⟩
  | cons r rs ih => simpa using ih (s.emit r)

theorem State.emit_mem_wf {s : State} (r : Report) (h : s.mem.wf = true) : (s.emit r).mem.wf = true := by
  unfold State.emit
  dsimp only
  split
  · exact Memory.wf_writeBytes _ h
  · exact h

theorem State.emitAll_mem_wf {s : State} (rs : List Report) (h : s.mem.wf = true) : (s.emitAll rs).mem.wf = true := by
  induction rs generalizing s with
  | nil => exact h
  | cons r rs ih => exact ih (State.emit_mem_wf r h)

/-- A byte off the next place of the ring reads as before a report. -/
theorem State.emit_read_of_outsideNext {s : State} (r : Report) {a : Nat} (h : s.ring.outsideNext a) :
    (s.emit r).mem.read a = s.mem.read a := by
  unfold State.emit
  dsimp only
  split
  · rename_i w
    exact Memory.read_writeBytes_of_ne _ (by rw [Report.bytes_length]; exact h w)
  · rfl

theorem ReportRing.outsideNext_of_outsideRing {g : ReportRing} {a : Nat} (h : g.inRange) (ha : g.outsideRing a) :
    g.outsideNext a := by
  intro w j hj
  have c : g.configured = true := by simp [ReportRing.writable] at w; exact w.1
  obtain ⟨h1, h2, h3, h4, h5, h6⟩ := ReportRing.inRange_configured h c
  unfold ReportRing.outsideRing outside at ha
  unfold ReportRing.placeAddr
  have hb : g.producer * Config.reportBytes + Config.reportBytes ≤ g.capacity * Config.reportBytes := by
    have := Nat.mul_le_mul_right Config.reportBytes (Nat.succ_le_of_lt h3)
    simpa [Nat.succ_mul] using this
  rw [physical_of_lt (by omega)]
  omega

/-- A byte off the report ring reads as before any reports. -/
theorem State.emitAll_read_of_outsideRing {s : State} (rs : List Report) {a : Nat} (h : s.ring.inRange)
    (ha : s.ring.outsideRing a) : (s.emitAll rs).mem.read a = s.mem.read a := by
  induction rs generalizing s with
  | nil => rfl
  | cons r rs ih =>
    have ha' : (s.emit r).ring.outsideRing a := by simpa [ReportRing.outsideRing] using ha
    exact (ih (s := s.emit r) (ReportRing.inRange_afterReport h) ha').trans
      (State.emit_read_of_outsideNext r (ReportRing.outsideNext_of_outsideRing h ha))

/-! ### Effects -/

/-- An operation whose only memory effect is its reports keeps the canonical form. -/
theorem Effect.mem_wf {ps : List Piece} {s t : State} (h : Effect ps s t) (w : s.mem.wf = true) : t.mem.wf = true := by
  obtain ⟨rs, hm, -⟩ := h.logs
  rw [hm]
  exact State.emitAll_mem_wf rs w

/-- An operation whose only ring effect is its reports keeps the ranges of the ring. -/
theorem Effect.ring_inRange {ps : List Piece} {s t : State} (h : Effect ps s t) (w : s.ring.inRange) :
    t.ring.inRange := by
  obtain ⟨rs, -, hr⟩ := h.logs
  rw [hr]
  exact State.emitAll_ring_inRange rs w

/-- An operation whose only memory effect is its reports leaves every byte off the report ring. -/
theorem Effect.read_of_outsideRing {ps : List Piece} {s t : State} (h : Effect ps s t) {a : Nat}
    (w : s.ring.inRange) (ha : s.ring.outsideRing a) : t.mem.read a = s.mem.read a := by
  obtain ⟨rs, hm, -⟩ := h.logs
  rw [hm]
  exact State.emitAll_read_of_outsideRing rs w ha

end Sys2Proof.Machine
end

