-- ==== Sys2Proof/Laws/Touches.lean ====
section
/-! SUPPORT. Which pieces of State the operations change whose effect on frame memory or on the report
ring is more than their reports: storing a beat, landing a word, ending a frame, applying a load, and
taking a command. -/

namespace Sys2Proof.Machine

theorem Effect.touched {ps qs : List Piece} {s t : State} (h : Effect ps s t) (hs : .mem :: .ring :: ps ⊆ qs) :
    Touches qs s t := h.touches.mono hs

/-- Two changes within the same pieces. -/
theorem Touches.seq {ps : List Piece} {s t u : State} (h : Touches ps s t) (k : Touches ps t u) : Touches ps s u :=
  (h.trans k).mono (by simp)

theorem Touches.foldl {α : Type} {ps : List Piece} {f : State → α → State} (h : ∀ s x, Touches ps s (f s x))
    (l : List α) (s : State) : Touches ps s (l.foldl f s) := by
  induction l generalizing s with
  | nil => exact .refl ps s
  | cons x l ih => exact (h s x).seq (ih _)

theorem Touches.ite {ps : List Piece} {s t u : State} {p : Prop} [Decidable p] (h : p → Touches ps s t)
    (k : ¬p → Touches ps s u) : Touches ps s (if p then t else u) := by
  split
  · exact h ‹_›
  · exact k ‹_›

/-! ### Beats -/

theorem State.setMem_touches (s : State) (m : Memory) : Touches [.mem] s (s.setMem m) := by
  intro p hp; cases p <;> first | rfl | exact absurd hp (by decide)

theorem State.pageWrite_touches (s : State) (n : Nat) (w : WriteData) : Touches [.mem] s (s.pageWrite n w) :=
  s.setMem_touches _

theorem State.consumerBeat_touches (s : State) (w : WriteData) : Touches [.mem, .ring] s (s.consumerBeat w) := by
  intro p hp; cases p <;> first | rfl | exact absurd hp (by decide)

theorem State.stagingBeat_touches (s : State) (i : Fin 256) (w : WriteData) :
    Touches [.mem, .ring, .engine] s (s.stagingBeat i w) :=
  .ite
    (fun _ => ((s.pageWrite_touches _ w).trans ((State.stageBeat_effect _ i w).touched (List.Subset.refl _))).mono
      (by decide))
    fun _ => (s.pageWrite_touches _ w).mono (by decide)

/-! ### Landing -/

/-- The pieces that a landing beat can change before it ends a frame. -/
def landPieces : List Piece := [.mem, .rings, .lens, .cadence]

theorem State.landWord_touches (s : State) (c : Camera) (i n : Nat) (w : WriteData) :
    Touches landPieces s (s.landWord c i n w) := by
  intro p hp; cases p <;> first | rfl | exact absurd hp (by decide)

theorem State.beginFrame_touches (s : State) (c : Camera) (i : Nat) (w : WriteData) :
    Touches landPieces s (s.beginFrame c i w) := by
  have h : ∀ u r, Touches landPieces u (u.setRing c r) := fun u r => by
    intro p hp; cases p <;> first | rfl | exact absurd hp (by decide)
  have l : ∀ u r, Touches landPieces u (u.setLens c r) := fun u r => by
    intro p hp; cases p <;> first | rfl | exact absurd hp (by decide)
  have d : ∀ u r, Touches landPieces u (u.setCadence c r) := fun u r => by
    intro p hp; cases p <;> first | rfl | exact absurd hp (by decide)
  exact (((h s _).seq (l _ _)).seq (d _ _)).seq (State.landWord_touches _ c i 0 w)

theorem State.countTorn_touches (s : State) (c : Camera) : Touches landPieces s (s.countTorn c) := by
  intro p hp; cases p <;> first | rfl | exact absurd hp (by decide)

theorem State.landingIdle_touches (s : State) (c : Camera) : Touches landPieces s (s.landingIdle c) := by
  intro p hp; cases p <;> first | rfl | exact absurd hp (by decide)

theorem State.starvedWord0_touches (s : State) (c : Camera) : Touches landPieces s (s.starvedWord0 c) := by
  intro p hp; cases p <;> first | rfl | exact absurd hp (by decide)

theorem State.memberReady_effect (s : State) (c : Camera) (i : Nat) : Effect [.pool, .rings] s (s.memberReady c i) :=
  ((s.setRing_effect c _).trans (State.setSlot_effect _ i _)).mono (by decide)

/-- The pieces that an acceptance can change beside frame memory and the report ring. -/
def acceptPieces : List Piece := [.pool, .rings, .lens, .cadence, .holds]

theorem State.accept_effect (s : State) (c : Camera) (i : Nat) : Effect acceptPieces s (s.accept c i) :=
  Effect.mono ((((((s.memberReady_effect c i).trans (State.arrival_effect _ c)).trans
    (State.lensAccepted_effect _ c _ _)).trans (State.offerFrame_effect _ c i)).trans
    (State.chooseTarget_effect _ c)).trans (State.setRing_effect _ c _)) (by decide)

/-- The pieces that a landing beat can change. -/
def landingPieces : List Piece := [.mem, .ring, .pool, .rings, .cadence, .lens, .holds]

theorem State.frameEnd_touches (s : State) (c : Camera) : Touches landingPieces s (s.frameEnd c) := by
  have torn : Touches landingPieces s ((s.countTorn c).landingIdle c) :=
    ((s.countTorn_touches c).seq (State.landingIdle_touches _ c)).mono (by decide)
  unfold State.frameEnd
  dsimp only
  split
  · exact .ite (fun _ => (s.accept_effect c _).touched (by decide)) fun _ => torn
  · exact torn

theorem State.afterBeat_touches (s : State) (c : Camera) (n : Nat) : Touches landingPieces s (s.afterBeat c n) :=
  .ite (fun _ => s.frameEnd_touches c) fun _ => .refl _ s

theorem State.landed {s t : State} (h : Touches landPieces s t) : Touches landingPieces s t := h.mono (by decide)

theorem State.word0_touches (s : State) (c : Camera) (w : WriteData) : Touches landingPieces s (s.word0 c w) := by
  have begun : ∀ u i, Touches landPieces s u → Touches landingPieces s ((u.beginFrame c i w).afterBeat c 0) :=
    fun u i h => (State.landed (h.seq (u.beginFrame_touches c i w))).seq (State.afterBeat_touches _ c 0)
  unfold State.word0
  split
  · split
    · exact begun _ _ (.refl _ s)
    · exact begun _ _ (s.countTorn_touches c)
    · exact begun _ _ (.refl _ s)
  · split
    · exact State.landed (s.starvedWord0_touches c)
    · exact .refl _ s
    · exact State.landed (s.starvedWord0_touches c)

theorem State.frameBeat_touches (s : State) (c : Camera) (n : Nat) (w : WriteData) :
    Touches landingPieces s (s.frameBeat c n w) := by
  have counted : ∀ r, Touches landPieces s (s.setRing c r) := fun r => by
    intro p hp; cases p <;> first | rfl | exact absurd hp (by decide)
  unfold State.frameBeat
  dsimp only
  split
  · split
    · exact (State.landed ((counted _).seq (State.landWord_touches _ c _ n w))).seq (State.afterBeat_touches _ c n)
    · exact .refl _ s
  · exact (State.landed (counted _)).seq (State.afterBeat_touches _ c n)

theorem State.landingPhase_touches (s : State) (c : Camera) (n : Nat) (w : WriteData) :
    Touches landingPieces s (s.landingPhase c n w) := by
  unfold State.landingPhase
  refine .ite (fun _ => s.word0_touches c w) fun _ => ?_
  split
  · exact s.frameBeat_touches c n w
  · exact .refl _ s
  · exact .refl _ s

/-- A landing beat changes nothing but the landing pieces and the guard episodes. -/
theorem State.landingBeat_touches (s : State) (t : Tag) (c : Camera) (n : Nat) (w : WriteData) :
    Touches (.episodes :: landingPieces) s (s.landingBeat t c n w) := by
  have drop : ∀ k a, Touches (.episodes :: landingPieces) s (s.guardDrop k t a) := fun k a => by
    intro p hp; cases p <;> first | rfl | exact absurd hp (by decide)
  exact .ite (fun _ => drop _ _) fun _ => .ite (fun _ => drop _ _) fun _ => .ite (fun _ => drop _ _) fun _ =>
    (s.landingPhase_touches c n w).mono (by decide)

/-! ### Applying a load -/

/-- The pieces that a SETUP record can change when it is applied. -/
def setupPieces : List Piece := [.setup, .pool, .ring, .mem, .spots, .doorUnit, .holds, .rings]

theorem State.setupDoors_effect (s : State) (old new : SetupRec) :
    Effect [.spots, .doorUnit, .holds, .pool, .rings] s (s.setupDoors old new) := by
  have h : Effect [.spots, .doorUnit, .holds, .pool, .rings] s
      (if levelActive s.doorUnit.reverse.accepted then s.redescribe .reverse old.reverse new.reverse else s) :=
    .ite (fun _ => (State.redescribe_effect _ _ _ _).mono (by decide)) fun _ => .refl _ s
  exact .ite (fun _ => (h.trans (State.debounceChanged_effect _)).mono (by decide)) fun _ => h

theorem State.applySetup_touches (s : State) (r : SetupRec) : Touches setupPieces s (s.applySetup r) := by
  have first : Touches setupPieces s { s with
      setup := r, pool := s.pool.regeometry r.slotBase r.slotUnits r.slotCount } := by
    intro p hp; cases p <;> first | rfl | exact absurd hp (by decide)
  have last : ∀ u : State, Touches setupPieces u { u with ring := u.ring.reconfigure r.ringBase r.ringCapacity } := by
    intro u p hp; cases p <;> first | rfl | exact absurd hp (by decide)
  exact (first.seq ((State.setupDoors_effect _ s.setup r).touched (by decide))).seq (last _)

theorem State.disableCamera_effect (s : State) (c : Camera) (old new : CameraRec) :
    Effect [.pool, .rings, .cadence, .lens, .holds] s (s.disableCamera c old new) :=
  Effect.mono ((((((s.setLens_effect c _).trans (State.setCadence_effect _ c _)).trans
    (State.slotsDisable_effect _ c)).trans (State.cadenceTo_effect _ c _)).trans (State.lensTo_effect _ c _)).trans
    (State.completeShort_effect _ _ _)) (by decide)

theorem State.enableCamera_effect (s : State) (c : Camera) :
    Effect [.pool, .rings, .cadence, .lens] s (s.enableCamera c) :=
  Effect.mono (((s.slotsEnable_effect c).trans (State.cadenceTo_effect _ c _)).trans (State.lensTo_effect _ c _))
    (by decide)

theorem State.configureLens_effect (s : State) (c : Camera) (old new : CameraRec) :
    Effect [.lens] s (s.configureLens c old new) := s.lensTo_effect c _

/-- The pieces that a CAMERA record can change when it is applied. -/
def cameraPieces : List Piece := [.cameras, .pool, .rings, .cadence, .lens, .holds]

theorem State.applyCamera_effect (s : State) (c : Camera) (r : CameraRec) : Effect cameraPieces s (s.applyCamera c r) := by
  unfold State.applyCamera
  dsimp only
  refine .ite (fun _ => ?_) fun _ => .ite (fun _ => ?_) fun _ => .ite (fun _ => ?_) fun _ => ?_
  · exact Effect.mono (((s.setCamera_effect c r).trans (State.disableCamera_effect _ c _ r)).trans
      (State.configureLens_effect _ c _ r)) (by decide)
  · exact Effect.mono (((s.setCamera_effect c r).trans (State.configureLens_effect _ c _ r)).trans
      (State.enableCamera_effect _ c)) (by decide)
  · exact Effect.mono (((s.setCamera_effect c r).trans (State.configureLens_effect _ c _ r)).trans
      (State.staleTimeout_effect _ c)) (by decide)
  · exact Effect.mono ((s.setCamera_effect c r).trans (State.configureLens_effect _ c _ r)) (by decide)

/-- The pieces that applying a load of a table can change. -/
def TableId.pieces : TableId → List Piece
  | .setup => setupPieces
  | .cameras => .mem :: .ring :: cameraPieces
  | .screens => [.mem, .ring, .screens, .pool, .rings, .contexts]
  | .layouts => [.layouts]
  | .panes => [.panes]
  | .doors => [.mem, .ring, .doors, .doorUnit, .spots]

theorem State.applyLoad_touches (s : State) : Touches s.engine.load.table.pieces s s.applyLoad := by
  unfold State.applyLoad
  dsimp only
  split <;> rename_i h <;> rw [h]
  · exact .foldl (fun s x => s.applySetup_touches _) _ s
  · exact .foldl (fun s x => (s.applyCamera_effect _ _).touched (by decide)) _ s
  · exact .foldl (fun s x => (s.applyScreen_effect _ _).touched (by decide)) _ s
  · intro p hp; cases p <;> first | rfl | exact absurd hp (by decide)
  · intro p hp; cases p <;> first | rfl | exact absurd hp (by decide)
  · exact .foldl (fun s x => (s.applyDoor_effect _ _).touched (by decide)) _ s

/-! ### Taking a command -/

/-- The pieces that a COMMIT can change when it is taken. -/
def commitPieces : List Piece :=
  [.mem, .ring, .engine, .setup, .cameras, .doors, .screens, .layouts, .panes, .pool, .rings, .cadence, .lens, .contexts,
    .doorUnit, .spots, .holds]

theorem TableId.pieces_subset (T : TableId) : T.pieces ⊆ commitPieces := by cases T <;> decide

theorem State.stagingCommit_touches (s : State) : Touches commitPieces s s.stagingCommit := by
  have applied : Touches commitPieces s s.applyLoad := s.applyLoad_touches.mono (TableId.pieces_subset _)
  have ended : Touches commitPieces s ((s.applyLoad.enter .idle).finishLoad 0x02 .done .none) :=
    applied.seq (((State.enter_effect _ _).trans (State.finishLoad_effect _ _ _ _)).touched (by decide))
  have awaited : Touches commitPieces s (State.awaitScreens s s.applyLoad) :=
    applied.seq ((State.awaitScreens_effect _ _).touched (by decide))
  unfold State.stagingCommit
  refine .ite (fun _ => (s.abortLoad_effect _ _).touched (by decide)) fun _ => ?_
  unfold State.commitLoad
  split
  · exact (((s.discardStaging_effect).trans (State.enter_effect _ _)).trans (State.finish_effect _ _ _ _ _ _)).touched
      (by decide)
  · split
    · exact ended
    · exact ended
    · exact ended
    · exact awaited
    · exact awaited
    · exact awaited

/-- The pieces that a command can change when the engine takes or ignores it. -/
def Command.pieces : Command → List Piece
  | .load .. => [.mem, .ring, .engine]
  | .commit => commitPieces
  | .abortClear => [.mem, .ring, .engine]
  | .learn _ => [.mem, .ring, .engine, .lens]
  | .learnSuspend _ => [.mem, .ring, .engine, .lens]
  | .learnResume _ => [.mem, .ring, .engine, .lens]
  | .spotSet .. => [.mem, .ring, .engine, .spots]
  | .spotClear _ => [.mem, .ring, .engine, .spots]
  | .holdTake .. => [.mem, .ring, .engine, .pool, .rings, .holds]
  | .holdRelease _ => [.mem, .ring, .engine, .pool, .holds]
  | .holdLock => [.mem, .ring, .engine, .holds]
  | .snapshot => [.mem, .ring, .engine]
  | .restart => [.mem, .ring, .engine, .pool, .rings, .cadence, .lens, .contexts, .doorUnit, .spots, .holds, .episodes]
  | .undefinedCode _ => [.mem, .ring, .engine]

theorem State.idleCommand_touches (s : State) (c : Command) : Touches (Command.pieces c) s (s.idleCommand c) := by
  cases c with
  | load t f n => exact (s.idleLoad_effect t f n).touched (by simp only [Command.pieces]; decide)
  | commit => exact (s.finishPlain_effect _ _ _).touched (by simp only [Command.pieces]; decide)
  | abortClear => exact (s.finishPlain_effect _ _ _).touched (by simp only [Command.pieces]; decide)
  | learn m => exact (s.idleLearn_effect m).touched (by simp only [Command.pieces]; decide)
  | learnSuspend m => exact (s.idleLearnSuspend_effect m).touched (by simp only [Command.pieces]; decide)
  | learnResume m => exact (s.idleLearnResume_effect m).touched (by simp only [Command.pieces]; decide)
  | spotSet i l v => exact (s.idleSpotSet_effect i l v).touched (by simp only [Command.pieces]; decide)
  | spotClear i => exact (s.idleSpotClear_effect i).touched (by simp only [Command.pieces]; decide)
  | holdTake c n => exact (s.idleHoldTake_effect c n).touched (by simp only [Command.pieces]; decide)
  | holdRelease h => exact (s.idleHoldRelease_effect h).touched (by simp only [Command.pieces]; decide)
  | holdLock => exact s.idleHoldLock_effect.touched (by simp only [Command.pieces]; decide)
  | snapshot => exact s.idleSnapshot_effect.touched (by simp only [Command.pieces]; decide)
  | restart => exact .refl _ s
  | undefinedCode x => exact (s.finishPlain_effect _ _ _).touched (by simp only [Command.pieces]; decide)

/-- A command that is offered changes nothing but its pieces, in every engine state. -/
theorem State.offer_touches (s : State) (c : Command) (t : Byte) : Touches (Command.pieces c) s (s.offer c t) := by
  have head : ∀ c, [Piece.mem, .ring, .engine] ⊆ Command.pieces c := fun c => by
    cases c <;> simp only [Command.pieces] <;> decide
  have tag : Touches (Command.pieces c) s (s.takeTag t) :=
    (s.takeTag_effect t).touched (List.Subset.trans (by decide) (head c))
  unfold State.offer
  refine .ite (fun h => ?_) fun _ => ?_
  · subst h; exact (s.warmRestart_effect t).touched (by decide)
  · split
    · exact tag.seq (State.idleCommand_touches _ c)
    · refine .ite (fun h => ?_) fun _ => tag.seq ((State.abortLoad_effect _ _ _).touched
        (List.Subset.trans (by decide) (head c)))
      subst h
      exact tag.seq (State.stagingCommit_touches _)
    · exact .refl _ s
    · exact .ite (fun _ => tag.seq (((State.enter_effect _ _).trans (State.finishPlain_effect _ _ _ _)).touched
        (List.Subset.trans (by decide) (head c)))) fun _ => .refl _ s

end Sys2Proof.Machine
end

