-- ==== Sys2Proof/Laws/Step.lean ====
section
/-! SUPPORT. Everything a step can do, said once: a command that a running part takes is one operation of
a block, followed at most by the answer at the Frame Port. The provers' invariants go through
`exec_cases` and `step_cases`. -/

namespace Sys2Proof.Machine

/-- One operation of the running part from `s` to `t`, before the port's answer. -/
inductive Operation (s : State) : State → Prop where
  /-- A beat that changes nothing but the port, or a timed event that is not due. -/
  | nothing : Operation s s
  /-- A write beat is dropped and recorded (R195). -/
  | drop (k : GuardKind) (tag : Tag) (a : BitVec 32) : Operation s (s.guardDrop k tag a)
  /-- A plain window write, at an aligned address off the control page and the slot area (R193). -/
  | store (a : Nat) (w : WriteData) (aligned : a % 8 = 0) (below : a < Config.memoryBytes) (page : ¬s.inPage a)
      (area : s.pool.inArea a = false) : Operation s (s.setMem (s.mem.writeWord a w))
  /-- A control page word is written (R152). -/
  | page (n : Nat) (w : WriteData) (h : n < 512) : Operation s (s.pageWrite n w)
  /-- A consumer index write (R179). -/
  | consume (w : WriteData) : Operation s (s.consumerBeat w)
  /-- A staging area write while STAGING (R158). -/
  | stage (i : Fin 256) (w : WriteData) (h : s.engine.state = .staging) :
      Operation s ((s.pageWrite (256 + i.val) w).stageBeat i w)
  /-- A command is offered to the engine (R154). -/
  | command (d : Word) (c : Command) (tag : Byte) : Operation s ((s.pageWrite 8 ⟨0xFF, d⟩).offer c tag)
  /-- A landing beat that has passed the checks of R9. -/
  | land (c : Camera) (n : Nat) (w : WriteData) (h : s.cameras[c].enable = true)
      (below : n < s.cameras[c].frameWords) : Operation s (s.landingPhase c n w)
  /-- A frame start of an enabled screen (R78, R80). -/
  | frameStart (i : Screen) (h : s.screens[i].enable = true) : Operation s ((s.latch i).frameStartNotice i)
  /-- A Status Window read (R169). -/
  | status (word : Fin 4) : Operation s (s.afterStatusRead word)
  /-- A stale timeout (R34). -/
  | stale (c : Camera) : Operation s (s.staleTimeout c)
  /-- A sample instant with the levels on the lines (R112). -/
  | sample (l : Lines) : Operation s { s with lines := l }.sampleInstant
  /-- A linger expiry (R124). -/
  | linger (i : Screen) : Operation s (s.lingerExpiry i)
  /-- A guard episode closes (R196). -/
  | close (k : GuardKind) : Operation s (s.guardClose k)
  /-- The APPLYING wait ends by time (R168). -/
  | overtime : Operation s s.applyingOvertime

/-- The part has done one operation, and the port may have answered. -/
def Ran (s t : State) : Prop := ∃ u p, Operation s u ∧ t = { u with port := p }

theorem Ran.of {s u : State} (h : Operation s u) : Ran s u := ⟨u, u.port, h, rfl⟩

theorem Ran.complete {s u : State} (r : Requester) (h : Operation s u) : Ran s (u.completeWrite r) := ⟨u, _, h, rfl⟩

theorem Ran.return {s u : State} (r : Requester) (w : Word) (h : Operation s u) : Ran s (u.returnWord r w) :=
  ⟨u, _, h, rfl⟩

theorem whileRunning_cases {s t : State} {f : State → State} (h : whileRunning s f = .next t) :
    t = s ∨ s.isRunning ∧ t = f s := by
  unfold whileRunning at h
  split at h
  · cases h; exact .inr ⟨by assumption, rfl⟩
  · cases h; exact .inl rfl
  · cases h; exact .inl rfl
  · cases h

theorem beatAddr_mod (a : Nat) : beatAddr a % 8 = 0 := by unfold beatAddr; omega

theorem State.controlBeat_cases (s : State) (n : Nat) (w : WriteData) (hn : n < 512) : Operation s (s.controlBeat n w) := by
  have staging : ∀ i : Fin 256, Operation s (s.stagingBeat i w) := fun i => by
    unfold State.stagingBeat
    dsimp only
    split
    · exact .stage i w ‹_›
    · exact .page _ w (by omega)
  unfold State.controlBeat
  split
  · exact .nothing
  · split
    · split
      · exact .command _ _ _
      · exact .page 8 w (by omega)
    · split
      · exact .consume w
      · split
        · exact staging _
        · exact .page n w hn

theorem State.asControl_cases {s : State} {f : State → State} (r : Requester) (n : Nat) (h : Operation s (f s)) :
    Operation s (s.asControl r n f) := by
  unfold State.asControl
  split
  · exact h
  · exact .drop _ _ _

theorem State.landingBeat_cases (s : State) (t : Tag) (c : Camera) (n : Nat) (w : WriteData) :
    Operation s (s.landingBeat t c n w) := by
  unfold State.landingBeat
  split
  · exact .drop _ _ _
  · split
    · exact .drop _ _ _
    · split
      · exact .drop _ _ _
      · exact .land c n w (by simp_all) (by omega)

theorem State.portWrite_cases (s : State) (r : Requester) (a : Nat) (w : WriteData) : Ran s (s.portWrite r a w) := by
  refine .complete r ?_
  generalize h : s.regionOf (beatAddr a) = g
  cases g with
  | controlPage word => exact State.asControl_cases (f := fun s => s.controlBeat word.toNat w) r _ (s.controlBeat_cases _ w word.isLt)
  | slotArea => exact .drop _ _ _
  | landing c word => exact s.landingBeat_cases _ c _ w
  | screen i word => exact .drop _ _ _
  | unmapped => exact .drop _ _ _
  | plain =>
    unfold State.regionOf at h
    split at h
    · split at h
      · cases h
      · split at h
        · cases h
        · exact .store _ w (beatAddr_mod a) (by assumption) (by assumption) (by simp_all)
    · split at h
      · cases h
      · split at h <;> cases h

theorem State.screenBeat_cases (s : State) (r : Requester) (i : Screen) (n : Nat) : Ran s (s.screenBeat r i n) := by
  refine .return r _ ?_
  split
  · rename_i h
    refine .frameStart i ?_
    simp only [State.frameStart, Bool.and_eq_true] at h
    exact h.2
  · exact .nothing

theorem State.portRead_cases (s : State) (r : Requester) (a : Nat) : Ran s (s.portRead r a) := by
  unfold State.portRead
  generalize s.regionOf (beatAddr a) = g
  cases g with
  | controlPage word =>
    unfold State.readRegion
    dsimp only
    split
    · exact .return r _ (.status _)
    · exact .return r _ .nothing
  | slotArea => exact .return r _ .nothing
  | plain => exact .return r _ .nothing
  | landing c word => exact .return r _ .nothing
  | screen i word => exact s.screenBeat_cases r i _
  | unmapped => exact .return r _ .nothing

/-- Whatever a command does: nothing, the release or the fall of RESET_N, or one operation of the running
part. -/
theorem exec_cases {c : Instr} {s t : State} (h : exec c s = .next t) :
    t = s ∨ (∃ straps, t = s.powerOn straps) ∨ (∃ x, t = { s with condition := x, port := ⟨none, none⟩ })
      ∨ s.isRunning ∧ Ran s t := by
  have run : ∀ f, whileRunning s f = .next t → Ran s (f s) →
      t = s ∨ (∃ straps, t = s.powerOn straps) ∨ (∃ x, t = { s with condition := x, port := ⟨none, none⟩ })
        ∨ s.isRunning ∧ Ran s t := fun f h hr => by
    rcases whileRunning_cases h with h' | ⟨hs, ht⟩
    · exact .inl h'
    · exact .inr (.inr (.inr ⟨hs, ht ▸ hr⟩))
  have word : ∀ r d k tag, commandWrite r d k tag s = .next t →
      t = s ∨ (∃ straps, t = s.powerOn straps) ∨ (∃ x, t = { s with condition := x, port := ⟨none, none⟩ })
        ∨ s.isRunning ∧ Ran s t := fun r d k tag h =>
    run _ h (.complete r (State.asControl_cases (f := fun s => s.commandBeat d k tag) r 8 (.command d k tag)))
  cases c with
  | powerOnReset straps => cases h; exact .inr (.inl ⟨straps, rfl⟩)
  | resetNFall n b => cases h; exact .inr (.inr (.inl ⟨_, rfl⟩))
  | plainWriteBeat r a w => exact run (fun s => s.portWrite r a.toNat w) h (s.portWrite_cases r _ w)
  | plainReadBeat r a => exact run (fun s => s.portRead r a.toNat) h (s.portRead_cases r _)
  | zeroWordRead r a => exact run (fun s => s.portRead r a.toNat) h (s.portRead_cases r _)
  | screenWrite r i n w => exact run (fun s => (s.guardDrop .screenWrite r.tag (screenAddr i n.toNat)).completeWrite r) h (.complete r (.drop _ _ _))
  | unmappedWrite r a w => exact run (fun s => s.portWrite r a.toNat w) h (s.portWrite_cases r _ w)
  | landingWrite r c n w => exact run (fun s => (s.landingBeat r.tag c n.toNat w).completeWrite r) h (.complete r (s.landingBeat_cases _ c _ w))
  | screenRead r i n => exact run (fun s => s.screenBeat r i n.toNat) h (s.screenBeat_cases r i _)
  | statusWindowRead r n => exact run (fun s => s.statusBeat r n) h (.return r _ (.status n))
  | controlPageWrite r n w =>
    exact run (fun s => (s.asControl r n.toNat fun s => s.controlBeat n.toNat w).completeWrite r) h
      (.complete r (State.asControl_cases (f := fun s => s.controlBeat n.toNat w) r _ (s.controlBeat_cases _ w n.isLt)))
  | consumerIndex r w =>
    exact run (fun s => (s.asControl r 16 fun s => s.consumerBeat w).completeWrite r) h
      (.complete r (State.asControl_cases (f := fun s => s.consumerBeat w) r 16 (.consume w)))
  | stagingWrite r n w =>
    refine run (fun s => (s.asControl r (256 + n.toNat) fun s => s.stagingBeat n.toFin w).completeWrite r) h
      (.complete r (State.asControl_cases (f := fun s => s.stagingBeat n.toFin w) r _ ?_))
    unfold State.stagingBeat
    dsimp only
    split
    · exact .stage n.toFin w ‹_›
    · exact .page _ w (by have := n.isLt; simp; omega)
  | load r tag a b n x => exact word _ _ _ _ h
  | commit r tag x => exact word _ _ _ _ h
  | abortClear r tag x => exact word _ _ _ _ h
  | learn r tag m x => exact word _ _ _ _ h
  | learnSuspend r tag m x => exact word _ _ _ _ h
  | learnResume r tag m x => exact word _ _ _ _ h
  | spotSet r tag i l v x => exact word _ _ _ _ h
  | spotClear r tag i x => exact word _ _ _ _ h
  | holdTake r tag c n x => exact word _ _ _ _ h
  | holdRelease r tag i x => exact word _ _ _ _ h
  | holdLock r tag x => exact word _ _ _ _ h
  | snapshot r tag x => exact word _ _ _ _ h
  | restart r tag x => exact word _ _ _ _ h
  | undefinedCode r k tag x => exact word _ _ _ _ h
  | staleTimeout c => exact run _ h (.of (.stale c))
  | sampleInstant a b v => exact run (fun s => State.sampleInstant { s with lines := ⟨a, b, v⟩ }) h (.of (.sample ⟨a, b, v⟩))
  | lingerExpiry i => exact run _ h (.of (.linger i))
  | guardEpisodeClose k =>
    refine run _ h ?_
    split
    · exact .of (.close k)
    · exact .of .nothing
  | applyingOvertime => exact run _ h (.of .overtime)

/-- Whatever a step does: one microsecond on an empty queue, or the front command on the queue's rest. -/
theorem step_cases {s t : State} (h : step s = .next t) :
    s.pending = [] ∧ t = s.tick ∨ ∃ c rest, s.pending = c :: rest ∧ exec c { s with pending := rest } = .next t := by
  unfold step at h
  split at h
  · rename_i hp
    cases h
    exact .inl ⟨hp, rfl⟩
  · rename_i c rest hp
    exact .inr ⟨c, rest, hp, h⟩

/-- An invariant is kept by every step if the clock, the queue, the port, the reset line and the operations
keep it. -/
theorem step_keeps {P : State → Prop} {s t : State} (hs : P s) (h : step s = .next t)
    (queue : ∀ u q, P u → P { u with pending := q })
    (clock : ∀ u n q, P u → P { u with time := n, pending := q })
    (port : ∀ u p, P u → P { u with port := p })
    (fall : ∀ u x p, P u → P { u with condition := x, port := p })
    (release : ∀ u straps, P u → P (u.powerOn straps))
    (operation : ∀ u v, P u → Operation u v → P v) : P t := by
  rcases step_cases h with ⟨-, rfl⟩ | ⟨c, rest, -, he⟩
  · unfold State.tick
    split
    · exact clock s _ _ hs
    · exact hs
    · exact fall s _ s.port hs
    · exact hs
  · have hq := queue s rest hs
    rcases exec_cases he with rfl | ⟨straps, rfl⟩ | ⟨x, rfl⟩ | ⟨-, u, p, ho, rfl⟩
    · exact hq
    · exact release _ _ hq
    · exact fall _ _ _ hq
    · exact port _ _ (operation _ _ hq ho)

/-! ### Arrivals -/

/-- Everything an arrival can do: nothing while RESET_N will be low, else its beats join the queue. -/
theorem State.arrive_cases (s : State) (q : Request) :
    (s.lineAtBack.low = true ∧ s.arrive q = s)
      ∨ (s.lineAtBack.low = false
        ∧ s.arrive q =
          { s with pending := s.pending ++ { s with straps := s.lineAtBack.straps }.requestBeats q }) := by
  unfold State.arrive
  cases h : s.lineAtBack.low
  · exact .inr ⟨rfl, by simp [h]⟩
  · exact .inl ⟨rfl, by simp [h]⟩

@[simp] theorem State.resetFalls_pending (s : State) (low : Nat) (refclk : Bool) :
    (s.resetFalls low refclk).pending = s.pending.filter notBeat ++ [.resetNFall low refclk] := rfl

/-- Behind a fall the reset line is low. -/
@[simp] theorem State.resetFalls_low (s : State) (low : Nat) (refclk : Bool) :
    (s.resetFalls low refclk).lineAtBack.low = true := by
  simp [State.lineAtBack, ResetLine.after]

end Sys2Proof.Machine
end

