-- ==== Sys2Proof/Laws/Words.lean ====
section
/-! SUPPORT. Words and their bytes, and what a stored beat leaves in frame memory. -/

namespace Sys2Proof.Machine

/-- Byte `j` of the number that a list of bytes spells is the list's entry. -/
theorem leValue_byte : ∀ (bs : List Byte) (j : Nat) (h : j < bs.length), leValue bs / 256 ^ j % 256 = bs[j].toNat
  | [], j, h => absurd h (Nat.not_lt_zero j)
  | b :: bs, 0, _ => by have := b.isLt; simp [leValue]; omega
  | b :: bs, j + 1, h => by
    have ih := leValue_byte bs j (by simpa using h)
    have := b.isLt
    simp only [leValue, List.getElem_cons_succ]
    rw [← ih, Nat.pow_succ, Nat.mul_comm (256 ^ j), ← Nat.div_div_eq_div_mul]
    congr 2
    omega

/-- Byte `j` of the word that at most eight bytes spell is the list's entry. -/
theorem byteOf_wordOfBytes (bs : List Byte) (hl : bs.length ≤ 8) (j : Nat) (h : j < bs.length) :
    byteOf (wordOfBytes bs) j = bs[j] := by
  apply BitVec.eq_of_toNat_eq
  have hv := leValue_byte bs j h
  simp only [byteOf, wordOfBytes, BitVec.extractLsb'_toNat, BitVec.toNat_ofNat, Nat.shiftRight_eq_div_pow]
  rw [← hv, show (256 : Nat) ^ j = 2 ^ (8 * j) by rw [show (256 : Nat) = 2 ^ 8 by rfl, ← Nat.pow_mul]]
  have e : (2 : Nat) ^ 64 = 2 ^ (8 * j) * (2 ^ 8 * 2 ^ (64 - 8 * j - 8)) := by
    rw [← Nat.pow_add, ← Nat.pow_add]
    congr 1
    omega
  rw [e, Nat.mod_mul_right_div_self, Nat.mod_mul_right_mod]
  rfl

/-- A word merged byte by byte from two words. -/
theorem byteOf_mergeBytes (f : Nat → Byte) (j : Nat) (h : j < 8) :
    byteOf (wordOfBytes ((List.range 8).map f)) j = f j := by
  rw [byteOf_wordOfBytes _ (by simp) j (by simpa using h)]
  simp

/-- Byte `j` of the word of frame memory at an address. -/
theorem byteOf_readWord (m : Memory) (a j : Nat) (h : j < 8) :
    byteOf (m.readWord a) j = m.read (physical (a + j)) :=
  byteOf_mergeBytes _ j h

/-- The fields of a word at a multiple of eight bits are its bytes. -/
theorem byteOf_eq_extract (w : Word) (j : Nat) : byteOf w j = w.extractLsb' (8 * j) 8 := rfl

/-- A state whose frame memory is another's with one beat written to it has that beat stored. -/
theorem stored_of_writeWord {s t : State} {a : Nat} {w : WriteData} (hw : s.mem.wf = true)
    (h : t.mem = s.mem.writeWord a w) : Stored s t a w := by
  refine ⟨fun j hj => ?_, fun x hx => ?_⟩ <;> rw [h]
  · split
    · exact Memory.read_writeWord_self hw hj ‹_›
    · rename_i hn
      refine Memory.read_writeWord_of_ne fun i hi he e => hn ?_
      have := physical_add_inj (by omega) (by omega) e
      exact this ▸ he
  · exact Memory.read_writeWord_of_ne fun j hj _ => hx j hj

end Sys2Proof.Machine
end

