-- ==== Sys2Proof/Tests/Slice0.lean ====
section
/-! SUPPORT. Tests of the model against the manual's tables and worked examples, each about one step or one
operation on a small state, and a witness for each statement that has hypotheses. -/

namespace Sys2Proof.Tests

open Sys2Proof Sys2Proof.Machine

-- One theorem at a time: checked side by side, these evaluations need more threads than a memory limit allows.
set_option Elab.async false

/-! ### The well-formedness checks -/

def ctl : Requester := ⟨0, true⟩
def cap : Requester := ⟨1, true⟩
def dsp : Requester := ⟨2, true⟩
def gen : Requester := ⟨3, true⟩

/-- R194: a zero word is read below 0x3000_0000 or from 0x3400_0000 on; a screen window address is refused. -/
theorem test_zeroWordRead_refuses_screen_window :
    (Instr.zeroWordRead ctl 0x30000000).wellFormed = false ∧ (Instr.zeroWordRead ctl 0x2FFFFFF8).wellFormed = true := by
  decide

/-- R194: a plain window address is refused too. -/
theorem test_zeroWordRead_refuses_plain_window :
    (Instr.zeroWordRead ctl 0x1FFFFFF8).wellFormed = false ∧ (Instr.zeroWordRead ctl 0x34000000).wellFormed = true := by
  decide

/-- R193: unmapped space begins at 0x3400_0000. -/
theorem test_unmappedWrite_refuses_below :
    (Instr.unmappedWrite ctl 0x33FFFFF8 ⟨0xFF, 0⟩).wellFormed = false
      ∧ (Instr.unmappedWrite ctl 0x34000000 ⟨0xFF, 0⟩).wellFormed = true := by
  decide

/-- 11.3: 0x12 is a code, 0x13 is none. -/
theorem test_undefinedCode_refuses_defined :
    (Instr.undefinedCode ctl 0x12 0 0).wellFormed = false ∧ (Instr.undefinedCode ctl 0x13 0 0).wellFormed = true := by
  decide

/-! ### Command Words, written out from 11.3 -/

/-- LOAD of LAYOUTS (3), first record 4, count 2, tag 0x21. -/
theorem test_word_load :
    commandRow ctl 0x0000000204032101 = .load ctl 0x21 3 4 2 0 := by decide

/-- COMMIT with tag 0x35 and nonzero unread bytes. -/
theorem test_word_commit : commandRow ctl 0xA900000000003502 = .commit ctl 0x35 0xA90000000000 := by decide

theorem test_word_abortClear : commandRow ctl 0x0000000000003303 = .abortClear ctl 0x33 0 := by decide

/-- The mask bytes 2 and 3 are read as 16 bits: camera 12 is bit 4 of byte 3. -/
theorem test_word_learn :
    commandRow ctl 0x0000000010080F10 = .learn ctl 0x0F 0x1008 0
      ∧ commandRow ctl 0x0000000000081011 = .learnSuspend ctl 0x10 8 0
      ∧ commandRow ctl 0x0000000000081112 = .learnResume ctl 0x11 8 0 := by decide

/-- SPOT_SET(0, 9, 5) with tag 0x0D and SPOT_CLEAR(3) with tag 0x0E. -/
theorem test_word_spot :
    commandRow ctl 0x0000000509000D20 = .spotSet ctl 0x0D 0 9 5 0
      ∧ commandRow ctl 0x0000000000030E21 = .spotClear ctl 0x0E 3 0 := by decide

theorem test_word_hold :
    commandRow ctl 0x0000000002050130 = .holdTake ctl 1 5 2 0
      ∧ commandRow ctl 0x00000000000F0231 = .holdRelease ctl 2 15 0
      ∧ commandRow ctl 0x0000000000000332 = .holdLock ctl 3 0 := by decide

theorem test_word_system :
    commandRow ctl 0x0000000000000440 = .snapshot ctl 4 0
      ∧ commandRow ctl 0x0000000000000550 = .restart ctl 5 0
      ∧ commandRow ctl 0x00000000000006FF = .undefinedCode ctl 0xFF 6 0 := by decide

/-! ### A small state -/

def camera5 : CameraRec :=
  { CameraRec.powerOn with enable := true, lensOn := true, k := 3, w := 320, h := 240, period := 33333, judge := 8 }

def oldHold : Hold :=
  { state := .complete, origin := .manual, camera := 5, event := 800000, post := 1
    slots := [⟨3, 6, .pre, some 790000⟩, ⟨4, 7, .post, none⟩], short := false, staleSource := false
    cause := some .count }

def ring5 : RingRec := { RingRec.powerOn with ready := [0], filling := some 1, empty := [2], frameCount := 8 }

/-- Camera 5 enabled on a pool of 8 slots of 192 KiB, one hold, two FREE slots, the report ring at
0x0000_2000 with 64 places, and tags 0 to 3 with the roles CONTROL, CAPTURE, DISPLAY and GENERAL. -/
def base : State :=
  { State.reset with
    time := 1000000
    setup := { SetupRec.powerOn with
      slotBase := 0x08000000, slotUnits := 3, slotCount := 8, ringBase := 0x2000, ringCapacity := 64
      roleMap := 0xFFFFFF27 }
    cameras := upd State.reset.cameras 5 camera5
    pool := ⟨0x08000000, 3,
      [⟨.ring 5 .ready, 0, some ⟨8, 966667⟩⟩, ⟨.ring 5 .filling, 0, none⟩, ⟨.ring 5 .empty, 0, none⟩,
        ⟨.held 0, 0, some ⟨6, 790000⟩⟩, ⟨.held 0, 1, some ⟨7, 823333⟩⟩, ⟨.retiring, 1, none⟩, .fresh, .fresh]⟩
    rings := upd State.reset.rings 5 ring5
    cadence := upd State.reset.cadence 5 ⟨.locked, 0, 2, some 966667, 966667, none, some 77, 7, false⟩
    ring := ⟨0x2000, 64, true, 61, 0, 0⟩
    holds := ⟨upd State.reset.holds.table 0 (some oldHold), [0], false⟩ }

/-- The next state of a command. -/
def after (c : Instr) (s : State) : State :=
  match exec c s with
  | .next t => t
  | .fault _ => s
  | .refused _ => s

/-- The next state exists. -/
def goesOn (c : Instr) (s : State) : Bool :=
  match exec c s with
  | .next _ => true
  | .fault _ => false
  | .refused _ => false

/-! ### Reset -/

/-- R192: straps 11 select 0x1FFF_F000; R197: every tag holds CONTROL. -/
theorem test_powerOnReset_straps :
    (after (.powerOnReset 3) base).pageBase = 0x1FFFF000 ∧ (after (.powerOnReset 3) base).roleOf 3 = .control
      ∧ (after (.powerOnReset 3) base).time = 0 := by decide +kernel

/-- R198: a low pulse of 10 microseconds holds the part in reset; one of 9, and one without REFCLK, is not
counted. -/
theorem test_resetNFall_limits :
    (after (.resetNFall 9 true) base).condition = .lowPulse 9
      ∧ (after (.resetNFall 10 true) base).condition = .heldInReset
      ∧ (after (.resetNFall 10 false) base).condition = .lowPulse 10 := by decide +kernel

/-- R198: ATTN is low while RESET_N is, though the ring holds reports. -/
theorem test_resetNFall_attn : base.attn = true ∧ (after (.resetNFall 9 true) base).attn = false := by decide +kernel

/-- R197: a beat that waits at the fall is abandoned, and a sample instant is not; behind a release that
waits the fall stands last, and then no request is taken. -/
theorem test_resetFalls_drops_beats :
    (({ base with pending := [.snapshot ctl 1 0, .sampleInstant 0 0 false] } : State).resetFalls 10 true).pending =
        [.sampleInstant 0 0 false, .resetNFall 10 true]
      ∧ ((({ base with pending := [.powerOnReset 1, .snapshot ctl 1 0] } : State).resetFalls 10 true).arrive
          (.read 0 0 0)).pending = [.powerOnReset 1, .resetNFall 10 true] := by decide +kernel

/-- R192: behind a release with straps 01 the address 0x0010_0040 is the Command Word. -/
theorem test_arrive_behind_release :
    (({ base with pending := [.powerOnReset 1] } : State).arrive
        (.write 0 0x00100040 0 (Vector.replicate 16 ⟨0xFF, 0x0540⟩))).pending =
      [.powerOnReset 1, .snapshot ctl 5 0] := by decide +kernel

/-! ### Beats -/

/-- R189: only bytes 0 and 2 are enabled; the lowest three address bits are ignored. -/
theorem test_plainWriteBeat_enables :
    let t := after (.plainWriteBeat gen 0x3005 ⟨0x05, 0x8877665544332211⟩) base
    t.mem = [(0x3000, 0x11), (0x3002, 0x33)] ∧ t.port.completed = some 3 := by decide +kernel

/-- R2, R193: the slot area is not written; its first byte is 0x0800_0000, its last 0x0817_FFFF. -/
theorem test_plainWriteBeat_slot_area :
    let t := after (.plainWriteBeat gen 0x817FFF8 ⟨0xFF, 1⟩) base
    t.mem = [] ∧ t.episode .slotWrite = some ⟨3, 0x0817FFF8, 1000000, 1000000, 1⟩
      ∧ (after (.plainWriteBeat gen 0x8180000 ⟨0xFF, 1⟩) base).mem = [(0x8180000, 1)] := by decide +kernel

/-- R190: the word read is the bytes of frame memory, byte 0 the least significant. -/
theorem test_plainReadBeat_word :
    (after (.plainReadBeat gen 0x3000) { base with mem := [(0x3000, 0x11), (0x3007, 0x88)] }).port.read =
      some ⟨3, 0x8800000000000011, true⟩ := by decide +kernel

theorem test_zeroWordRead_zero : (after (.zeroWordRead gen 0x25000000) base).port.read = some ⟨3, 0, true⟩ := by
  decide +kernel

/-- R193: a screen window write is dropped for every role. -/
theorem test_screenWrite_dropped :
    (after (.screenWrite dsp 1 2 ⟨0xFF, 1⟩) base).episode .screenWrite =
      some ⟨2, 0x31000010, 1000000, 1000000, 1⟩ := by decide +kernel

theorem test_unmappedWrite_dropped :
    (after (.unmappedWrite ctl 0xFFFFFFFF ⟨0xFF, 1⟩) base).episode .unmapped =
      some ⟨0, 0xFFFFFFF8, 1000000, 1000000, 1⟩ := by decide +kernel

/-- 10.5: the burst of four beats at 0x1FFF_FFF0 runs from the control page into camera 0's window. -/
theorem test_burst_rows :
    ({ base with straps := 3 } : State).requestBeats (.write 9 0x1FFFFFF0 3 (Vector.replicate 16 ⟨0xFF, 0⟩)) =
      [.stagingWrite ⟨9, false⟩ 254 ⟨0xFF, 0⟩, .stagingWrite ⟨9, false⟩ 255 ⟨0xFF, 0⟩,
        .landingWrite ⟨9, false⟩ 0 0 ⟨0xFF, 0⟩, .landingWrite ⟨9, true⟩ 0 1 ⟨0xFF, 0⟩] := by decide +kernel

/-- 10.5, its second beat: a drop of an open episode is counted and keeps the first tag and address. -/
theorem test_landingWrite_role :
    (after (.landingWrite gen 0 1 ⟨0xFF, 0⟩)
        (base.setEpisode 2 (some ⟨9, 0x20000000, 999999, 999999, 1⟩))).episode .landingRole =
      some ⟨9, 0x20000000, 999999, 1000000, 2⟩ := by decide +kernel

/-- R13, R14, R16: the last word of a whole frame; frame 9 becomes READY and the EMPTY member the target. -/
theorem test_landingWrite_accepts :
    let t := after (.landingWrite cap 5 19199 ⟨0xFF, 0⟩)
      (base.setRing 5 { ring5 with phase := .inFrame, writes := 19199 })
    t.rings[(5 : Camera)].members = [(0, .ready), (1, .ready), (2, .filling)]
      ∧ (t.slot 1).frame = some ⟨9, 1000000⟩ := by decide +kernel

/-- R77: below the picture's last row there is padding, which is black fill. -/
theorem test_screenRead_padding :
    (after (.screenRead gen 1 1024)
        ({ base with contexts := upd base.contexts 1 (some ⟨64, 64, 128, 0, ⟨1, 2, 3⟩, [], false⟩) }.setScreen 1
          ⟨true, 64, 64, 128, 0⟩)).port.read = some ⟨3, 0x8010801080108010, true⟩ := by decide +kernel

/-- R76, R83: pane 0 latches slot 0, camera 5's newest frame, and pins it. -/
theorem test_screenRead_latches :
    let s := ({ base with panes := upd base.panes 0 ⟨32, 0, 32, 64, 5, 1, 0, 0, false, false, false, 255⟩ }.setLayout 0
      ⟨0, blackFill⟩).setScreen 1 ⟨true, 64, 64, 128, 0⟩
    let t := after (.screenRead dsp 1 0) s
    (t.contexts[(1 : Screen)].map fun x => x.panes.map fun e => (e.latched, e.dim)) = some [(some ⟨0, 0x08000000⟩, false)]
      ∧ (t.slot 0).pins = 1 := by decide +kernel

def word8 (a b c d e f g h : Nat) : List Byte := [a, b, c, d, e, f, g, h].map (BitVec.ofNat 8)

/-- The slot of 4.9, its four source words alone. -/
def slot14 : Memory :=
  Memory.writeBytes
    (Memory.writeBytes
      (Memory.writeBytes (Memory.writeBytes [] (0x09C00000 + 51216) (word8 100 120 104 134 107 122 109 133))
        (0x09C00000 + 51224) (word8 112 119 115 136 118 118 116 138))
      (0x09C00000 + 53776) (word8 98 121 101 135 106 125 110 132))
    (0x09C00000 + 53784) (word8 111 120 114 137 117 117 121 139)

/-- 4.9: the word at x = 644, y = 10 of a pane at half scale. -/
theorem test_screenRead_half_scale :
    let e : PaneEntry :=
      { pane := 0, copy := ⟨640, 0, 640, 360, 9, 2, 0, 0, false, false, false, 255⟩, own := 9, shown := 9
        shownW := 1280, shownH := 720, latched := some ⟨14, 0x09C00000⟩, dim := false, staleBand := false
        marker := false, band := .none, border := .none }
    (⟨1280, 720, 2560, 0, blackFill, [e], false⟩ : ScanContext).wordAt slot14 644 10 =
      pixelWord 101 122 108 134 113 119 118 138 := by decide +kernel

/-- 12.5: cameras 2 and 12 usable, camera 3 OBSCURED, every other camera off. -/
theorem test_statusWindowRead_word2 :
    let on := fun (s : State) (c : Camera) => (s.setCamera c camera5).setRing c { RingRec.powerOn with ready := [0] }
    let locked := fun (s : State) (c : Camera) => s.setCadence c { CadenceRec.powerOn with state := .locked }
    let s := locked (locked (locked (on (on (on State.reset 2) 3) 12) 2) 3) 12
    (after (.statusWindowRead gen 2) (s.setLens 3 { LensRec.powerOn with state := .obscured })).port.read =
      some ⟨3, 0x0001000000004100, true⟩ := by decide +kernel

/-- R169: in APPLYING word 0 carries the complement of the tag, and the read flips TOGGLE afterwards. -/
theorem test_statusWindowRead_applying :
    let t := after (.statusWindowRead ctl 0)
      (base.setEngine { Engine.powerOn with state := .applying, lastTag := 0x0C, pending := 1, result := .done })
    t.port.read = some ⟨0, 0x000000000100F302, true⟩ ∧ t.engine.toggle = true := by decide +kernel

/-- R152: a write of word 8 with a byte enable clear reaches memory and is no command. -/
theorem test_controlPageWrite_partial_command :
    let t := after (.controlPageWrite ctl 8 ⟨0x7F, 0x0102⟩) base
    t.engine.lastTag = base.engine.lastTag ∧ t.engine.result = .none ∧ t.mem = [(64, 2), (65, 1)] := by decide +kernel

/-- R152: writes to the Status Window are dropped without a guard event. -/
theorem test_controlPageWrite_status_window :
    let t := after (.controlPageWrite ctl 3 ⟨0xFF, 1⟩) base
    t.mem = [] ∧ t.episodes = base.episodes := by decide +kernel

/-- 9.9: consumer 40 is accepted; 70 is not below 64, and memory holds it all the same. -/
theorem test_consumerIndex_limit :
    (after (.consumerIndex ctl ⟨0xFF, 40⟩) base).ring.consumer = 40
      ∧ (after (.consumerIndex ctl ⟨0xFF, 70⟩) base).ring.consumer = 0
      ∧ (after (.consumerIndex ctl ⟨0xFF, 70⟩) base).mem = [(128, 70)] := by decide +kernel

def staging (count staged : Nat) : State :=
  base.setEngine { Engine.powerOn with state := .staging, load := ⟨.doors, 10, count⟩, staged := staged, lastTag := 0x31 }

/-- R158: record 1 of a load of one record is out of range; the report carries code 0xFF. -/
theorem test_stagingWrite_out_of_range :
    let t := after (.stagingWrite ctl 8 ⟨0xFF, 1⟩) (staging 1 0)
    t.engine.state = .aborted ∧ t.engine.reason = .outOfRange ∧ t.mem.read (0x2000 + 61 * 32 + 8) = 0xFF := by
  decide +kernel

/-- R158: the ninth beat of a load of one record is one too many. -/
theorem test_stagingWrite_overcount :
    (after (.stagingWrite ctl 0 ⟨0x01, 1⟩) (staging 1 7)).engine.staged = 8
      ∧ (after (.stagingWrite ctl 0 ⟨0x01, 1⟩) (staging 1 8)).engine.reason = .overcount := by decide +kernel

/-! ### Commands -/

/-- 12.8: LOAD DOORS, first 10, count 4: 10 + 4 > 12. -/
theorem test_load_bad_count :
    let e := (after (.load ctl 0x31 5 10 4 0) base).engine
    (e.state, e.result, e.reason, e.table, e.index) = (.aborted, .aborted, .badCount, 5, 10) := by decide +kernel

/-- 12.8: LOAD PANES, first 2, count 1. -/
theorem test_load_opens :
    let e := (after (.load ctl 0x34 4 2 1 0) base).engine
    (e.state, e.result, e.reason, e.table, e.index, e.lastTag) = (.staging, .done, .none, 4, 2, 0x34) := by
  decide +kernel

/-- 12.8: pane 2 with next 2 on layout 4's chain: INVALID, CHAIN_LOOP, table 3, index 4. The pane's words 0
and 1 hold w 64, h 64, d 1 and next 2. -/
theorem test_commit_chain_loop :
    let buffer := upd (upd (Vector.replicate 256 (0 : Word)) 0 0x0040004000000000) 1 0x0200000000000100
    let s := (base.setLayout 4 ⟨2, blackFill⟩).setEngine
      { Engine.powerOn with state := .staging, load := ⟨.panes, 2, 1⟩, staged := 8, buffer := buffer }
    let t := after (.commit ctl 0x35 0) s
    (t.engine.state, t.engine.result, t.engine.reason, t.engine.table, t.engine.index) =
        (.idle, .invalid, .chainLoop, 3, 4) ∧ t.panes[(2 : Fin 224)] = s.panes[(2 : Fin 224)] := by decide +kernel

/-- R166: a LAYOUTS load with no screen affected ends DONE at once. -/
theorem test_commit_layout :
    let s := base.setEngine { Engine.powerOn with
      state := .staging, load := ⟨.layouts, 31, 1⟩, staged := 8, buffer := upd (Vector.replicate 256 (0 : Word)) 0 0x302010FF }
    let t := after (.commit ctl 1 0) s
    t.layouts[(31 : Fin 32)] = ⟨255, ⟨0x10, 0x20, 0x30⟩⟩ ∧ t.engine.result = .done ∧ t.engine.state = .idle := by
  decide +kernel

/-- A load of records from record `first` of table `T`, all its words staged. -/
def loaded (T : TableId) (first count : Nat) (words : List (Fin 256 × Word)) : State :=
  base.setEngine { Engine.powerOn with
    state := .staging, load := ⟨T, first, count⟩, staged := count * 8
    buffer := words.foldl (fun b x => upd b x.1 x.2) (Vector.replicate 256 (0 : Word)) }

/-- The words of `base`'s own SETUP record, with some of them replaced. -/
def setupLoad (changed : List (Fin 256 × Word)) : State :=
  loaded .setup 0 1
    ([(0, 0x0000080308000000), (1, 0x03E8004000002000), (2, 0x0070EB28FFFFFF27), (3, 0x000000030A0400A0)] ++ changed)

/-- R181, R187: with REVERSE accepted, whose mask the record sets to all screens, the COMMAND_DONE of the
COMMIT that moves the ring to 0x4000 stands at place 0; its kind is 1. -/
theorem test_commit_ring_place :
    let s := setupLoad [(1, 0x03E8004000004000), (3, 0x00000F030A0400A0)]
    let t := after (.commit ctl 1 0) { s with doorUnit := { s.doorUnit with reverse := ⟨some true, none, 0⟩ } }
    t.ring = ⟨0x4000, 64, true, 1, 0, 0⟩ ∧ t.mem.read 0x4000 = 1 ∧ t.spots[(3 : Screen)].entries.length = 1 := by
  decide +kernel

/-- R160: ABORT_CLEAR leaves ABORTED; R156: it changes no other state in IDLE. -/
theorem test_abortClear :
    (after (.abortClear ctl 1 0) (base.setEngine { Engine.powerOn with state := .aborted })).engine.state = .idle := by
  decide +kernel

/-- R57, R171: camera 5 takes the run; camera 6 alone refuses it with CAMERA_OFF. -/
theorem test_learn :
    (after (.learn ctl 1 0x60 0) base).lens[(5 : Camera)].learn = .running
      ∧ (after (.learn ctl 1 0x40 0) base).engine.reason = .cameraOff := by decide +kernel

/-- R61: only a run under way is suspended or resumed. -/
theorem test_learnSuspend : (after (.learnSuspend ctl 1 0x20 0) base).engine.reason = .notLearning := by decide +kernel

theorem test_learnResume :
    let s := base.setLens 5 { LensRec.powerOn with learn := .suspended, learned := 3 }
    (after (.learnResume ctl 1 0x20 0) s).lens[(5 : Camera)].learn = .running
      ∧ (after (.learnResume ctl 1 0x20 0) s).lens[(5 : Camera)].learned = 3 := by decide +kernel

/-- Screen 0's list of 12.4 at 63,000,000: A3 inactive with 4,000 ms to go, O3 active. -/
def doorList : SpotList :=
  { entries := [⟨.doorAlert 3, 4, 6, false, 4000000, 61500000, 1⟩, ⟨.doorOpen 3, 2, 4, true, 0, 60000000, 0⟩]
    counting := some 63000000, created := 2 }

/-- 12.4 at 64,000,000: SPOT_SET(0, 9, 5) preempts A3, which keeps 3,000 ms. -/
theorem test_spotSet_preempts :
    let t := after (.spotSet ctl 0x0D 0 9 5 0) ({ base with time := 64000000 }.setSpot 0 doorList)
    t.spots[(0 : Screen)].entries.map (fun e => (e.origin, e.level, e.linger)) =
      [(.manual, 5, 0), (.doorAlert 3, 4, 3000000), (.doorOpen 3, 2, 0)] ∧ t.spots[(0 : Screen)].counting = none := by
  decide +kernel

/-- R128, R200: a layout byte of 32 is BAD_ARG. -/
theorem test_spotSet_bad_arg : (after (.spotSet ctl 1 3 32 5 0) base).engine.reason = .badArg := by decide +kernel

/-- 12.4 at 66,000,000: after SPOT_CLEAR A3 governs and counts again. -/
theorem test_spotClear_uncovers :
    let l : SpotList :=
      { entries := ⟨.manual, 5, 9, true, 0, 64000000, 2⟩ :: ⟨.doorAlert 3, 4, 6, false, 3000000, 61500000, 1⟩ ::
          [⟨.doorOpen 3, 2, 4, false, 2000000, 60000000, 0⟩], counting := none, created := 3 }
    let t := after (.spotClear ctl 0x0E 0 0) ({ base with time := 66000000 }.setSpot 0 l)
    t.spots[(0 : Screen)].entries.map SpotEntry.origin = [.doorAlert 3, .doorOpen 3]
      ∧ t.spots[(0 : Screen)].counting = some 66000000 := by decide +kernel

/-- 12.4 at 69,000,000: A3 expires and O3 governs. -/
theorem test_lingerExpiry :
    let l : SpotList :=
      { entries := [⟨.doorAlert 3, 4, 6, false, 3000000, 61500000, 1⟩, ⟨.doorOpen 3, 2, 4, false, 2000000, 60000000, 0⟩]
        counting := some 66000000, created := 3 }
    let t := after (.lingerExpiry 0) ({ base with time := 69000000 }.setSpot 0 l)
    t.spots[(0 : Screen)].entries.map SpotEntry.origin = [.doorOpen 3] ∧ t.spots[(0 : Screen)].counting = some 69000000
      ∧ (after (.lingerExpiry 0) ({ base with time := 68999999 }.setSpot 0 l)).spots[(0 : Screen)] = l := by decide +kernel

/-- R138, R139: the hold takes place 1, the newest READY frame is its PRE entry, and slot 6 joins. -/
theorem test_holdTake :
    let t := after (.holdTake ctl 1 5 2 0) base
    t.holds.order = [0, 1] ∧ t.rings[(5 : Camera)].members = [(1, .filling), (2, .empty), (6, .empty)]
      ∧ (t.slot 0).disp = .held 1 ∧ t.engine.index = 1 := by decide +kernel

/-- R144: slot 3 becomes FREE; slot 4, still pinned, RETIRING. -/
theorem test_holdRelease :
    let t := after (.holdRelease ctl 1 0 0) base
    (t.slot 3).disp = .free ∧ (t.slot 4).disp = .retiring ∧ t.holdCount = 0 := by decide +kernel

/-- R146: under the lock the release is refused. -/
theorem test_holdLock :
    (after (.holdLock ctl 1 0) base).holds.lock = true
      ∧ (after (.holdRelease ctl 1 0 0) { base with holds := { base.holds with lock := true } }).engine.reason = .locked := by
  decide +kernel

/-- 9.9: on an empty ring the index is 20 plus the hold count. -/
theorem test_snapshot_index :
    (after (.snapshot ctl 1 0) { base with ring := ⟨0x2000, 64, true, 0, 0, 0⟩ }).engine.index = 21 := by decide +kernel

/-- R25: the held slots stay, and camera 5 takes the lowest three FREE ones. -/
theorem test_restart_ring :
    (after (.restart ctl 1 0) base).rings[(5 : Camera)].members = [(0, .filling), (1, .empty), (2, .empty)]
      ∧ (after (.restart ctl 1 0) base).holds.table.get 0 = some oldHold := by decide +kernel

theorem test_undefinedCode : (after (.undefinedCode ctl 0x13 1 0) base).engine.reason = .badCode := by decide +kernel

/-! ### Events -/

/-- 12.6: with P = 33,333 the timeout runs out 99,999 microseconds after the arrival. -/
theorem test_staleTimeout :
    (after (.staleTimeout 5) { base with time := 966667 + 99999 }).cadence[(5 : Camera)].state = .stale
      ∧ (after (.staleTimeout 5) { base with time := 966667 + 99998 }).cadence[(5 : Camera)].state = .locked := by
  decide +kernel

/-- R113, R116: the third equal sample of door 3's alert line is accepted, and the enabled door is in ALERT. -/
theorem test_sampleInstant :
    let s := { base with doorUnit := { DoorUnit.powerOn with
      lastSample := 999000, opens := upd DoorUnit.powerOn.opens 3 ⟨some true, none, 0⟩
      alerts := upd DoorUnit.powerOn.alerts 3 ⟨some false, some true, 2⟩ } }.setDoor 3
        { DoorRec.powerOn with enable := true }
    let t := after (.sampleInstant 8 8 false) s
    t.doorUnit.alerts.get 3 = ⟨some true, none, 0⟩ ∧ t.doorUnit.states.get 3 = .alert
      ∧ t.doorUnit.opens.get 0 = ⟨none, some false, 1⟩ := by decide +kernel

/-- 10.5: the quiet period runs out 10,000 microseconds after the last drop. -/
theorem test_guardEpisodeClose :
    let s := { base with time := 4010000 }.setEpisode 5 (some ⟨9, 0x1FFFFFF0, 4000000, 4000000, 2⟩)
    (after (.guardEpisodeClose .controlRole) s).episode .controlRole = none
      ∧ (after (.guardEpisodeClose .controlRole) { s with time := 4009999 }).episode .controlRole ≠ none := by
  decide +kernel

/-- R168: 250,000 microseconds after the wait began the COMMIT ends OVERTIME. -/
theorem test_applyingOvertime :
    let s := base.setEngine { Engine.powerOn with state := .applying, pending := 3, waitStart := 750000 }
    (after .applyingOvertime s).engine.result = .overtime
      ∧ (after .applyingOvertime { s with time := 999999 }).engine.state = .applying := by decide +kernel

/-! ### Operations -/

/-- 9.9, reports A to E: written at 61 and 62, lost, lost, and, after consumer 40, written at 63 with lost-before 2. -/
theorem test_report_ring :
    let r : Report := .starved 5 true
    let full := ((base.emit r).emit r).emit r
    let e := ({ full.emit r with ring := { (full.emit r).ring with consumer := 40 } }).emit r
    (full.ring.producer, full.ring.lost) = (63, 1) ∧ (e.ring.producer, e.ring.lost) = (0, 0)
      ∧ e.mem.read (0x27E0 + 2) = 2 := by decide +kernel

/-- 3.8: SI 7,680, and with a baseline of 7,680 and SI 1,792 the ratio 59 and the scores 231, 210, 191. -/
theorem test_lens_scores :
    sharpness ⟨432000, 0, 4800⟩ = 7680 ∧ sharpness ⟨100800, 0, 4800⟩ = 1792 ∧ zoneRatio 1792 7680 = 59
      ∧ zoneScore 256 59 = 231 ∧ zoneScore 231 59 = 210 ∧ zoneScore 210 59 = 191
      ∧ zoneFlag 112 160 112 false = false ∧ zoneFlag 112 160 105 false = true
      ∧ frameClass 4 10 12 40 = .part ∧ frameClass 4 10 25 40 = .obscured := by decide

/-- 3.1: in a picture of 1,296 x 1,000 the word at x = 160 is in zone column 0, and row 167 in zone row 1. -/
theorem test_zoneOf :
    zoneOf { camera5 with w := 1296, h := 1000 } 40 = 0 ∧ zoneOf { camera5 with w := 1296, h := 1000 } 41 = 1
      ∧ zoneOf { camera5 with w := 1296, h := 1000 } (166 * 324) = 0
      ∧ zoneOf { camera5 with w := 1296, h := 1000 } (167 * 324) = 8 := by decide

/-- R45: with Tn 3 the luma bytes 10, 13, 20, 0 give the cored gradients 0, 4 and 17. -/
theorem test_coredGradient : coredGradient 3 0xFF00FF14FF0DFF0A = 21 ∧ lumaSum 0xFF00FF14FF0DFF0A = 43 := by decide

/-- R55: of eight classes the oldest goes. -/
theorem test_pushClass :
    pushClass (FrameClass.part :: List.replicate 7 .clean) .obscured = List.replicate 7 .clean ++ [.obscured] := by decide

/-- 11.5, 11.6: SETUP byte 29 bits 4 to 7 are ignored, DOOR byte 0 holds the post count in bits 2 and 3, and
zone 47 is bit 7 of CAMERA byte 19. -/
theorem test_record_fields :
    (setupOf fun n => if n = 29 then 0xF5 else 0).reverse.mask = 5 ∧ (doorOf fun n => if n = 0 then 0x0E else 0).post = 3
      ∧ (cameraOf fun n => if n = 19 then 0x80 else 0).excl = 0x800000000000 := by decide

/-- 11.5: an entry of REVERSE at its fields' limits, and the seven unused places behind it; a LENS report
without Z and U; and the completion byte of a COLLECTING hold of one entry. -/
theorem test_report_bytes :
    (Report.spotList 2 [⟨.reverse, 7, 31, true, 20, 31⟩]).bytes 5 0x102 =
        word8 12 2 2 1 5 0 0 0 ++ [0xF8, 0x3F, 0xFD] ++ (List.replicate 7 [31, 0, 0]).flatten
      ∧ ((Report.lens 3 .part .clean .restart none).bytes 0 0).take 14 = word8 5 3 0 0 0 0 0 0 ++ [2, 1, 4, 0xFF, 0xFF, 0]
      ∧ (Report.holdList 1 { oldHold with state := .collecting, post := 2, cause := none, slots := [⟨3, 6, .pre, some 1⟩] }).detail.take 8
          = [4, 25, 5, 39, 3, 0xFF, 0xFF, 0xFF] := by decide

/-! ### Witnesses

For each statement that has hypotheses, a state and operands that meet them together, clause by clause at the
clauses' limits. `base` is the running part of the tests above. -/

theorem base_running : base.isRunning := rfl

theorem base_ring_inRange : base.ring.inRange := by
  unfold ReportRing.inRange
  rw [if_pos (by rfl)]
  decide

theorem base_engine_inRange : base.engine.inRange := by
  unfold Engine.inRange
  decide +kernel

theorem base_table (h : HoldId) : base.holds.table.get h = if h = 0 then some oldHold else none := by
  revert h
  decide +kernel

theorem base_holds_consistent : base.holds.consistent := by
  refine ⟨fun h x hx => ?_, by decide +kernel, by decide +kernel⟩
  rw [base_table] at hx
  split at hx
  · cases hx
    exact ⟨by decide, ⟨_, _, rfl, rfl, by decide, by decide, by decide⟩, by decide⟩
  · cases hx

/-- The pool laws of a table of eight slots, from checks over its slots and members. -/
theorem poolLaws_of {s : State} (hl : s.pool.slots.length = 8) (hb : ∀ c : Camera, ∀ x ∈ s.rings[c].members, x.1 < 8)
    (hm : ∀ (c : Camera) (i : Fin 8), ∀ m ∈ [MemberState.empty, .filling, .ready],
      ((i.val, m) ∈ s.rings[c].members ↔ (s.slot i.val).disp = .ring c m))
    (hd : ∀ c : Camera, (s.rings[c].members.map Prod.fst).Nodup)
    (hk : ∀ c : Camera, s.rings[c].members.length = if s.cameras[c].enable then s.cameras[c].k else 0)
    (h3 : ∀ c : Camera, s.cameras[c].enable = true → 3 ≤ s.cameras[c].k)
    (hp : ∀ i : Fin 8, match (s.slot i.val).disp with
      | .free => (s.slot i.val).pins = 0
      | .ring _ .empty => (s.slot i.val).pins = 0
      | .ring _ .filling => (s.slot i.val).pins = 0
      | .ring _ .ready => True
      | .held _ => True
      | .retiring => (s.slot i.val).pins ≠ 0) : s.poolLaws := by
  refine ⟨fun c i m => ?_, hd, hk, h3, fun i hi => hp ⟨i, by omega⟩⟩
  have hm' : m ∈ [MemberState.empty, .filling, .ready] := by cases m <;> decide
  constructor
  · intro h
    have hi := hb c _ h
    exact ⟨by omega, (hm c ⟨i, hi⟩ m hm').1 h⟩
  · rintro ⟨hi, h⟩
    exact (hm c ⟨i, by omega⟩ m hm').2 h

theorem base_poolLaws : base.poolLaws := by
  refine poolLaws_of (by decide +kernel) (by decide +kernel) (by decide +kernel) (by decide +kernel) (by decide +kernel)
    (by decide +kernel) fun i => ?_
  fin_cases i <;> simp [base, State.slot, SlotRec.fresh]

theorem base_regionsApart : base.regionsApart := by
  refine ⟨rfl, rfl, rfl, by decide, fun a ha => ?_, by decide +kernel⟩
  have ha' : 0x08000000 ≤ a ∧ a < 0x08000000 + 8 * (3 * 65536) := of_decide_eq_true ha
  have hp : base.pageBase = 0 := by decide +kernel
  unfold ReportRing.outsideRing outside State.inPage Config.memoryBytes
  rw [hp]
  show a < 536870912 ∧ ¬(0x2000 ≤ a ∧ a < 0x2000 + 64 * 32) ∧ ¬(0 ≤ a ∧ a < 0 + 4096)
  omega

theorem witness_StepRunsTheFrontCommand :
    ({ base with pending := [.applyingOvertime, .staleTimeout 5] } : State).pending = .applyingOvertime :: [.staleTimeout 5] :=
  rfl

theorem witness_IdleStepIsOneMicrosecond :
    (base.pending = [] ∧ base.isRunning) ∧ ∀ x ∈ [Condition.heldInReset, .undefinedState, .lowPulse 1, .lowPulse 2],
      ({ base with condition := x } : State).pending = [] ∧ ({ base with condition := x } : State).condition = x := by
  exact ⟨⟨rfl, rfl⟩, fun _ _ => ⟨rfl, rfl⟩⟩

theorem witness_PowerOnResetFromAnyState :
    goesOn (.powerOnReset 0) base = true ∧ goesOn (.powerOnReset 1) base = true ∧ goesOn (.powerOnReset 2) base = true
      ∧ goesOn (.powerOnReset 3) { base with condition := .undefinedState } = true := by decide +kernel

/-- Pulses of 9 and 10 microseconds, a held and an undefined part, and queues that end in a fall and in a
release, or hold one beat. -/
theorem witness_ResetLineFallsAndHolds :
    (Instr.snapshot ctl 1 0).isReset = false ∧ ({ base with condition := .heldInReset } : State).condition.low = true
      ∧ ({ base with condition := .lowPulse 1 } : State).condition.low = true
      ∧ ({ base with condition := .heldInReset } : State).pending = []
      ∧ ({ base with condition := .undefinedState } : State).condition = .undefinedState
      ∧ (10 ≤ 10 ∧ true = true) ∧ ¬(10 ≤ 9 ∧ true = true)
      ∧ (∀ c ∈ ({ base with pending := [.snapshot ctl 1 0] } : State).pending, c.tag?.isSome = true)
      ∧ ({ base with pending := [.snapshot ctl 1 0, .resetNFall 9 true] } : State).pending.getLast? = some (.resetNFall 9 true)
      ∧ ({ base with pending := [.resetNFall 9 true, .powerOnReset 2] } : State).pending.getLast? = some (.powerOnReset 2) := by
  decide

theorem witness_EveryRowTouchesOnlyItsPieces :
    ∃ t, (Instr.plainWriteBeat gen 0x1000 ⟨0xFF, 1⟩).ownRow base ∧ exec (.plainWriteBeat gen 0x1000 ⟨0xFF, 1⟩) base = .next t := by
  refine ⟨_, ?_, rfl⟩
  show ¬base.inPage _
  unfold State.inPage
  decide +kernel

/-- The first word behind the control page, the words on both sides of the slot area, and the last one. -/
theorem witness_PlainWriteStores :
    base.isRunning ∧ base.mem.wf = true ∧ ∀ n ∈ [0x1000, 0x7FFFFF8, 0x8180000, 0x1FFFFFF8],
      ¬base.inPage (beatAddr (BitVec.ofNat 29 n).toNat) ∧ base.pool.inArea (beatAddr (BitVec.ofNat 29 n).toNat) = false := by
  refine ⟨rfl, rfl, ?_⟩
  unfold State.inPage
  decide +kernel

/-- Page word 4, the first word behind the page, and the ends of the zero-word regions. -/
theorem witness_ReadsReturnMemoryOrZero :
    base.isRunning
      ∧ (∀ n ∈ [0x20, 0x1000], base.inPage (beatAddr (BitVec.ofNat 29 n).toNat) →
          32 ≤ beatAddr (BitVec.ofNat 29 n).toNat - base.pageBase)
      ∧ ∀ n ∈ [0x20000000, 0x2FFFFFFF, 0x34000000, 0xFFFFFFFF], zeroWordAddress (BitVec.ofNat 32 n) = true := by
  refine ⟨rfl, ?_, by decide⟩
  unfold State.inPage
  decide +kernel

/-- The ends of the slot area, the first unmapped word, and landing beats that fail each check. -/
theorem witness_GuardedRegionsDropWrites :
    base.isRunning
      ∧ (∀ n ∈ [0x8000000, 0x817FFFF], ¬base.inPage (beatAddr (BitVec.ofNat 29 n).toNat)
          ∧ base.pool.inArea (beatAddr (BitVec.ofNat 29 n).toNat) = true)
      ∧ 0x34000000 ≤ (0x34000000#32).toNat
      ∧ base.roleOf gen.tag ≠ .capture ∧ base.roleOf cap.tag = .capture
      ∧ base.cameras[(4 : Camera)].enable = false ∧ base.cameras[(5 : Camera)].enable = true
      ∧ base.cameras[(5 : Camera)].w * base.cameras[(5 : Camera)].h / 4 ≤ (19200#21).toNat := by
  refine ⟨rfl, ?_, by decide, by decide +kernel, by decide +kernel, by decide +kernel, by decide +kernel,
    by decide +kernel⟩
  unfold State.inPage
  decide +kernel

theorem witness_ControlPageNeedsControl :
    base.isRunning ∧ base.roleOf gen.tag ≠ .control
      ∧ (Instr.controlPageWrite gen 0 ⟨0xFF, 0⟩).pageWord? = some (gen, 0)
      ∧ (Instr.restart gen 1 0).pageWord? = some (gen, 8) ∧ (Instr.consumerIndex gen ⟨1, 1⟩).pageWord? = some (gen, 16)
      ∧ (Instr.stagingWrite gen 255 ⟨1, 1⟩).pageWord? = some (gen, 511) := by
  exact ⟨rfl, by decide +kernel, by decide, by decide, by decide, by decide⟩

theorem witness_GuardDropCountsInItsEpisode :
    base.episode .unmapped = none
      ∧ (base.setEpisode 6 (some ⟨1, 2, 3, 4, 65534⟩)).episode .unmapped = some ⟨1, 2, 3, 4, 65534⟩
      ∧ (base.setEpisode 6 (some ⟨1, 2, 3, 4, 65535⟩)).episode .unmapped = some ⟨1, 2, 3, 4, 65535⟩ := by decide +kernel

/-- `base` stands at time 1,000,000. -/
theorem witness_GuardEpisodeCloses :
    base.isRunning ∧ 10000 ≤ elapsed 990000 base.time ∧ elapsed 990001 base.time < 10000
      ∧ (base.setEpisode 6 (some ⟨1, 2, 3, 990000, 1⟩)).episode .unmapped = some ⟨1, 2, 3, 990000, 1⟩
      ∧ (base.setEpisode 6 (some ⟨1, 2, 3, 990001, 1⟩)).episode .unmapped = some ⟨1, 2, 3, 990001, 1⟩ := by
  exact ⟨rfl, by decide +kernel, by decide +kernel, by decide +kernel, by decide +kernel⟩

/-- The first and last word of each region. -/
theorem witness_RowsAreTheRoutedBeats :
    (∀ a ∈ [0, 0xFF8, 0x1000, 0x8000000, 0x817FFF8, 0x8180000, 0x1FFFFFF8, 0x20000000, 0x2FFFFFF8, 0x30000000,
        0x33FFFFF8, 0x34000000, 0xFFFFFFF8], a < 2 ^ 32 ∧ a % 8 = 0)
      ∧ base.regionOf 0xFF8 = .controlPage 511 ∧ base.regionOf 0x1000 = .plain ∧ base.regionOf 0x8000000 = .slotArea
      ∧ base.regionOf 0x2FFFFFF8 = .landing 15 0x1FFFFF ∧ base.regionOf 0x33FFFFF8 = .screen 3 0x1FFFFF
      ∧ base.regionOf 0x34000000 = .unmapped := by decide +kernel

theorem witness_CommandWordsRoundTrip :
    (Instr.undefinedCode ctl 0xFF 6 7).wellFormed = true
      ∧ (Instr.undefinedCode ctl 0xFF 6 7).commandWord? = some (ctl, 0x00000000000706FF) := by decide

theorem witness_GeneralTagsReachNoBlock :
    ∃ t, (Instr.statusWindowRead gen 0).ownRow base ∧ (Instr.statusWindowRead gen 0).tag? = some gen.tag
      ∧ base.roleOf gen.tag = .general ∧ exec (.statusWindowRead gen 0) base = .next t :=
  ⟨_, trivial, rfl, by decide +kernel, rfl⟩

/-- Words 3, 4 and 255, and word 8 written in part. -/
theorem witness_ControlPageWriteStores :
    base.isRunning ∧ base.mem.wf = true ∧ base.roleOf ctl.tag = .control ∧ plainPageWord 3 ⟨0xFF, 1⟩
      ∧ plainPageWord 4 ⟨0xFF, 1⟩ ∧ plainPageWord 255 ⟨0xFF, 1⟩ ∧ plainPageWord 8 ⟨0xFE, 1⟩ := by
  refine ⟨rfl, rfl, by decide +kernel, ?_⟩
  unfold plainPageWord
  decide

/-- Values 63 and 64 of a ring of 64 places, and a beat with byte 1 disabled. -/
theorem witness_ConsumerIndexWrite :
    base.isRunning ∧ base.mem.wf = true ∧ base.roleOf ctl.tag = .control
      ∧ (63#64).toNat % 65536 < base.ring.capacity ∧ base.ring.capacity ≤ (64#64).toNat % 65536
      ∧ (0xFF#8).getLsbD 0 = true ∧ (0xFF#8).getLsbD 1 = true ∧ (0xFD#8).getLsbD 1 = false := by
  exact ⟨rfl, rfl, by decide +kernel, by decide +kernel, by decide +kernel, by decide, by decide, by decide⟩

/-- A load of one record: words 7 and 8, with 7 and 8 words staged. -/
theorem witness_StagingWriteMergesOrAborts :
    (staging 1 7).isRunning ∧ (staging 1 7).mem.wf = true ∧ (staging 1 7).roleOf ctl.tag = .control
      ∧ (staging 1 7).engine.state = .staging ∧ base.engine.state ≠ .staging
      ∧ (staging 1 7).engine.load.count ≤ (8#8).toNat / 8 ∧ (7#8).toNat / 8 < (staging 1 7).engine.load.count
      ∧ (staging 1 7).engine.staged < (staging 1 7).engine.load.count * 8
      ∧ (staging 1 8).engine.load.count * 8 ≤ (staging 1 8).engine.staged := by
  exact ⟨rfl, by decide +kernel, by decide +kernel, by decide +kernel, by decide +kernel, by decide +kernel,
    by decide +kernel, by decide +kernel, by decide +kernel⟩

theorem witness_StatusWindowRead :
    base.isRunning ∧ (base.setEngine { Engine.powerOn with state := .applying, pending := 1 }).isRunning :=
  ⟨rfl, rfl⟩

/-- Table codes 5 and 6; counts 0, 1, 32 and 33 of LAYOUTS, and records 0 to 32 of 32. -/
theorem witness_LoadOpensStaging :
    base.isRunning ∧ base.roleOf ctl.tag = .control ∧ base.engine.state = .idle ∧ base.ring.inRange
      ∧ 6 ≤ (6#8).toNat ∧ TableId.doors.code = (5#8).toNat ∧ TableId.layouts.code = (3#8).toNat
      ∧ (0#8).toNat = 0 ∧ 32 < (33#8).toNat ∧ TableId.layouts.records < (1#8).toNat + (32#8).toNat
      ∧ 1 ≤ (1#8).toNat ∧ (32#8).toNat ≤ 32 ∧ (0#8).toNat + (32#8).toNat ≤ TableId.layouts.records := by
  exact ⟨rfl, by decide +kernel, by decide +kernel, base_ring_inRange, by decide, by decide, by decide, by decide,
    by decide, by decide, by decide, by decide, by decide⟩

theorem staging_ring_inRange (n m : Nat) : (staging n m).ring.inRange := base_ring_inRange

/-- IDLE; a word too few; and a DOORS record of zero bytes, whose open level 0 is out of range. -/
theorem witness_CommitThatAppliesNothing :
    base.isRunning ∧ base.roleOf ctl.tag = .control ∧ base.ring.inRange ∧ base.engine.state = .idle
      ∧ (staging 1 7).isRunning ∧ (staging 1 7).roleOf ctl.tag = .control ∧ (staging 1 7).ring.inRange
      ∧ (staging 1 7).engine.state = .staging ∧ (staging 1 7).engine.staged < (staging 1 7).engine.load.count * 8
      ∧ (staging 1 8).engine.state = .staging ∧ (staging 1 8).engine.load.count * 8 ≤ (staging 1 8).engine.staged
      ∧ (staging 1 8).validate = some ⟨.badRange, .doors, 10⟩ := by
  exact ⟨rfl, by decide +kernel, base_ring_inRange, by decide +kernel, rfl, by decide +kernel,
    staging_ring_inRange 1 7, by decide +kernel, by decide +kernel, by decide +kernel, by decide +kernel,
    by decide +kernel⟩

/-- A state of the statement's second half. -/
def Validates (s : State) (T : TableId) : Prop :=
  s.engine.state = .staging ∧ s.engine.inRange ∧ s.pool.units = s.setup.slotUnits ∧ s.engine.load.table = T

theorem loaded_validates (T : TableId) (first count : Nat) (words : List (Fin 256 × Word))
    (h : 1 ≤ count ∧ count ≤ 32 ∧ first + count ≤ T.records) : Validates (loaded T first count words) T :=
  ⟨rfl, ⟨fun _ => ⟨h.1, h.2.1, h.2.2, Nat.le_refl _⟩, ⟨fun h => (by cases h), fun h => absurd rfl h⟩⟩, rfl, rfl⟩

def stagedSetup (s : State) : SetupRec := setupOf (s.engine.stagedBytes 0)

/-- SETUP records that fail exactly one check: debounce 499, DARK = GLARE, no tag with CONTROL, the ring on
the control page, the slot area on it, seven slots under an enabled camera; and one that fails none, its
ring next to the page. -/
theorem witness_CommitThatAppliesNothing_setup :
    Validates (setupLoad [(1, 0x01F3004000002000)]) .setup
      ∧ ¬setupRanges (stagedSetup (setupLoad [(1, 0x01F3004000002000)]))
      ∧ ¬setupOrders (stagedSetup (setupLoad [(2, 0x0070EBEBFFFFFF27)]))
      ∧ (∀ n < 16, roleIn (stagedSetup (setupLoad [(2, 0x0070EB2800000024)])).roleMap (BitVec.ofNat 4 n) ≠ .control)
      ∧ ¬setupRing (stagedSetup (setupLoad [(1, 0x03E8004000000000)])) 0
      ∧ ¬setupArea (stagedSetup (setupLoad [(0, 0x0000080300000000)])) 0
      ∧ ¬setupIdle (setupLoad [(0, 0x0000070308000000)]) (stagedSetup (setupLoad [(0, 0x0000070308000000)]))
      ∧ (∀ x ∈ [(2, 0x0070EBEBFFFFFF27), (2, 0x0070EB2800000024), (1, 0x03E8004000000000), (0, 0x0000080300000000),
          (0, 0x0000070308000000), (1, 0x03E8004000001000)],
          setupRanges (stagedSetup (setupLoad [(Fin.ofNat 256 x.1, BitVec.ofNat 64 x.2)])))
      ∧ (∀ x ∈ [(2, 0x0070EB2800000024), (1, 0x03E8004000000000), (0, 0x0000080300000000), (0, 0x0000070308000000),
          (1, 0x03E8004000001000)], setupOrders (stagedSetup (setupLoad [(Fin.ofNat 256 x.1, BitVec.ofNat 64 x.2)])))
      ∧ (∀ x ∈ [(1, 0x03E8004000000000), (0, 0x0000080300000000), (0, 0x0000070308000000), (1, 0x03E8004000001000)],
          roleIn (stagedSetup (setupLoad [(Fin.ofNat 256 x.1, BitVec.ofNat 64 x.2)])).roleMap 0 = .control)
      ∧ (∀ x ∈ [(0, 0x0000080300000000), (0, 0x0000070308000000), (1, 0x03E8004000001000)],
          setupRing (stagedSetup (setupLoad [(Fin.ofNat 256 x.1, BitVec.ofNat 64 x.2)])) 0)
      ∧ (∀ x ∈ [(0, 0x0000070308000000), (1, 0x03E8004000001000)],
          setupArea (stagedSetup (setupLoad [(Fin.ofNat 256 x.1, BitVec.ofNat 64 x.2)])) 0)
      ∧ setupIdle (setupLoad [(1, 0x03E8004000001000)]) (stagedSetup (setupLoad [(1, 0x03E8004000001000)])) := by
  refine ⟨loaded_validates _ _ _ _ (by decide), ?_, ?_, by decide +kernel, ?_, ?_, ?_, ?_, ?_, by decide +kernel, ?_, ?_, ?_⟩ <;>
  · first
      | unfold setupRanges requestRanges
      | unfold setupOrders
      | unfold setupRing apart
      | unfold setupArea apart
      | unfold setupIdle newGeometry
    decide +kernel

/-- Camera words: enabled with k = 3, enabled with k = 4, and disabled. -/
def camWord (n : Nat) : Word := if n = 0 then 0x823500F001400300 else if n = 3 then 0x823500F001400303 else 0x823500F001400403

def stagedCamera (s : State) (c : Camera) : CameraRec := cameraOf (s.engine.stagedBytes c.val)

def camLoad (first : Nat) (a b : Nat) : State :=
  loaded .cameras first 2 [(0, camWord a), (1, 0x08FF0000), (8, camWord b), (9, 0x08FF0000)]

/-- A zero record; camera 5, enabled, asked for another k; camera 4 asked for three slots where two are
FREE; and camera 5 disabled before camera 6 takes three of its slots. -/
theorem witness_CommitThatAppliesNothing_cameras :
    Validates (loaded .cameras 4 1 []) .cameras ∧ ¬cameraRanges 196608 4 (stagedCamera (loaded .cameras 4 1 []) 4)
      ∧ Validates (camLoad 4 0 4) .cameras
      ∧ cameraRanges 196608 4 (stagedCamera (camLoad 4 0 4) 4) ∧ cameraKept base.cameras[(4 : Camera)] (stagedCamera (camLoad 4 0 4) 4)
      ∧ cameraRanges 196608 5 (stagedCamera (camLoad 4 0 4) 5) ∧ ¬cameraKept base.cameras[(5 : Camera)] (stagedCamera (camLoad 4 0 4) 5)
      ∧ cameraRanges 196608 4 (stagedCamera (camLoad 4 3 3) 4) ∧ cameraKept base.cameras[(5 : Camera)] (stagedCamera (camLoad 4 3 3) 5)
      ∧ (stagedCamera (camLoad 4 3 3) 4).enable = true ∧ base.freeCount = 2 ∧ base.setup.holdReserve = 0
      ∧ (camLoad 4 3 3).validate = some ⟨.noSlot, .cameras, 4⟩
      ∧ Validates (camLoad 5 0 3) .cameras ∧ (camLoad 5 0 3).validate = none := by
  refine ⟨loaded_validates _ _ _ _ (by decide), ?_, loaded_validates _ _ _ _ (by decide), ?_, ?_, ?_, ?_, ?_, ?_, by decide +kernel,
    by decide +kernel, by decide +kernel, by decide +kernel, loaded_validates _ _ _ _ (by decide), by decide +kernel⟩ <;>
  · first | unfold cameraRanges | unfold cameraKept
    decide +kernel

/-- A screen of 64 x 64 with the strides 128 and 120, and linger limits 10,000 and 10,001. -/
theorem witness_CommitThatAppliesNothing_screens_doors :
    let screens := loaded .screens 2 2 [(0, 0x0080004000400001), (1, 0x1F0000), (8, 0x0078004000400001)]
    let doors := loaded .doors 10 2 [(0, 0x2710001F0F070501), (1, 0x101), (8, 0x2711001F0F070501), (9, 0x101)]
    Validates screens .screens ∧ screenRanges (screenOf (screens.engine.stagedBytes 2))
      ∧ ¬screenRanges (screenOf (screens.engine.stagedBytes 3))
      ∧ Validates doors .doors ∧ doorRanges (doorOf (doors.engine.stagedBytes 10))
      ∧ ¬doorRanges (doorOf (doors.engine.stagedBytes 11)) := by
  refine ⟨loaded_validates _ _ _ _ (by decide), ?_, ?_, loaded_validates _ _ _ _ (by decide), ?_, ?_⟩ <;>
  · first | unfold screenRanges | unfold doorRanges requestRanges
    decide +kernel

/-- Panes that each name the next one; the ones from `last` on end the chain. -/
def chain (last : Nat) : Vector PaneRec 224 :=
  Vector.ofFn fun p => ⟨0, 0, 4, 4, 0, 1, 0, 0, false, false, false, if p.val < last then p.val + 1 else 255⟩

/-- Chains from pane 0: of eight panes, which passes; of nine; a pane that names itself; a link to 224; and a
pane of width 0. The loads are of layout 0 and of pane 0. -/
theorem witness_CommitThatAppliesNothing_walks :
    Validates (loaded .layouts 0 1 []) .layouts ∧ (loaded .layouts 0 1 []).engine.stages .layouts 0
      ∧ Validates (loaded .panes 0 1 []) .panes
      ∧ (∃ n, n < 224 ∧ (loaded .panes 0 1 []).engine.stages .panes (chainIndex (chain 7) 0 n))
      ∧ chainPasses (chain 7) 0 ∧ chainPasses (chain 7) 255
      ∧ (∀ m, m < 8 → stepPasses (chain 8) 0 m) ∧ chainIndex (chain 8) 0 8 = 8
      ∧ (∀ m, m < 1 → stepPasses (chain 0 |> (upd · 0 ⟨0, 0, 4, 4, 0, 1, 0, 0, false, false, false, 0⟩)) 0 m)
      ∧ chainIndex (upd (chain 0) 0 ⟨0, 0, 4, 4, 0, 1, 0, 0, false, false, false, 0⟩) 0 1 = 0
      ∧ chainIndex (chain 7) 224 0 = 224 ∧ ¬paneRanges (upd (chain 7) 0 PaneRec.powerOn)[(0 : Fin 224)] := by
  refine ⟨loaded_validates _ _ _ _ (by decide), ?_, loaded_validates _ _ _ _ (by decide), ⟨0, by decide, ?_⟩, ⟨8, ?_, ?_⟩,
    ⟨0, by decide +kernel, fun m h => absurd h (Nat.not_lt_zero m)⟩, ?_, by decide +kernel, ?_, by decide +kernel, rfl, ?_⟩
  · unfold Engine.stages; decide +kernel
  · unfold Engine.stages; decide +kernel
  · decide +kernel
  all_goals
    first | unfold stepPasses paneRanges | unfold paneRanges
    decide +kernel

/-- A load of LAYOUTS record 31, an empty layout, all words staged. -/
def layoutLoad : State :=
  base.setEngine { Engine.powerOn with
    state := .staging, load := ⟨.layouts, 31, 1⟩, staged := 8, buffer := upd (Vector.replicate 256 (0 : Word)) 0 0x302010FF }

theorem witness_ValidCommitAppliesEveryRecord :
    layoutLoad.isRunning ∧ layoutLoad.roleOf ctl.tag = .control ∧ layoutLoad.ring.inRange ∧ layoutLoad.engine.inRange
      ∧ layoutLoad.engine.state = .staging ∧ layoutLoad.engine.load.count * 8 ≤ layoutLoad.engine.staged
      ∧ layoutLoad.validate = none
      ∧ layoutLoad.engine.load.first ≤ 31 ∧ 31 < layoutLoad.engine.load.first + layoutLoad.engine.load.count := by
  refine ⟨rfl, by decide +kernel, base_ring_inRange, ?_, by decide +kernel, by decide +kernel, by decide +kernel,
    by decide +kernel, by decide +kernel⟩
  unfold Engine.inRange
  decide +kernel

/-- Valid loads of the other tables: a SETUP that moves the ring, screen 1 enabled, pane 0, door 0. -/
theorem witness_ValidCommitAppliesEveryRecord_tables :
    let setup := setupLoad [(1, 0x03E8004000004000)]
    let screens := loaded .screens 1 1 [(0, 0x0080004000400001), (1, 0)]
    let panes := loaded .panes 0 1 [(0, 0x0040004000000000), (1, 0xFF00000000000100)]
    let doors := loaded .doors 0 1 [(0, 0x2710001F0F070501), (1, 0x101)]
    (setup.validate = none ∧ setup.mem.wf = true ∧ (stagedSetup setup).ringBase ≠ setup.ring.base)
      ∧ screens.validate = none ∧ panes.validate = none ∧ doors.validate = none := by decide +kernel

/-- The clauses of the applied records: another ring and slot table and a shorter debounce that is due, an
active REVERSE; camera 5 with another geometry, without its lens monitor, with the period 11,111 that is
just late, and disabled; camera 4 enabled with the two FREE slots; screen 1 disabled with a scan context;
and a door enabled, redescribed and disabled while its alert line is high. -/
theorem witness_ValidCommitAppliesEveryRecord_records :
    let reversing := { base with doorUnit := { base.doorUnit with reverse := ⟨some true, none, 0⟩, lastSample := 999500 } }
    (base.setup.debounce = 1000 ∧ elapsed reversing.doorUnit.lastSample reversing.time = 500
        ∧ reversing.doorUnit.reverse.accepted = some true)
      ∧ (camera5.enable = true ∧ camera5.lensOn = true ∧ camera5.w ≠ 336
        ∧ (base.setLens 5 { LensRec.powerOn with learn := .running }).lens[(5 : Camera)].learn ≠ .idle)
      ∧ (base.cadence[(5 : Camera)].state = .locked ∧ 3 * 11111 ≤ elapsed base.cadence[(5 : Camera)].staleRef base.time
        ∧ elapsed base.cadence[(5 : Camera)].staleRef base.time < 3 * 11112)
      ∧ (base.cameras[(4 : Camera)].enable = false ∧ 2 ≤ base.freeCount
        ∧ ((List.range base.pool.slots.length).filter fun j => decide ((base.slot j).disp = .free)).take 2 = 6 :: [7])
      ∧ (base.slot 1).disp = .ring 5 .filling ∧ (base.slot 1).pins = 0
      ∧ ((base.setScreen 1 ⟨true, 64, 64, 128, 0⟩).screens[(1 : Screen)]).enable = true
      ∧ ({ base with doorUnit := { base.doorUnit with alerts := upd base.doorUnit.alerts 3 ⟨some true, none, 0⟩ } } : State).doorUnit.alerts.get 3
          = ⟨some true, none, 0⟩ := by decide +kernel

theorem witness_ValidCommitAppliesEveryRecord_holds : base.holds.consistent := base_holds_consistent

def inState (x : EngineState) : State := base.setEngine { Engine.powerOn with state := x, pending := if x = .applying then 1 else 0 }

theorem witness_CommandsOutsideIdle :
    (Instr.abortClear ctl 7 0).wellFormed = true
      ∧ (Instr.abortClear ctl 7 0).commandWord? = some (ctl, 0x0000000000000703)
      ∧ (Instr.snapshot ctl 7 0).wellFormed = true
      ∧ (Instr.snapshot ctl 7 0).commandWord? = some (ctl, 0x0000000000000740)
      ∧ commandByte 0x0000000000000740 0 ≠ 0x02 ∧ commandByte 0x0000000000000740 0 ≠ 0x50
      ∧ commandByte 0x0000000000000740 0 ≠ 0x03
      ∧ (staging 1 0).isRunning ∧ (staging 1 0).roleOf ctl.tag = .control ∧ (staging 1 0).engine.state = .staging
      ∧ (staging 1 0).ring.inRange
      ∧ (inState .applying).isRunning ∧ (inState .applying).mem.wf = true ∧ (inState .applying).roleOf ctl.tag = .control
      ∧ (inState .applying).engine.state = .applying ∧ (inState .aborted).engine.state = .aborted := by
  exact ⟨by decide, by decide, by decide, by decide, by decide, by decide, by decide, rfl, by decide +kernel,
    by decide +kernel, staging_ring_inRange 1 0, rfl, by decide +kernel, by decide +kernel, by decide +kernel,
    by decide +kernel⟩

theorem witness_AbortClearAndUndefinedCode :
    base.isRunning ∧ base.roleOf ctl.tag = .control ∧ base.ring.inRange ∧ base.engine.state = .idle
      ∧ (inState .aborted).isRunning ∧ (inState .aborted).engine.state = .aborted ∧ codeDefined 0x04 = false := by
  exact ⟨rfl, by decide +kernel, base_ring_inRange, by decide +kernel, rfl, by decide +kernel, by decide⟩

/-- Mask 0x20 names camera 5, which takes a run; mask 0x40 names camera 6, which is disabled. -/
theorem witness_LearningCommands :
    base.isRunning ∧ base.roleOf ctl.tag = .control ∧ base.engine.state = .idle ∧ base.ring.inRange
      ∧ ((0x20#16).getLsbD 5 = true ∧ base.cameras[(5 : Camera)].enable = true ∧ base.cameras[(5 : Camera)].lensOn = true)
      ∧ (∀ c : Camera, (0x40#16).getLsbD c.val = true → base.cameras[c].enable = false)
      ∧ (∀ c : Camera, (0x40#16).getLsbD c.val = true → (6 : Camera) ≤ c)
      ∧ base.lens[(5 : Camera)].learn = .idle
      ∧ (base.setLens 5 { LensRec.powerOn with learn := .running }).lens[(5 : Camera)].learn ≠ .idle := by
  exact ⟨rfl, by decide +kernel, by decide +kernel, base_ring_inRange, by decide +kernel, by decide +kernel, by decide,
    by decide +kernel, by decide +kernel⟩

theorem witness_SnapshotReportsEveryBlock :
    base.isRunning ∧ base.roleOf ctl.tag = .control ∧ base.engine.state = .idle ∧ base.ring.inRange := by
  exact ⟨rfl, by decide +kernel, by decide +kernel, base_ring_inRange⟩

/-- With a COMMIT that waits, a run under way and a door that is not UNKNOWN beside. -/
theorem witness_RestartStartsTheBlocksOver :
    base.isRunning ∧ base.roleOf ctl.tag = .control ∧ base.ring.inRange ∧ base.holds.consistent ∧ base.poolLaws
      ∧ base.cameras[(5 : Camera)].enable = true ∧ base.cameras[(4 : Camera)].enable = false
      ∧ (base.slot 3).disp = .held 0 ∧ base.holds.table.get 0 = some oldHold
      ∧ (inState .applying).engine.state = .applying
      ∧ (base.setLens 5 { LensRec.powerOn with learn := .suspended }).lens[(5 : Camera)].learn ≠ .idle
      ∧ ((base.setDoor 3 { DoorRec.powerOn with enable := true }).doors[(3 : Door)].enable = true
        ∧ base.doorUnit.states.get 3 ≠ .unknown)
      ∧ 7 ∈ ((List.range base.pool.slots.length).filter fun i =>
          decide (∀ h : HoldId, (base.slot i).disp ≠ .held h)).drop ((List.finRange 16).map fun c : Camera =>
            if base.cameras[c].enable then base.cameras[c].k else 0).sum := by
  exact ⟨rfl, by decide +kernel, base_ring_inRange, base_holds_consistent, base_poolLaws, by decide +kernel, by decide +kernel,
    by decide +kernel, by decide +kernel, by decide +kernel, by decide +kernel, by decide +kernel, by decide +kernel⟩

theorem witness_ApplyingEndsOvertime :
    (inState .applying).isRunning ∧ (inState .applying).engine.state = .applying
      ∧ 250000 ≤ elapsed 750000 base.time ∧ elapsed 750001 base.time < 250000 := by
  exact ⟨rfl, by decide +kernel, by decide +kernel, by decide +kernel⟩

theorem witness_TablesChangeOnlyByValidCommit :
    ∃ t, (Instr.commit ctl 1 0).ownRow layoutLoad ∧ exec (.commit ctl 1 0) layoutLoad = .next t
      ∧ t.layouts ≠ layoutLoad.layouts :=
  ⟨_, trivial, rfl, by decide +kernel⟩

theorem witness_TablesChangeOnlyByValidCommit_completes :
    layoutLoad.isRunning ∧ layoutLoad.roleOf ctl.tag = .control ∧ layoutLoad.engine.inRange
      ∧ layoutLoad.engine.state = .staging ∧ layoutLoad.engine.load.count * 8 ≤ layoutLoad.engine.staged
      ∧ layoutLoad.validate = none ∧ layoutLoad.engine.stages .layouts 31 := by
  refine ⟨rfl, by decide +kernel, ?_, by decide +kernel, by decide +kernel, by decide +kernel, ?_⟩
  · unfold Engine.inRange
    decide +kernel
  · unfold Engine.stages
    decide +kernel

theorem doorList_inOrder : doorList.inOrder := by
  refine ⟨by decide, by decide, by decide, ?_⟩
  exact ⟨fun _ => ⟨_, rfl, rfl⟩, fun _ => rfl⟩

/-- Eight active entries of level 2, the last of DOOR_OPEN(7). -/
def fullList : SpotList :=
  { entries := (List.finRange 8).map fun i => ⟨.doorOpen ⟨i.val, by omega⟩, 2, 4, true, 0, 60000000, i.val⟩
    counting := none, created := 8 }

theorem fullList_inOrder : fullList.inOrder := by
  refine ⟨by decide, by decide, by decide, ?_⟩
  constructor
  · intro h
    exact absurd h (by decide)
  · rintro ⟨e, he, ha⟩
    cases he
    exact absurd ha (by decide)

/-- A refresh at the same and at another level, an insertion, and a raise of level 3 and one of level 2 that
meet a full list. -/
theorem witness_RaiseInAList :
    doorList.inOrder ∧ doorList.entryOf (.doorAlert 3) = some ⟨.doorAlert 3, 4, 6, false, 4000000, 61500000, 1⟩
      ∧ doorList.entryOf .manual = none ∧ doorList.entries.length < 8
      ∧ fullList.inOrder ∧ fullList.entryOf .manual = none ∧ fullList.entries.length = 8
      ∧ fullList.entries.getLast? = some ⟨.doorOpen 7, 2, 4, true, 0, 60000000, 7⟩
      ∧ comesBefore ⟨.manual, 3, 9, true, 0, 64000000, 8⟩ ⟨.doorOpen 7, 2, 4, true, 0, 60000000, 7⟩
      ∧ ¬comesBefore ⟨.manual, 2, 9, true, 0, 64000000, 8⟩ ⟨.doorOpen 7, 2, 4, true, 0, 60000000, 7⟩
      ∧ comesBefore ⟨.doorAlert 7, 2, 9, true, 0, 60000000, 8⟩ ⟨.doorOpen 7, 2, 4, true, 0, 60000000, 7⟩ := by
  exact ⟨doorList_inOrder, by decide, by decide, by decide, fullList_inOrder, by decide, by decide, by decide,
    by decide, by decide, by decide⟩

/-- Screen 3 and 4, layout 31 and 32, levels 0, 1, 7 and 8. -/
theorem witness_ManualSpotlights :
    base.isRunning ∧ base.roleOf ctl.tag = .control ∧ base.engine.state = .idle ∧ base.ring.inRange
      ∧ 3 < (4#8).toNat ∧ 31 < (32#8).toNat ∧ (0#8).toNat = 0 ∧ 7 < (8#8).toNat
      ∧ (3 : Screen).val = (3#8).toNat ∧ (31#8).toNat ≤ 31 ∧ 1 ≤ (1#8).toNat ∧ (7#8).toNat ≤ 7 := by
  exact ⟨rfl, by decide +kernel, by decide +kernel, base_ring_inRange, by decide, by decide, by decide, by decide,
    by decide, by decide, by decide, by decide⟩

theorem witness_ManualSpotlights_inOrder : (base.setSpot 0 doorList).spots[(0 : Screen)].inOrder := doorList_inOrder

/-- Screen 0 at 67,000,000, when the 4,000 ms of A3 have been counted, and a microsecond before. -/
def lingering (t : Nat) : State := { base with time := BitVec.ofNat 32 t }.setSpot 0 doorList

theorem witness_LingerExpiryRemovesTheGoverningEntry :
    (lingering 67000000).isRunning ∧ (lingering 67000000).spots[(0 : Screen)].counting = some 63000000
      ∧ (lingering 67000000).spots[(0 : Screen)].entries =
          ⟨.doorAlert 3, 4, 6, false, 4000000, 61500000, 1⟩ :: [⟨.doorOpen 3, 2, 4, true, 0, 60000000, 0⟩]
      ∧ 4000000 ≤ elapsed 63000000 (lingering 67000000).time
      ∧ (lingering 66999999).spots[(0 : Screen)].counting = some 63000000
      ∧ (lingering 66999999).spots[(0 : Screen)].entries.head? = some ⟨.doorAlert 3, 4, 6, false, 4000000, 61500000, 1⟩
      ∧ elapsed 63000000 (lingering 66999999).time < 4000000 := by
  exact ⟨rfl, by decide +kernel, by decide +kernel, by decide +kernel, by decide +kernel, by decide +kernel, by decide +kernel⟩

/-- Ends of an origin without an entry, of the governing one and of another, with linger 0 and 1. -/
theorem witness_LingerExpiryRemovesTheGoverningEntry_ends :
    doorList.inOrder ∧ doorList.entryOf .manual = none
      ∧ doorList.entryOf (.doorAlert 3) = some ⟨.doorAlert 3, 4, 6, false, 4000000, 61500000, 1⟩
      ∧ doorList.entryOf (.doorOpen 3) = some ⟨.doorOpen 3, 2, 4, true, 0, 60000000, 0⟩ ∧ (1 : Nat) ≠ 0 :=
  ⟨doorList_inOrder, by decide, by decide, by decide, by decide⟩

theorem witness_SampleInstantDebouncesTheLines :
    base.isRunning
      ∧ ({ base with doorUnit := { base.doorUnit with lastSample := 999000 } } : State).setup.debounce ≤ elapsed 999000 base.time
      ∧ elapsed 999001 base.time
          < ({ base with doorUnit := { base.doorUnit with lastSample := 999001 } } : State).setup.debounce := by
  exact ⟨rfl, by decide +kernel, by decide +kernel⟩

/-- Every place taken. -/
def tableFull : State := { base with holds := ⟨Vector.replicate 16 (some oldHold), [], false⟩ }

/-- No slot FREE. -/
def noFree : State := (base.setSlot 6 ⟨.retiring, 1, none⟩).setSlot 7 ⟨.retiring, 1, none⟩

theorem witness_HoldTakeLiftsTheNewestFrame :
    base.isRunning ∧ base.roleOf ctl.tag = .control ∧ base.engine.state = .idle ∧ base.ring.inRange
      ∧ 15 < (16#8).toNat ∧ 3 < (4#8).toNat ∧ (5 : Camera).val = (5#8).toNat ∧ (3#8).toNat ≤ 3
      ∧ tableFull.isRunning ∧ (∀ h : HoldId, tableFull.holds.table.get h ≠ none)
      ∧ base.holds.table.get 1 = none ∧ base.cameras[(4 : Camera)].enable = false
      ∧ noFree.isRunning ∧ noFree.holds.table.get 1 = none ∧ noFree.cameras[(5 : Camera)].enable = true
      ∧ noFree.rings[(5 : Camera)].ready ≠ []
      ∧ (∀ i, i < noFree.pool.slots.length → (noFree.slot i).disp ≠ .free)
      ∧ base.poolLaws ∧ (∀ h' : HoldId, h' < 1 → base.holds.table.get h' ≠ none)
      ∧ base.cameras[(5 : Camera)].enable = true ∧ base.rings[(5 : Camera)].ready.getLast? = some 0
      ∧ (base.slot 0).frame = some ⟨8, 966667⟩ ∧ 6 < base.pool.slots.length ∧ (base.slot 6).disp = .free
      ∧ (∀ k, k < 6 → (base.slot k).disp ≠ .free) ∧ base.rings[(5 : Camera)].filling ≠ none := by
  exact ⟨rfl, by decide +kernel, by decide +kernel, base_ring_inRange, by decide, by decide, by decide, by decide, rfl,
    by decide +kernel, by decide +kernel, by decide +kernel, rfl, by decide +kernel, by decide +kernel,
    by decide +kernel, by decide +kernel, base_poolLaws, by decide +kernel, by decide +kernel, by decide +kernel,
    by decide +kernel, by decide +kernel, by decide +kernel, by decide +kernel, by decide +kernel⟩

/-- Camera 5 with three READY members of the given pin counts and no other member. -/
def ready3 (a b c : Nat) : State :=
  (((base.setRing 5 { ring5 with ready := [0, 1, 2], filling := none, empty := [] }).setSlot 0
    ⟨.ring 5 .ready, a, some ⟨6, 1⟩⟩).setSlot 1 ⟨.ring 5 .ready, b, some ⟨7, 2⟩⟩).setSlot 2
    ⟨.ring 5 .ready, c, some ⟨8, 3⟩⟩

theorem ready3_poolLaws : (ready3 1 1 1).poolLaws := by
  refine poolLaws_of (by decide +kernel) (by decide +kernel) (by decide +kernel) (by decide +kernel) (by decide +kernel)
    (by decide +kernel) fun i => ?_
  fin_cases i <;> simp [ready3, base, State.slot, State.setSlot, State.setRing, SlotRec.fresh]

/-- Camera 5 STARVED with slot 2 its newest frame; slot 6 joins as its landing target. -/
theorem witness_HoldTakeLiftsTheNewestFrame_starved :
    (ready3 1 1 1).isRunning ∧ (ready3 1 1 1).roleOf ctl.tag = .control ∧ (ready3 1 1 1).ring.inRange ∧ (ready3 1 1 1).poolLaws
      ∧ (ready3 1 1 1).holds.table.get 1 = none ∧ (∀ h' : HoldId, h' < 1 → (ready3 1 1 1).holds.table.get h' ≠ none)
      ∧ (ready3 1 1 1).cameras[(5 : Camera)].enable = true ∧ (ready3 1 1 1).rings[(5 : Camera)].ready.getLast? = some 2
      ∧ ((ready3 1 1 1).slot 2).frame = some ⟨8, 3⟩ ∧ ((ready3 1 1 1).slot 6).disp = .free
      ∧ (∀ k, k < 6 → ((ready3 1 1 1).slot k).disp ≠ .free)
      ∧ (ready3 1 1 1).rings[(5 : Camera)].filling = none ∧ (ready3 1 1 1).rings[(5 : Camera)].empty = [] := by
  exact ⟨rfl, by decide +kernel, base_ring_inRange, ready3_poolLaws, by decide +kernel, by decide +kernel, by decide +kernel,
    by decide +kernel, by decide +kernel, by decide +kernel, by decide +kernel, by decide +kernel, by decide +kernel⟩

def collecting : Hold := { oldHold with state := .collecting, post := 2, cause := none }

theorem witness_AcceptedFrameJoinsTheOldestHold :
    base.collectingHold 5 = none
      ∧ (base.setHold 0 (some collecting)).collectingHold 5 = some (0, collecting)
      ∧ (noFree.setHold 0 (some collecting)).collectingHold 5 = some (0, collecting)
      ∧ (noFree.setHold 0 (some collecting)).lowestFree = none
      ∧ (base.setHold 0 (some collecting)).lowestFree = some 6
      ∧ ((base.setHold 0 (some collecting)).slot 0).frame = some ⟨8, 966667⟩
      ∧ 0 < (base.setHold 0 (some collecting)).pool.slots.length
      ∧ 6 < (base.setHold 0 (some collecting)).pool.slots.length := by decide +kernel

/-- Ids 0, 1 and 16, with the lock clear and set. -/
theorem witness_HoldReleaseFreesTheSlots :
    base.isRunning ∧ base.roleOf ctl.tag = .control ∧ base.engine.state = .idle ∧ base.ring.inRange
      ∧ (∀ h : HoldId, h.val = (1#8).toNat → base.holds.table.get h = none)
      ∧ (∀ h : HoldId, h.val = (16#8).toNat → base.holds.table.get h = none)
      ∧ (0 : HoldId).val = (0#8).toNat ∧ base.holds.table.get 0 = some oldHold ∧ base.holds.lock = false
      ∧ ({ base with holds := { base.holds with lock := true } } : State).holds.lock = true
      ∧ (base.slot 3).disp = .held 0 ∧ (base.slot 3).pins = 0 ∧ (base.slot 4).disp = .held 0 ∧ (base.slot 4).pins ≠ 0 := by
  exact ⟨rfl, by decide +kernel, by decide +kernel, base_ring_inRange, by decide +kernel, by decide +kernel, by decide,
    by decide +kernel, by decide +kernel, by decide +kernel, by decide +kernel, by decide +kernel, by decide +kernel,
    by decide +kernel⟩

theorem witness_HoldLockKeepsEveryHold :
    base.isRunning ∧ base.roleOf ctl.tag = .control ∧ base.engine.state = .idle ∧ base.ring.inRange
      ∧ ({ base with holds := { base.holds with lock := true } } : State).holds.lock = true
      ∧ goesOn (.holdRelease ctl 1 0 0) { base with holds := { base.holds with lock := true } } = true := by
  exact ⟨rfl, by decide +kernel, by decide +kernel, base_ring_inRange, by decide +kernel, by decide +kernel⟩

/-- The first and the last byte of slot 3, which a HOLD_TAKE leaves HELD. -/
theorem witness_HeldSlotsKeepTheirBytes :
    base.poolLaws ∧ base.regionsApart ∧ base.ring.inRange ∧ goesOn (.holdTake ctl 1 5 0 0) base = true
      ∧ 3 < base.pool.slots.length ∧ (base.slot 3).disp = .held 0
      ∧ ((after (.holdTake ctl 1 5 0 0) base).slot 3).disp = .held 0
      ∧ base.pool.slotAddr 3 ≤ 0x8090000 ∧ 0x80BFFFF < base.pool.slotAddr 3 + base.pool.slotBytes := by
  exact ⟨base_poolLaws, base_regionsApart, base_ring_inRange, by decide +kernel, by decide +kernel, by decide +kernel,
    by decide +kernel, by decide +kernel, by decide +kernel⟩

/-- Camera 5 in a frame with a number of writes counted. -/
def inFrame5 (writes : Nat) : State := base.setRing 5 { ring5 with phase := .inFrame, writes := writes }

/-- Camera 5 STARVED. -/
def starved5 : State := base.setRing 5 { ring5 with filling := none, empty := [] }

theorem witness_Word0BeginsAFrame :
    base.isRunning ∧ base.mem.wf = true ∧ base.roleOf cap.tag = .capture ∧ base.cameras[(5 : Camera)].enable = true
      ∧ 1 < base.cameras[(5 : Camera)].w * base.cameras[(5 : Camera)].h / 4
      ∧ base.rings[(5 : Camera)].filling = some 1 ∧ (inFrame5 7).rings[(5 : Camera)].filling = some 1
      ∧ (inFrame5 7).rings[(5 : Camera)].phase = .inFrame
      ∧ starved5.rings[(5 : Camera)].filling = none ∧ starved5.rings[(5 : Camera)].phase ≠ .inFrame := by
  exact ⟨rfl, by decide +kernel, by decide +kernel, by decide +kernel, by decide +kernel, by decide +kernel,
    by decide +kernel, by decide +kernel, by decide +kernel, by decide +kernel⟩

/-- Words 19,199 and 0 outside a frame, and 19,198 in one; a frame of camera 5 has 19,200 words. -/
theorem witness_BeatsWithinAFrame :
    base.isRunning ∧ base.mem.wf = true ∧ base.roleOf cap.tag = .capture ∧ base.cameras[(5 : Camera)].enable = true
      ∧ (19199#21).toNat < base.cameras[(5 : Camera)].w * base.cameras[(5 : Camera)].h / 4
      ∧ base.rings[(5 : Camera)].phase ≠ .inFrame ∧ (19199#21) ≠ 0 ∧ (0x7F#8) ≠ 0xFF
      ∧ (inFrame5 7).isRunning ∧ (19198#21).toNat + 1 < (inFrame5 7).cameras[(5 : Camera)].w * (inFrame5 7).cameras[(5 : Camera)].h / 4
      ∧ (inFrame5 7).rings[(5 : Camera)].phase = .inFrame ∧ (inFrame5 7).rings[(5 : Camera)].filling = some 1 := by
  exact ⟨rfl, by decide +kernel, by decide +kernel, by decide +kernel, by decide +kernel, by decide +kernel, by decide,
    by decide, rfl, by decide +kernel, by decide +kernel, by decide +kernel⟩

/-- The first and the last word of a frame of 1,296 x 1,000, in the zones 0 and 47. -/
theorem witness_BeatsWithinAFrame_zones :
    let cam := { camera5 with w := 1296, h := 1000 }
    cam.w % 4 = 0 ∧ 0 < cam.w * cam.h / 4 ∧ 323999 < cam.w * cam.h / 4
      ∧ (0 : Zone).val = 0 / (cam.w / 4) * 6 / cam.h * 8 + 4 * (0 % (cam.w / 4)) * 8 / cam.w
      ∧ (47 : Zone).val = 323999 / (cam.w / 4) * 6 / cam.h * 8 + 4 * (323999 % (cam.w / 4)) * 8 / cam.w := by decide

theorem witness_TornFrameIsDiscarded :
    (inFrame5 19198).isRunning ∧ (inFrame5 19198).mem.wf = true ∧ (inFrame5 19198).roleOf cap.tag = .capture
      ∧ (inFrame5 19198).cameras[(5 : Camera)].enable = true
      ∧ (19199#21).toNat + 1 = (inFrame5 19198).cameras[(5 : Camera)].w * (inFrame5 19198).cameras[(5 : Camera)].h / 4
      ∧ (19199#21) ≠ 0 ∧ (inFrame5 19198).rings[(5 : Camera)].phase = .inFrame
      ∧ (inFrame5 19198).rings[(5 : Camera)].filling = some 1
      ∧ (inFrame5 19198).rings[(5 : Camera)].writes + 1
          ≠ (inFrame5 19198).cameras[(5 : Camera)].w * (inFrame5 19198).cameras[(5 : Camera)].h / 4
      ∧ (0xFE#8) ≠ 0xFF := by
  exact ⟨rfl, by decide +kernel, by decide +kernel, by decide +kernel, by decide +kernel, by decide, by decide +kernel,
    by decide +kernel, by decide +kernel, by decide⟩

theorem poolLaws_congr {s t : State} (hm : ∀ c : Camera, t.rings[c].members = s.rings[c].members) (hp : t.pool = s.pool)
    (hc : t.cameras = s.cameras) (h : s.poolLaws) : t.poolLaws := by
  unfold State.poolLaws State.slot at *
  simp only [hm, hp, hc]
  exact h

theorem inFrame5_poolLaws (n : Nat) : (inFrame5 n).poolLaws := by
  refine poolLaws_congr (s := base) (fun c => ?_) rfl rfl base_poolLaws
  by_cases h : c = 5
  · subst h
    rfl
  · have : (inFrame5 n).rings[c] = base.rings[c] := by
      have h' : (5 : Nat) ≠ c.val := fun e => h (Fin.ext e.symm)
      simp [inFrame5, State.setRing, upd, h']
    rw [this]

theorem witness_WholeFrameIsAccepted :
    (inFrame5 19199).isRunning ∧ (inFrame5 19199).mem.wf = true ∧ (inFrame5 19199).roleOf cap.tag = .capture
      ∧ (inFrame5 19199).cameras[(5 : Camera)].enable = true ∧ (inFrame5 19199).poolLaws
      ∧ (19199#21).toNat + 1 = (inFrame5 19199).cameras[(5 : Camera)].w * (inFrame5 19199).cameras[(5 : Camera)].h / 4
      ∧ (19199#21) ≠ 0 ∧ (inFrame5 19199).rings[(5 : Camera)].phase = .inFrame
      ∧ (inFrame5 19199).rings[(5 : Camera)].filling = some 1 ∧ (inFrame5 19199).rings[(5 : Camera)].tornMark = false
      ∧ (inFrame5 19199).rings[(5 : Camera)].writes + 1
          = (inFrame5 19199).cameras[(5 : Camera)].w * (inFrame5 19199).cameras[(5 : Camera)].h / 4
      ∧ ∀ h ∈ (inFrame5 19199).holds.order, ∀ x,
          ¬((inFrame5 19199).holds.table.get h = some x ∧ x.state = .collecting ∧ x.camera = 5) := by
  refine ⟨rfl, by decide +kernel, by decide +kernel, by decide +kernel, inFrame5_poolLaws _, by decide +kernel, by decide,
    by decide +kernel, by decide +kernel, by decide +kernel, by decide +kernel, fun h _ x hx => ?_⟩
  have ht : (inFrame5 19199).holds.table.get h = if h = 0 then some oldHold else none := base_table h
  rw [ht] at hx
  split at hx
  · cases hx.1
    cases hx.2.1
  · cases hx.1

/-- A collecting hold of camera 5, with slot 6 FREE and with no slot FREE. -/
theorem witness_WholeFrameIsAccepted_hold :
    ((inFrame5 19199).setHold 0 (some collecting)).poolLaws
      ∧ ((inFrame5 19199).setHold 0 (some collecting)).holds.order = [] ++ 0 :: []
      ∧ ((inFrame5 19199).setHold 0 (some collecting)).holds.table.get 0 = some collecting
      ∧ collecting.state = .collecting ∧ collecting.camera = 5
      ∧ (((inFrame5 19199).setHold 0 (some collecting)).slot 6).disp = .free
      ∧ (∀ k, k < 6 → (((inFrame5 19199).setHold 0 (some collecting)).slot k).disp ≠ .free)
      ∧ { (inFrame5 19199).setHold 0 (some collecting) with pool := noFree.pool }.poolLaws
      ∧ ∀ k, k < 8 → ({ (inFrame5 19199).setHold 0 (some collecting) with pool := noFree.pool }.slot k).disp ≠ .free := by
  refine ⟨poolLaws_congr (s := inFrame5 19199) (fun _ => rfl) rfl rfl (inFrame5_poolLaws _), by decide +kernel, by decide +kernel,
    by decide, by decide, by decide +kernel, by decide +kernel, ?_, by decide +kernel⟩
  refine poolLaws_of (by decide +kernel) (by decide +kernel) (by decide +kernel) (by decide +kernel) (by decide +kernel)
    (by decide +kernel) fun i => ?_
  fin_cases i <;> simp [noFree, base, State.slot, State.setSlot]

/-- The four rings of the three clauses: an EMPTY member; slots 0 pinned and 1 not before the newest; nothing
but the newest; nothing. -/
theorem witness_LandingTargetChoice :
    ring5.empty = 2 :: []
      ∧ ({ RingRec.powerOn with ready := [0, 1, 2] } : RingRec).ready = [0] ++ 1 :: [] ++ [2]
      ∧ ({ RingRec.powerOn with ready := [0, 1, 2] } : RingRec).ready.Nodup
      ∧ ({ RingRec.powerOn with ready := [0, 1, 2] } : RingRec).empty = []
      ∧ (∀ k ∈ [0], (fun k : Nat => if k = 0 then 1 else 0) k ≠ 0) ∧ (fun k : Nat => if k = 0 then 1 else 0) 1 = 0
      ∧ ({ RingRec.powerOn with ready := [0] } : RingRec).ready = [] ++ [0] ∧ RingRec.powerOn.ready = [] := by decide

theorem witness_LowestFreeSlotIsTaken : ∃ t, base.claimSlot 5 = some (6, t) := ⟨_, rfl⟩

theorem witness_PinsAndUnpins :
    base.cameras[(5 : Camera)].enable = true ∧ base.rings[(5 : Camera)].ready.getLast? = some 0
      ∧ 0 < base.pool.slots.length ∧ base.cameras[(4 : Camera)].enable = false ∧ base.rings[(4 : Camera)].ready = []
      ∧ (base.slot 0).pins = 0 ∧ ((ready3 2 1 0).slot 0).pins = 2
      ∧ (base.slot 5).pins = 1 ∧ (base.slot 5).disp = .retiring
      ∧ (base.slot 4).pins = 1 ∧ (base.slot 4).disp = .held 0
      ∧ ((ready3 2 1 1).slot 2).pins = 1 ∧ ((ready3 2 1 1).slot 2).disp = .ring 5 .ready
      ∧ (ready3 2 1 1).rings[(5 : Camera)].ready.getLast? = some 2
      ∧ ((ready3 2 1 1).slot 1).pins = 1 ∧ ((ready3 2 1 1).slot 1).disp = .ring 5 .ready
      ∧ (ready3 2 1 1).cameras[(5 : Camera)].enable = true ∧ (ready3 2 1 1).rings[(5 : Camera)].filling = none
      ∧ (ready3 2 1 1).rings[(5 : Camera)].empty = []
      ∧ (ready3 2 1 1).rings[(5 : Camera)].ready = [0] ++ 1 :: [] ++ [2]
      ∧ (ready3 2 1 1).rings[(5 : Camera)].ready.Nodup ∧ (∀ k ∈ [0], ((ready3 2 1 1).slot k).pins ≠ 0) := by
  decide +kernel

/-- With P = 33,333 the deviations 2,083 and 2,084 of ACQUIRING, and 4,166 and 4,167 of LOCKED. -/
theorem witness_ArrivalIsJudged :
    let r := base.cadence[(5 : Camera)]
    let dev := fun n : Nat => (n - 33333) + (33333 - n)
    r.previous = some 966667 ∧ r.state = .locked ∧ r.slip = 2 ∧ r.prevSig = some 77 ∧ r.run = 7
      ∧ dev (elapsed 966667 (966667 + 35416)) ≤ 33333 / 16 ∧ 33333 / 16 < dev (elapsed 966667 (966667 + 35417))
      ∧ dev (elapsed 966667 (966667 + 29167)) ≤ 33333 / 8 ∧ 33333 / 8 < dev (elapsed 966667 (966667 + 29166))
      ∧ ({ r with state := .acquiring, good := 3, slip := 0 } : CadenceRec).good = 3
      ∧ ({ r with sigAcc := some 77 } : CadenceRec).sigAcc.getD 0 = 77
      ∧ ({ r with state := .stale, previous := none } : CadenceRec).state = .stale
      ∧ ({ r with previous := none, prevSig := none, run := 0 } : CadenceRec).prevSig = none := by decide +kernel

theorem witness_StaleTimeoutRunsOut :
    ({ base with time := 1066666 } : State).isRunning ∧ base.cadence[(5 : Camera)].state = .locked
      ∧ 3 * base.cameras[(5 : Camera)].period ≤ elapsed base.cadence[(5 : Camera)].staleRef 1066666
      ∧ ¬3 * base.cameras[(5 : Camera)].period ≤ elapsed base.cadence[(5 : Camera)].staleRef 1066665 := by
  exact ⟨rfl, by decide +kernel, by decide +kernel, by decide +kernel⟩

/-- A baseline whose zone 0 alone is not usable, seven PARTIAL classes, and a frame without a gradient. -/
def soiled : LensRec × Baseline :=
  let b : Baseline := ⟨Vector.replicate 48 7680, upd (Vector.replicate 48 true) 0 false⟩
  ({ LensRec.powerOn with
      baseline := some b, usableCount := 47, state := .clean, history := List.replicate 7 .part
      flags := Vector.replicate 48 true }, b)

theorem witness_JudgedFrame :
    soiled.1.history.length ≤ 8 ∧ soiled.2.usable.get 0 = false ∧ soiled.2.usable.get 47 = true
      ∧ (judgeFrame 5 SetupRec.powerOn soiled.2 .zero soiled.1).1.history.length = 8
      ∧ 5 ≤ (judgeFrame 5 SetupRec.powerOn soiled.2 .zero soiled.1).1.history.count .part
      ∧ FrameClass.part.state ≠ soiled.1.state
      ∧ (judgeFrame 5 SetupRec.powerOn soiled.2 .zero { soiled.1 with history := [] }).1.history.length < 8
      ∧ (List.replicate 8 FrameClass.clean).length ≤ 8 ∧ ¬(List.replicate 8 FrameClass.clean).length < 8
      ∧ (256 : Nat) ≤ 1023 ∧ (112 : Nat) < 160 := by decide +kernel

/-- A record of learning: 63 learned frames, and `n` zones whose sums make B = 64. -/
def learning (n : Nat) (total : Nat) : LensRec :=
  { LensRec.powerOn with
    acc := some { FrameAcc.zero with total := total }, learn := .running, learned := 63, candidates := 4095, eligible := 7
    sums := Vector.ofFn fun z => if z.val < n then 4064 else 4063 }

/-- Camera 5 judges every eighth frame of 76,800 pixels; the light gate is 40 to 235. -/
theorem witness_JudgedFrame_accepted :
    camera5.lensOn = true ∧ camera5.excl.getLsbD 0 = false ∧ (6 : Nat) + 1 < camera5.judge ∧ camera5.judge ≤ (7 : Nat) + 1
      ∧ (∀ x ∈ [(3071999, 39), (3072000, 40), (18124799, 235), (18124800, 236)],
          (lensAcceptedOf 5 camera5 SetupRec.powerOn .locked false (learning 12 x.1)).1.lastMean = x.2)
      ∧ (learning 12 0).learned + 1 = 64 ∧ 4096 ≤ (learning 12 0).candidates + 1
      ∧ (∀ n ∈ [11, 12], ((List.finRange 48).countP fun z : Zone =>
          decide (camera5.excl.getLsbD z.val = false ∧ 64 ≤ ((learning n 0).sums.get z + 32) / 64)) = n) := by decide +kernel

/-- Camera 5 is usable; disabled camera 4 is not; a partner byte of 255 is NONE and 5 names camera 5. -/
theorem witness_UsableAndShownCameras :
    base.usable 5 = true ∧ base.usable 4 = false ∧ 16 ≤ base.cameras[(4 : Camera)].partner
      ∧ ((base.setCamera 4 { CameraRec.powerOn with partner := 5 }).cameras[(4 : Camera)]).partner = (5 : Camera).val
      ∧ (base.setCamera 4 { CameraRec.powerOn with partner := 5 }).usable 4 = false
      ∧ (base.setCamera 4 { CameraRec.powerOn with partner := 5 }).usable 5 = true
      ∧ ((base.setCamera 4 { CameraRec.powerOn with partner := 3 }).cameras[(4 : Camera)]).partner = (3 : Camera).val
      ∧ (base.setCamera 4 { CameraRec.powerOn with partner := 3 }).usable 3 = false := by decide +kernel

def pane0 : PaneRec := ⟨32, 0, 32, 64, 5, 1, 0, 0, false, false, false, 255⟩

def entry0 : PaneEntry :=
  { pane := 0, copy := pane0, own := 5, shown := 5, shownW := 320, shownH := 240, latched := none, dim := false
    staleBand := true, marker := false, band := .none, border := .none }

/-- Screen 1 enabled, 64 x 64 with a stride of 136, and one pane in its right half. -/
def scanning : State :=
  { base with contexts := upd base.contexts 1 (some ⟨64, 64, 136, 0, blackFill, [entry0], false⟩) }.setScreen 1
    ⟨true, 64, 64, 136, 0⟩

/-- Word 16 is the padding beside row 0, word 7 its last background word, word 8 its first pane word, and word
1,088 the first below the picture. -/
theorem witness_ScreenReadComposes :
    scanning.isRunning ∧ (16#21) ≠ 0 ∧ scanning.roleOf gen.tag ≠ .display ∧ base.screens[(1 : Screen)].enable = false
      ∧ scanning.screens[(1 : Screen)].enable = true
      ∧ scanning.contexts[(1 : Screen)] = some ⟨64, 64, 136, 0, blackFill, [entry0], false⟩
      ∧ 64 * 2 ≤ 8 * (16#21).toNat % 136 ∧ 8 * (7#21).toNat % 136 < 64 * 2 ∧ 64 ≤ 8 * (1088#21).toNat / 136
      ∧ 8 * (7#21).toNat / 136 < 64 ∧ entry0.contains (8 * (7#21).toNat % 136 / 2) 0 = false
      ∧ entry0.contains (8 * (8#21).toNat % 136 / 2) 0 = true := by
  exact ⟨rfl, by decide, by decide +kernel, by decide +kernel, by decide +kernel, by decide +kernel, by decide, by decide,
    by decide, by decide, by decide, by decide⟩

/-- The covers of pane `pane0`, which lies at x 32 to 63 and y 0 to 63: its edge ends at x = 36 and y = 4,
the marker begins at x = 48, the stale band ends at row 8 and the lens band below it at row 16 or 24. -/
theorem witness_ScreenReadComposes_covers :
    entry0.copy = pane0 ∧ entry0.staleBand = true
      ∧ (34 < pane0.x + 4 ∧ ¬36 < pane0.x + 4 ∧ ¬pane0.x + pane0.w ≤ 36 + 4 ∧ pane0.x + pane0.w ≤ 60 + 4)
      ∧ (3 < pane0.y + 4 ∧ ¬4 < pane0.y + 4 ∧ ¬pane0.y + pane0.h ≤ 59 + 4 ∧ pane0.y + pane0.h ≤ 60 + 4)
      ∧ (pane0.x + pane0.w ≤ 48 + 16 ∧ ¬pane0.x + pane0.w ≤ 46 + 16 ∧ 15 < pane0.y + 16)
      ∧ (7 < pane0.y + 8 ∧ pane0.y + 8 ≤ 8 ∧ 15 < pane0.y + 8 + 8 ∧ 23 < pane0.y + 8 + 16)
      ∧ (36 + (12 - pane0.y)) / 8 % 2 = 0 ∧ (36 + (4 - pane0.y)) / 8 % 2 = 1 ∧ entry0.latched = none := by decide

/-- A wait for screen 1 alone, and one for screens 1 and 2. -/
theorem witness_FrameStartLatches :
    scanning.isRunning ∧ scanning.roleOf dsp.tag = .display ∧ scanning.screens[(1 : Screen)].enable = true
      ∧ scanning.engine.state ≠ .applying
      ∧ (scanning.setEngine { Engine.powerOn with state := .applying, pending := 2 }).engine.state = .applying
      ∧ (2#4).getLsbD 1 = true ∧ (2#4) &&& ~~~(1#4 <<< 1) = 0 ∧ (6#4).getLsbD 1 = true
      ∧ (6#4) &&& ~~~(1#4 <<< 1) ≠ 0 := by
  exact ⟨rfl, by decide +kernel, by decide +kernel, by decide +kernel, by decide +kernel, by decide, by decide, by decide,
    by decide⟩

/-- A ring of 64 places with consumer 0: producer 62 can be advanced, 63 cannot. -/
theorem witness_ReportWriterTakesAReport :
    base.mem.wf = true ∧ base.ring.inRange ∧ base.ring.configured = true ∧ State.reset.ring.configured = false
      ∧ ReportRing.inRange ⟨0x2000, 64, true, 62, 0, 0⟩ ∧ (62 + 1) % 64 ≠ 0
      ∧ ReportRing.inRange ⟨0x2000, 64, true, 63, 0, 65535⟩ ∧ (63 + 1) % 64 = 0 := by
  refine ⟨by decide +kernel, base_ring_inRange, by decide +kernel, by decide +kernel, ?_, by decide, ?_, by decide⟩ <;>
  · unfold ReportRing.inRange
    rw [if_pos (by rfl)]
    decide

/-- The clause of a used SPOT_LIST place, at the limits of its fields; those of a CAMERA_STATUS with six
members and of a HOLD_LIST with three post frames. -/
theorem witness_ReportWriterTakesAReport_details :
    (7 : Nat) ≤ 7 ∧ (31 : Nat) ≤ 31 ∧ (20 : Nat) ≤ 20 ∧ [(⟨.reverse, 7, 31, true, 20, 31⟩ : SpotPlace)][0]? = some ⟨.reverse, 7, 31, true, 20, 31⟩
      ∧ [(⟨.reverse, 7, 31, true, 20, 31⟩ : SpotPlace)][1]? = none ∧ (6 : Nat) ≤ 7 ∧ (3 : Nat) ≤ 3 := by decide

/-- Screen 0's list of two entries at 64,000,000, and its first and second entry. -/
theorem witness_SnapshotReportsEveryBlock_places :
    (base.setSpot 0 doorList).spots[(0 : Screen)].inOrder
      ∧ (base.setSpot 0 doorList).spots[(0 : Screen)].entries[0]? = some ⟨.doorAlert 3, 4, 6, false, 4000000, 61500000, 1⟩
      ∧ (base.setSpot 0 doorList).spots[(0 : Screen)].entries[1]? = some ⟨.doorOpen 3, 2, 4, true, 0, 60000000, 0⟩ :=
  ⟨doorList_inOrder, by decide +kernel, by decide +kernel⟩

theorem witness_MemoryRingAndEngineStayInRange :
    base.mem.wf = true ∧ base.ring.inRange ∧ base.engine.inRange ∧ ∃ t, step base = .next t :=
  ⟨by decide +kernel, base_ring_inRange, base_engine_inRange, _, rfl⟩

theorem emptyList_inOrder : SpotList.empty.inOrder := by
  refine ⟨by decide, by decide, by decide, ?_⟩
  constructor
  · intro h
    exact absurd h (by decide)
  · rintro ⟨e, he, -⟩
    cases he

theorem witness_SpotlightListsStayInOrder :
    (∀ i : Screen, base.spots[i].inOrder ∧ base.spots[i].inActivationOrder ∧ base.spots[i].noneOneTurnOld base.time)
      ∧ (∃ t, step base = .next t) ∧ doorList.inActivationOrder ∧ doorList.noneOneTurnOld 63000000 := by
  refine ⟨fun i => ?_, ⟨_, rfl⟩, ?_, ?_⟩
  · have : base.spots[i] = .empty := by
      revert i
      decide +kernel
    rw [this]
    refine ⟨emptyList_inOrder, ?_, ?_⟩
    · unfold SpotList.inActivationOrder
      decide
    · unfold SpotList.noneOneTurnOld
      decide
  · unfold SpotList.inActivationOrder
    decide
  · unfold SpotList.noneOneTurnOld
    decide

theorem witness_CadenceStaysInRange :
    (∀ c : Camera, base.cadence[c].inRange base.cameras[c].enable) ∧ ∃ t, step base = .next t := by
  refine ⟨?_, _, rfl⟩
  unfold CadenceRec.inRange
  decide +kernel

theorem witness_LensStaysInRange : (∀ c : Camera, base.lens[c].inRange) ∧ ∃ t, step base = .next t := by
  refine ⟨fun c => ?_, _, rfl⟩
  have : base.lens[c] = .powerOn := by
    have h : base.lens = Vector.replicate 16 .powerOn := rfl
    rw [h]
    simp
  rw [this]
  exact ⟨by decide +kernel, by decide, by decide, fun b hb => (by cases hb), by decide +kernel, by decide, by decide⟩

/-- Camera 5 seven words into a frame, its accumulators at the words' limits. -/
def accumulating : State :=
  (inFrame5 7).setLens 5 { LensRec.powerOn with
    acc := some ⟨Vector.ofFn fun z => if z.val = 0 then ⟨5355, 7140, 7⟩ else ⟨0, 0, 0⟩, 7140⟩, eligible := 15, noiseInUse := 31
    learn := .running, learned := 63, sums := Vector.replicate 48 4112640 }

theorem powerOn_lens_inRange : LensRec.powerOn.inRange :=
  ⟨by decide +kernel, by decide, by decide, fun b hb => (by cases hb), by decide +kernel, by decide, by decide⟩

theorem accumulating_lens (c : Camera) (h : c ≠ 5) : accumulating.lens[c] = .powerOn := by
  revert c
  decide +kernel

theorem witness_LensStaysInRange_figures :
    (∀ c : Camera, accumulating.lens[c].inRange ∧ accumulating.lensFigures c) ∧ accumulating.engine.inRange
      ∧ ∃ t, step accumulating = .next t := by
  refine ⟨fun c => ⟨?_, ?_⟩, base_engine_inRange, _, rfl⟩
  · by_cases h : c = 5
    · subst h
      exact ⟨by decide +kernel, by decide +kernel, by decide +kernel, fun b hb => (by cases hb), fun h => absurd h (by decide +kernel),
        by decide +kernel, by decide +kernel⟩
    · rw [accumulating_lens c h]
      exact powerOn_lens_inRange
  · have hc : accumulating.cameras[c].judge ≤ 16 ∧ accumulating.cameras[c].noise ≤ 31 := by
      revert c
      decide +kernel
    refine ⟨hc.1, hc.2, ?_⟩
    by_cases h : c = 5
    · subst h
      refine ⟨by decide +kernel, by decide +kernel, by decide +kernel, by decide +kernel, fun b hb => (by cases hb), by decide +kernel,
        by decide +kernel, fun a ha => ?_⟩
      cases ha
      exact ⟨by decide +kernel, fun _ _ _ => by decide +kernel⟩
    · rw [accumulating_lens c h]
      exact ⟨by decide, by decide, by decide, by decide, fun b hb => (by cases hb), by decide, by decide +kernel,
        fun a ha => (by cases ha)⟩

theorem witness_HoldsStayConsistent :
    base.holds.consistent ∧ (∀ d : Door, base.doors[d].post ≤ 3) ∧ ∃ t, step base = .next t :=
  ⟨base_holds_consistent, by decide +kernel, _, rfl⟩

theorem witness_PoolLawsAreKept :
    base.poolLaws ∧ base.regionsApart ∧ base.engine.inRange ∧ ∃ t, step base = .next t :=
  ⟨base_poolLaws, base_regionsApart, base_engine_inRange, _, rfl⟩

/-- Screen 0 latches slot 4, HELD, and slot 5, RETIRING. -/
def latching : State :=
  base.setContext 0 (some ⟨64, 64, 128, 0, blackFill,
    [{ entry0 with latched := some ⟨4, 0x080C0000⟩ }, { entry0 with latched := some ⟨5, 0x080F0000⟩ }], false⟩)

theorem latching_latchCount (i : Nat) : latching.latchCount i = if i = 4 ∨ i = 5 then 1 else 0 := by
  have h1 : latching.contexts[(1 : Screen)] = none := by decide +kernel
  have h2 : latching.contexts[(2 : Screen)] = none := by decide +kernel
  have h3 : latching.contexts[(3 : Screen)] = none := by decide +kernel
  have h0 : latching.contexts[(0 : Screen)] = some ⟨64, 64, 128, 0, blackFill,
      [{ entry0 with latched := some ⟨4, 0x080C0000⟩ }, { entry0 with latched := some ⟨5, 0x080F0000⟩ }], false⟩ := by
    decide +kernel
  have hl : List.finRange 4 = [(0 : Screen), 1, 2, 3] := by decide
  unfold State.latchCount
  rw [hl]
  simp only [List.countP_cons, h0, h1, h2, h3, List.countP_nil]
  by_cases h4 : i = 4
  · simp [h4]
  · by_cases h5 : i = 5
    · simp [h5]
    · simp [h4, h5, Ne.symm h4, Ne.symm h5]

theorem latching_slotLaws : latching.slotLaws := by
  refine ⟨fun h x hx => ?_, fun h i hi hn => ?_, fun i hi => ?_, by decide +kernel, fun i => ?_⟩
  · have ht : base.holds.table.get h = some x := hx
    rw [base_table] at ht
    split at ht
    · rename_i h0
      subst h0
      cases ht
      have key : ∀ i : Fin 8, i.val ∈ [3, 4] ↔ (latching.slot i.val).disp = .held 0 := by decide +kernel
      refine ⟨by decide, fun i => ⟨fun hi => ?_, fun hi => (key ⟨i, hi.1⟩).2 hi.2⟩⟩
      have hi8 : i < 8 := by
        have : i = 3 ∨ i = 4 := by simpa [oldHold] using hi
        omega
      exact ⟨hi8, (key ⟨i, hi8⟩).1 hi⟩
    · cases ht
  · have ht : base.holds.table.get h = none := hn
    rw [base_table] at ht
    split at ht
    · cases ht
    · rename_i h0
      have key : ∀ (i : Fin 8) (h : HoldId), h ≠ 0 → (latching.slot i.val).disp ≠ .held h := by decide +kernel
      exact key ⟨i, hi⟩ h h0
  · have key : ∀ i : Fin 8, (latching.slot i.val).frame.isSome = true ↔
        (∃ c : Camera, (latching.slot i.val).disp = .ring c .ready) ∨ ∃ h : HoldId, (latching.slot i.val).disp = .held h := by
      decide +kernel
    exact key ⟨i, hi⟩
  · rw [latching_latchCount]
    by_cases hi : i < 8
    · have key : ∀ i : Fin 8, (latching.slot i.val).pins = if i.val = 4 ∨ i.val = 5 then 1 else 0 := by decide +kernel
      exact key ⟨i, hi⟩
    · rw [if_neg (by omega)]
      have hl : latching.pool.slots.length = 8 := by decide +kernel
      simp [State.slot, List.getElem?_eq_none (by omega : latching.pool.slots.length ≤ i), SlotRec.fresh]

theorem witness_PoolLawsAreKept_slots :
    latching.poolLaws ∧ latching.regionsApart ∧ latching.engine.inRange ∧ latching.holds.consistent ∧ latching.slotLaws
      ∧ ∃ t, step latching = .next t :=
  ⟨base_poolLaws, base_regionsApart, base_engine_inRange, base_holds_consistent, latching_slotLaws, _, rfl⟩

theorem witness_RegionsStayApart : base.regionsApart ∧ ∃ t, step base = .next t := ⟨base_regionsApart, _, rfl⟩

end Sys2Proof.Tests
end

section

/-! The usable camera and the shown camera of a pane (R97, R99): one lemma per branch of the model's
definitions, and O50 assembled from them. -/

namespace Sys2Proof.Machine

theorem State.usable_iff (s : State) (c : Camera) :
    s.usable c = true ↔ s.cameras[c].enable = true ∧ s.cadence[c].state ≠ .stale
      ∧ s.cadence[c].frozen = false ∧ s.lens[c].state ≠ .obscured ∧ s.rings[c].ready ≠ [] := by
  simp [State.usable, and_assoc]

/-- A partner byte of 16 and up is NONE (11.6). -/
theorem CameraRec.partnerCamera_eq_none {r : CameraRec} (h : 16 ≤ r.partner) : r.partnerCamera = none :=
  dif_neg (Nat.not_lt.mpr h)

theorem CameraRec.partnerCamera_eq_some {r : CameraRec} {q : Camera} (h : r.partner = q.val) :
    r.partnerCamera = some q := by
  simp [CameraRec.partnerCamera, h]

section ShownCamera

variable {s : State} {p : PaneRec} {own q : Camera}

theorem State.shownCamera_of_usable (h : s.usable own = true) : s.shownCamera p own = own :=
  if_pos h

theorem State.shownCamera_of_no_subst (h : p.subst = false) : s.shownCamera p own = own := by
  simp [State.shownCamera, h]

theorem State.shownCamera_of_no_partner (h : s.cameras[own].partnerCamera = none) :
    s.shownCamera p own = own := by
  rw [State.shownCamera, h]
  simp

theorem State.shownCamera_of_partner_unusable (hq : s.cameras[own].partnerCamera = some q)
    (hn : s.usable q = false) : s.shownCamera p own = own := by
  rw [State.shownCamera, hq]
  simp [hn]

/-- The one case of R99 that substitutes. -/
theorem State.shownCamera_of_partner_usable (ho : s.usable own = false) (hp : p.subst = true)
    (hq : s.cameras[own].partnerCamera = some q) (hu : s.usable q = true) : s.shownCamera p own = q := by
  rw [State.shownCamera, hq]
  simp [ho, hp, hu]

end ShownCamera

/-- Settles O50: the usable camera by its five conditions, and each case of the shown camera by the lemma
about that branch of `State.shownCamera`. -/
theorem usableAndShownCameras : Obligations.UsableAndShownCameras := by
  refine ⟨State.usable_iff, fun s p own q => ⟨State.shownCamera_of_usable, ?_, ?_, ?_, ?_⟩⟩
  · intro _ hsubst
    exact State.shownCamera_of_no_subst hsubst
  · intro _ hnone
    exact State.shownCamera_of_no_partner (CameraRec.partnerCamera_eq_none hnone)
  · intro hown hsubst hpartner husable
    exact State.shownCamera_of_partner_usable hown hsubst (CameraRec.partnerCamera_eq_some hpartner) husable
  · intro _ hpartner hunusable
    exact State.shownCamera_of_partner_unusable (CameraRec.partnerCamera_eq_some hpartner) hunusable

end Sys2Proof.Machine
end

section

/-! The Report Writer (R177) and the 32 bytes of every report record (11.5, R182, R201): what `State.emit`
does in each of R177's cases; the fields of a list of bytes and where `leBytes` puts them; the codes, which
are bytes; the parts of a record that hold lists of their own; and O53 assembled from them. -/

namespace Sys2Proof.Machine

/-! ### The three cases of R177 -/

section Emit

variable {s : State} {g : ReportRing}

theorem ReportRing.full_iff : g.full = true ↔ (g.producer + 1) % g.capacity = g.consumer := decide_eq_true_iff

theorem ReportRing.writable_iff :
    g.writable = true ↔ g.configured = true ∧ (g.producer + 1) % g.capacity ≠ g.consumer := by
  simp [ReportRing.writable, ReportRing.full]

theorem ReportRing.afterReport_of_not_configured (h : g.configured = false) : g.afterReport = g := by
  simp [ReportRing.afterReport, h]

theorem ReportRing.afterReport_of_full (hc : g.configured = true) (hf : g.full = true) :
    g.afterReport = { g with lost := min (g.lost + 1) Config.sixteenMax } := by
  simp [ReportRing.afterReport, hc, hf]

theorem ReportRing.afterReport_of_writable (h : g.writable = true) :
    g.afterReport = { g with lost := 0, producer := (g.producer + 1) % g.capacity } := by
  obtain ⟨hc, hf⟩ : g.configured = true ∧ g.full = false := by simpa [ReportRing.writable] using h
  simp [ReportRing.afterReport, hc, hf]

theorem State.emit_mem_of_not_writable (r : Report) (h : ¬s.ring.writable = true) : (s.emit r).mem = s.mem :=
  if_neg h

theorem State.emit_mem_of_writable (r : Report) (h : s.ring.writable = true) :
    (s.emit r).mem = s.mem.writeBytes (s.ring.placeAddr s.ring.producer) (r.bytes s.time s.ring.lost) :=
  if_pos h

theorem State.emit_of_not_configured (r : Report) (h : s.ring.configured = false) : s.emit r = s := by
  have hw : s.ring.writable = false := by simp [ReportRing.writable, h]
  simp [State.emit, hw, ReportRing.afterReport_of_not_configured h]

/-- The count of lost reports holds at its largest value. -/
theorem min_succ_sixteenMax {n : Nat} (h : n ≤ Config.sixteenMax) :
    min (n + 1) Config.sixteenMax = if n < 65535 then n + 1 else 65535 := by
  unfold Config.sixteenMax at *
  split <;> omega

theorem State.emit_of_full (r : Report) (hg : s.ring.inRange) (hc : s.ring.configured = true)
    (hf : (s.ring.producer + 1) % s.ring.capacity = s.ring.consumer) :
    (s.emit r).mem = s.mem
      ∧ (s.emit r).ring = { s.ring with lost := if s.ring.lost < 65535 then s.ring.lost + 1 else 65535 } := by
  have hw : ¬s.ring.writable = true := fun h => (ReportRing.writable_iff.1 h).2 hf
  obtain ⟨-, -, -, -, hlost, -⟩ := ReportRing.inRange_configured hg hc
  refine ⟨State.emit_mem_of_not_writable r hw, ?_⟩
  rw [State.emit_ring, ReportRing.afterReport_of_full hc (ReportRing.full_iff.2 hf), min_succ_sixteenMax hlost]

/-- Every place of a ring in range is in frame memory (R162), so no byte of a record wraps. -/
theorem ReportRing.physical_placeAddr {j : Nat} (h : g.inRange) (hc : g.configured = true) (hj : j < 32) :
    physical (g.placeAddr g.producer + j) = g.base + g.producer * 32 + j := by
  obtain ⟨-, -, hp, -, -, hm⟩ := ReportRing.inRange_configured h hc
  unfold Config.reportBytes at hm
  exact physical_of_lt (by unfold ReportRing.placeAddr Config.reportBytes; omega)

/-- The place at the producer reads as the record that was written to it. -/
theorem State.emit_read_place (r : Report) {j : Nat} (hm : s.mem.wf = true) (hg : s.ring.inRange)
    (hw : s.ring.writable = true) (hj : j < (r.bytes s.time s.ring.lost).length) :
    (s.emit r).mem.read (s.ring.base + s.ring.producer * 32 + j) = (r.bytes s.time s.ring.lost)[j] := by
  have hj32 : j < 32 := by simpa using hj
  rw [State.emit_mem_of_writable r hw,
    ← ReportRing.physical_placeAddr hg (ReportRing.writable_iff.1 hw).1 hj32]
  exact Memory.read_writeBytes_self _ hm (by simp) hj

theorem State.emit_read_outside (r : Report) {a : Nat} (hg : s.ring.inRange) (hc : s.ring.configured = true)
    (ha : outside (s.ring.base + s.ring.producer * 32) 32 a) : (s.emit r).mem.read a = s.mem.read a := by
  refine State.emit_read_of_outsideNext r fun _ j hj => ?_
  have hj32 : j < 32 := hj
  rw [ReportRing.physical_placeAddr hg hc hj32]
  unfold outside at ha
  omega

end Emit

/-! ### Fields of a list of bytes -/

/-- The number in byte `n`; past the end of the list there are zero bytes. -/
def byteAt (bs : List Byte) (n : Nat) : Nat := (bs.getD n 0).toNat

/-- The number in the two bytes from byte `n`, little-endian. -/
def twoAt (bs : List Byte) (n : Nat) : Nat := byteAt bs n + 256 * byteAt bs (n + 1)

/-- The number in the four bytes from byte `n`, little-endian. -/
def fourAt (bs : List Byte) (n : Nat) : Nat := twoAt bs n + 65536 * twoAt bs (n + 2)

section Fields

variable {bs cs : List Byte} {b : Byte} {n v : Nat}

@[simp] theorem byteAt_cons_zero : byteAt (b :: bs) 0 = b.toNat := rfl

@[simp] theorem byteAt_cons_succ : byteAt (b :: bs) (n + 1) = byteAt bs n := rfl

@[simp] theorem twoAt_cons_succ : twoAt (b :: bs) (n + 1) = twoAt bs n := rfl

@[simp] theorem fourAt_cons_succ : fourAt (b :: bs) (n + 1) = fourAt bs n := rfl

theorem byteAt_of_le (h : bs.length ≤ n) : byteAt bs n = 0 := by simp [byteAt, h]

@[simp] theorem byteAt_append_left (h : n < bs.length) : byteAt (bs ++ cs) n = byteAt bs n := by
  simp [byteAt, List.getElem?_append_left h]

@[simp] theorem byteAt_append_right (h : bs.length ≤ n) : byteAt (bs ++ cs) n = byteAt cs (n - bs.length) := by
  simp [byteAt, List.getElem?_append_right h]

@[simp] theorem twoAt_append_right (h : bs.length ≤ n) : twoAt (bs ++ cs) n = twoAt cs (n - bs.length) := by
  rw [twoAt, byteAt_append_right h, byteAt_append_right (by omega), Nat.sub_add_comm h, twoAt]

@[simp] theorem fourAt_append_right (h : bs.length ≤ n) : fourAt (bs ++ cs) n = fourAt cs (n - bs.length) := by
  rw [fourAt, twoAt_append_right h, twoAt_append_right (by omega), Nat.sub_add_comm h, fourAt]

/-- Bytes `a` to `b - 1` are 0 when that stretch of the list holds zero bytes alone, as far as it goes. -/
theorem byteAt_eq_zero {a c : Nat} (h : ∀ x ∈ (bs.drop a).take (c - a), x = 0#8) (ha : a ≤ n) (hc : n < c) :
    byteAt bs n = 0 := by
  rcases Nat.lt_or_ge n bs.length with hn | hn
  · have hmem : bs[n] ∈ (bs.drop a).take (c - a) :=
      List.mem_take_iff_getElem.2 ⟨n - a, by simp; omega, by simp [Nat.add_sub_cancel' ha]⟩
    simp [byteAt, hn, h _ hmem]
  · exact byteAt_of_le hn

@[simp] theorem byteAt_map_range {k : Nat} (f : Nat → Byte) (h : n < k) :
    byteAt ((List.range k).map f) n = (f n).toNat := by
  simp [byteAt, h]

/-- A list of bytes reads the same when it is filled up with zero bytes. -/
theorem byteAt_append_zeros (k : Nat) : byteAt (bs ++ List.replicate k 0#8) n = byteAt bs n := by
  rcases Nat.lt_or_ge n bs.length with h | h
  · exact byteAt_append_left h
  · rw [byteAt_append_right h, byteAt_of_le h, byteAt, List.getD_eq_getElem?_getD]
    exact congrArg BitVec.toNat (List.getElem?_getD_replicate_default_eq _ _ _)

/-! The bytes of a little-endian field, and of a row of them. -/

theorem byteAt_leBytes {k i : Nat} (h : i < k) : byteAt (leBytes k v) i = v / 256 ^ i % 256 := by
  induction k generalizing i v with
  | zero => omega
  | succ k ih =>
    cases i with
    | zero => simp [leBytes]
    | succ i =>
      rw [leBytes, byteAt_cons_succ, ih (by omega), Nat.div_div_eq_div_mul, Nat.pow_succ']

@[simp] theorem twoAt_leBytes_append : twoAt (leBytes 2 v ++ bs) 0 = v % 65536 := by
  simp only [leBytes, List.cons_append, twoAt, byteAt_cons_succ, byteAt_cons_zero, BitVec.toNat_ofNat]
  omega

@[simp] theorem fourAt_leBytes_append : fourAt (leBytes 4 v ++ bs) 0 = v % 2 ^ 32 := by
  simp only [leBytes, List.cons_append, fourAt, twoAt, byteAt_cons_succ, byteAt_cons_zero, BitVec.toNat_ofNat]
  omega

@[simp] theorem twoAt_leBytes : twoAt (leBytes 2 v) 0 = v % 65536 := by
  simpa using twoAt_leBytes_append (v := v) (bs := [])

@[simp] theorem fourAt_leBytes : fourAt (leBytes 4 v) 0 = v % 2 ^ 32 := by
  simpa using fourAt_leBytes_append (v := v) (bs := [])

/-- Byte `j` of field `i` in a row of fields of `w` bytes each. -/
theorem byteAt_fields {w k i j : Nat} (f : Nat → Nat) (hi : i < k) (hj : j < w) :
    byteAt ((List.range k).flatMap fun i => leBytes w (f i)) (w * i + j) = f i / 256 ^ j % 256 := by
  induction k generalizing f i with
  | zero => omega
  | succ k ih =>
    rw [List.range_succ_eq_map, List.flatMap_cons, List.flatMap_map]
    cases i with
    | zero =>
      rw [byteAt_append_left (by simpa using hj), Nat.mul_zero, Nat.zero_add, byteAt_leBytes hj]
    | succ i =>
      rw [byteAt_append_right (by rw [leBytes_length, Nat.mul_succ]; omega), leBytes_length, Nat.mul_succ,
        show w * i + w + j - w = w * i + j by omega]
      exact ih (fun n => f (n + 1)) (by omega)

theorem fourAt_fields {k i : Nat} (f : Nat → Nat) (hi : i < k) :
    fourAt ((List.range k).flatMap fun i => leBytes 4 (f i)) (4 * i) = f i % 2 ^ 32 := by
  have hbyte := fun j hj => byteAt_fields (w := 4) (j := j) f hi hj
  simp only [fourAt, twoAt, Nat.add_assoc]
  rw [← Nat.add_zero (4 * i), hbyte 0 (by decide), Nat.add_assoc, Nat.add_assoc, hbyte 1 (by decide),
    hbyte 2 (by decide), hbyte 3 (by decide)]
  omega

theorem threeAt_fields {k i : Nat} (f : Nat → Nat) (hi : i < k) :
    let bs := (List.range k).flatMap fun i => leBytes 3 (f i)
    twoAt bs (3 * i) + 65536 * byteAt bs (3 * i + 2) = f i % 2 ^ 24 := by
  have hbyte := fun j hj => byteAt_fields (w := 3) (j := j) f hi hj
  simp only [twoAt]
  rw [hbyte 1 (by decide), hbyte 2 (by decide), ← Nat.add_zero (3 * i), hbyte 0 (by decide)]
  omega

end Fields

/-! ### Codes and numbers are bytes -/

@[simp] theorem toNat_b8 (n : Nat) : (b8 n).toNat = n % 256 := BitVec.toNat_ofNat n 8

@[simp] theorem bit_false : bit false = 0 := rfl

@[simp] theorem bit_true : bit true = 1 := rfl

@[simp] theorem bit_mod_byte (b : Bool) : bit b % 256 = bit b := by cases b <;> rfl

@[simp] theorem camera_mod_byte (c : Camera) : c.val % 256 = c.val :=
  Nat.mod_eq_of_lt (c.isLt.trans (by decide))

@[simp] theorem tag_mod_byte (t : Tag) : t.toNat % 256 = t.toNat := Nat.mod_eq_of_lt (t.isLt.trans (by decide))

theorem bit_lt_two (b : Bool) : bit b < 2 := by cases b <;> decide

@[simp] theorem Result.code_mod_byte (x : Result) : x.code % 256 = x.code := by cases x <;> rfl

@[simp] theorem Reason.code_mod_byte (x : Reason) : x.code % 256 = x.code := by cases x <;> rfl

@[simp] theorem CadenceState.code_mod_byte (x : CadenceState) : x.code % 256 = x.code := by cases x <;> rfl

@[simp] theorem CadenceCause.code_mod_byte (x : CadenceCause) : x.code % 256 = x.code := by cases x <;> rfl

@[simp] theorem FrozenCause.code_mod_byte (x : FrozenCause) : x.code % 256 = x.code := by cases x <;> rfl

@[simp] theorem LensState.code_mod_byte (x : LensState) : x.code % 256 = x.code := by cases x <;> rfl

@[simp] theorem LensCause.code_mod_byte (x : LensCause) : x.code % 256 = x.code := by cases x <;> rfl

@[simp] theorem LearnResult.code_mod_byte (x : LearnResult) : x.code % 256 = x.code := by cases x <;> rfl

@[simp] theorem LearnResult.causeCode_mod_byte (x : LearnResult) : x.causeCode % 256 = x.causeCode := by
  rcases x with _ | _ | _ | _ | _ <;> rfl

/-- R201: only a discarded run has a discard cause. -/
theorem LearnResult.causeCode_of_not_discarded {x : LearnResult} (h : ∀ d, x ≠ .discarded d) :
    x.causeCode = 0xFF := by
  cases x with
  | discarded d => exact absurd rfl (h d)
  | _ => rfl

@[simp] theorem DoorState.code_mod_byte (x : DoorState) : x.code % 256 = x.code := by cases x <;> rfl

@[simp] theorem DoorCause.code_mod_byte (x : DoorCause) : x.code % 256 = x.code := by cases x <;> rfl

theorem Origin.rank_eq_rankOf (o : Origin) : o.rank = rankOf o := by cases o <;> rfl

theorem rankOf_lt (o : Origin) : rankOf o < 32 := by
  cases o with
  | doorAlert d => simp only [rankOf]; omega
  | doorOpen d => simp only [rankOf]; omega
  | _ => decide

@[simp] theorem Origin.rank_mod_byte (o : Origin) : o.rank % 256 = rankOf o := by
  have := rankOf_lt o
  rw [Origin.rank_eq_rankOf]
  omega

theorem guardCode_lt (k : GuardKind) : guardCode k < 256 := by cases k <;> decide

theorem holdCauseCode_lt (x : Option HoldCause) : holdCauseCode x < 8 := by
  rcases x with _ | _ | _ | _ | _ | _ <;> decide

/-! ### Where a record's parts lie -/

theorem holdDetail_length (h : Hold) : (holdDetail h).length = 23 := by
  simp [holdDetail, holdSlotBytes, holdFrameBytes, List.range_succ]

theorem Report.detail_length_le (r : Report) : r.detail.length ≤ 24 := by
  cases r <;> simp [Report.detail, holdDetail_length, CameraStatus.detail, List.range_succ]

section Record

variable (r : Report) (time : Time) (lost : Nat)

/-- A record is its eight bytes of common fields, its detail and zero bytes (R182, R201). -/
theorem Report.bytes_eq : ∃ k, r.bytes time lost =
    b8 r.kind :: b8 r.subject :: (leBytes 2 lost ++ (leBytes 4 time.toNat ++ (r.detail ++ List.replicate k 0#8))) := by
  have h := r.detail_length_le
  refine ⟨24 - r.detail.length, ?_⟩
  rw [Report.bytes, List.take_append, List.take_of_length_le h, List.take_replicate, Nat.min_eq_left (by omega)]
  simp

theorem Report.byteAt_kind : byteAt (r.bytes time lost) 0 = r.kind := by
  cases r <;> rfl

theorem Report.subject_lt : r.subject < 256 := by
  cases r with
  | guard k e => exact guardCode_lt k
  | _ => simp only [Report.subject]; omega

theorem Report.byteAt_subject : byteAt (r.bytes time lost) 1 = r.subject := by
  obtain ⟨k, e⟩ := r.bytes_eq time lost
  simp [e, Nat.mod_eq_of_lt r.subject_lt]

theorem Report.twoAt_lost : twoAt (r.bytes time lost) 2 = lost % 65536 := by
  obtain ⟨k, e⟩ := r.bytes_eq time lost
  simp [e]

theorem Report.fourAt_time : fourAt (r.bytes time lost) 4 = time.toNat := by
  obtain ⟨k, e⟩ := r.bytes_eq time lost
  simp [e, Nat.mod_eq_of_lt time.isLt]

/-- From byte 8 on a record reads as its detail. -/
theorem Report.byteAt_bytes {n : Nat} (h : 8 ≤ n) : byteAt (r.bytes time lost) n = byteAt r.detail (n - 8) := by
  obtain ⟨k, e⟩ := r.bytes_eq time lost
  obtain ⟨m, rfl⟩ := Nat.exists_eq_add_of_le' h
  simp [e, byteAt_append_zeros]

theorem Report.twoAt_bytes {n : Nat} (h : 8 ≤ n) : twoAt (r.bytes time lost) n = twoAt r.detail (n - 8) := by
  rw [twoAt, r.byteAt_bytes _ _ h, r.byteAt_bytes _ _ (by omega), Nat.sub_add_comm h, twoAt]

theorem Report.fourAt_bytes {n : Nat} (h : 8 ≤ n) : fourAt (r.bytes time lost) n = fourAt r.detail (n - 8) := by
  rw [fourAt, r.twoAt_bytes _ _ h, r.twoAt_bytes _ _ (by omega), Nat.sub_add_comm h, fourAt]

/-- Bytes `a` to `b - 1` of a record are 0 when the detail has zero bytes alone there, as far as it goes. -/
theorem Report.byteAt_eq_zero {a b : Nat} (ha : 8 ≤ a)
    (h : ∀ x ∈ (r.detail.drop (a - 8)).take (b - 8 - (a - 8)), x = 0#8) (n : Nat) (hn : a ≤ n) (hb : n < b) :
    byteAt (r.bytes time lost) n = 0 :=
  (r.byteAt_bytes time lost (ha.trans hn)).trans
    (Machine.byteAt_eq_zero h (Nat.sub_le_sub_right hn 8) (by omega))

/-- R201: behind its detail a record is filled up with zero bytes. -/
theorem Report.byteAt_past_detail {n : Nat} (h : r.detail.length + 8 ≤ n) : byteAt (r.bytes time lost) n = 0 :=
  (r.byteAt_bytes time lost (by omega)).trans (byteAt_of_le (by omega))

end Record

/-! ### The detail of a hold -/

section HoldDetail

variable {h : Hold} {e : HoldSlot} {n : Nat}

theorem byteAt_holdDetail_origin : byteAt (holdDetail h) 0 = rankOf h.origin := by
  simp [holdDetail]

theorem byteAt_holdDetail_camera : byteAt (holdDetail h) 1 = h.camera.val := by
  simp [holdDetail]

theorem byteAt_holdDetail_completion :
    byteAt (holdDetail h) 2 % 8 = holdCauseCode h.cause ∧ byteAt (holdDetail h) 2 / 8 % 2 = bit h.short
      ∧ byteAt (holdDetail h) 2 / 16 % 2 = bit h.staleSource
      ∧ byteAt (holdDetail h) 2 / 32 = h.slots.length % 8 := by
  have hcause := holdCauseCode_lt h.cause
  have hshort := bit_lt_two h.short
  have hstale := bit_lt_two h.staleSource
  have hbyte : byteAt (holdDetail h) 2 =
      (holdCauseCode h.cause + 8 * bit h.short + 16 * bit h.staleSource + 32 * h.slots.length) % 256 := by
    simp [holdDetail, completionByte]
  omega

theorem byteAt_holdDetail_slot (hn : n < 4) :
    byteAt (holdDetail h) (n + 3) = ((h.slots[n]?.map fun e => b8 e.slot).getD 0xFF).toNat := by
  simp [holdDetail, holdSlotBytes, hn]

theorem fourAt_holdDetail_frame (hn : n < 4) :
    fourAt (holdDetail h) (4 * n + 7) = (h.slots[n]?.map fun e => e.frame.toNat).getD 0 % 2 ^ 32 := by
  rw [← fourAt_fields (fun i => (h.slots[i]?.map fun e => e.frame.toNat).getD 0) hn]
  simp [holdDetail, holdSlotBytes, holdFrameBytes]

theorem holdDetail_entry (hn : n < 4) (he : h.slots[n]? = some e) :
    byteAt (holdDetail h) (n + 3) = e.slot % 256 ∧ fourAt (holdDetail h) (4 * n + 7) = e.frame.toNat := by
  rw [byteAt_holdDetail_slot hn, fourAt_holdDetail_frame hn, he]
  exact ⟨toNat_b8 _, Nat.mod_eq_of_lt e.frame.isLt⟩

theorem holdDetail_unused (hn : n < 4) (he : h.slots[n]? = none) :
    byteAt (holdDetail h) (n + 3) = 0xFF ∧ fourAt (holdDetail h) (4 * n + 7) = 0 := by
  rw [byteAt_holdDetail_slot hn, fourAt_holdDetail_frame hn, he]
  exact ⟨rfl, rfl⟩

/-- Bytes 9 to 31 of a record whose detail ends with a hold: a COMPLETE or a HOLD_LIST record (11.5). -/
theorem Report.bytes_of_holdDetail {r : Report} {b : Byte} (hd : r.detail = b :: holdDetail h) (time : Time)
    (lost : Nat) :
    let bs := r.bytes time lost
    byteAt bs 9 = rankOf h.origin ∧ byteAt bs 10 = h.camera.val ∧ byteAt bs 11 % 8 = holdCauseCode h.cause
      ∧ byteAt bs 11 / 8 % 2 = bit h.short ∧ byteAt bs 11 / 16 % 2 = bit h.staleSource
      ∧ byteAt bs 11 / 32 = h.slots.length % 8
      ∧ ∀ n, n < 4 →
        (∀ e, h.slots[n]? = some e → byteAt bs (12 + n) = e.slot % 256 ∧ fourAt bs (16 + 4 * n) = e.frame.toNat)
          ∧ (h.slots[n]? = none → byteAt bs (12 + n) = 0xFF ∧ fourAt bs (16 + 4 * n) = 0) := by
  intro bs
  have hbyte : ∀ n, byteAt bs (9 + n) = byteAt (holdDetail h) n := fun n => by
    rw [r.byteAt_bytes _ _ (by omega), hd, show 9 + n - 8 = n + 1 by omega, byteAt_cons_succ]
  have hfour : ∀ n, fourAt bs (9 + n) = fourAt (holdDetail h) n := fun n => by
    rw [r.fourAt_bytes _ _ (by omega), hd, show 9 + n - 8 = n + 1 by omega, fourAt_cons_succ]
  obtain ⟨hcause, hshort, hstale, hcount⟩ := byteAt_holdDetail_completion (h := h)
  rw [← hbyte] at hcause hshort hstale hcount
  refine ⟨(hbyte 0).trans byteAt_holdDetail_origin, (hbyte 1).trans byteAt_holdDetail_camera, hcause, hshort,
    hstale, hcount, fun n hn => ?_⟩
  rw [show 12 + n = 9 + (n + 3) by omega, show 16 + 4 * n = 9 + (4 * n + 7) by omega, hbyte, hfour]
  exact ⟨fun e => holdDetail_entry hn, holdDetail_unused hn⟩

end HoldDetail

/-! ### The detail of a camera's status -/

section CameraStatus

variable {x : CameraStatus} {m : Nat}

theorem MemberState.code_lt (k : MemberState) : k.code < 4 := by cases k <;> decide

theorem memberCode_lt (members : List (Nat × MemberState)) (m : Nat) : memberCode members m < 4 := by
  unfold memberCode
  cases members[m]? with
  | none => decide
  | some y => exact y.2.code_lt

/-- The number whose six digits to the base 4 are `c 0` to `c 5`. -/
theorem six_digits {c : Nat → Nat} (hc : ∀ m, c m < 4) :
    let v := ((List.range 6).map fun m => c m * 4 ^ m).foldl (· + ·) 0
    v < 4096 ∧ ∀ m, m < 6 → v / 4 ^ m % 4 = c m := by
  have h0 := hc 0
  have h1 := hc 1
  have h2 := hc 2
  have h3 := hc 3
  have h4 := hc 4
  have h5 := hc 5
  simp only [List.range_succ, List.range_zero, List.nil_append, List.cons_append, List.map_cons, List.map_nil,
    List.foldl_cons, List.foldl_nil]
  refine ⟨by omega, fun m hm => ?_⟩
  interval_cases m <;> omega

theorem twoAt_memberCodes :
    twoAt x.detail 2 = ((List.range 6).map fun m => memberCode x.members m * 4 ^ m).foldl (· + ·) 0 := by
  have hlt := (six_digits (memberCode_lt x.members)).1
  rw [← Nat.mod_eq_of_lt (show _ < 65536 from hlt.trans (by decide))]
  simp only [CameraStatus.detail, List.cons_append, List.append_assoc, twoAt_cons_succ, List.nil_append,
    twoAt_leBytes_append]

theorem twoAt_memberCodes_lt : twoAt x.detail 2 < 4096 := by
  rw [twoAt_memberCodes]
  exact (six_digits (memberCode_lt x.members)).1

theorem memberCodes_digit (hm : m < 6) : twoAt x.detail 2 / 4 ^ m % 4 = memberCode x.members m := by
  rw [twoAt_memberCodes]
  exact (six_digits (memberCode_lt x.members)).2 m hm

theorem byteAt_memberSlot (hm : m < 6) :
    byteAt x.detail (m + 4) = ((x.members[m]?.map fun y => b8 y.1).getD 0xFF).toNat := by
  simp [CameraStatus.detail, hm]

theorem memberDetail_of_some {i : Nat} {k : MemberState} (hm : m < 6) (h : x.members[m]? = some (i, k)) :
    twoAt x.detail 2 / 4 ^ m % 4 = k.code ∧ byteAt x.detail (m + 4) = i % 256 := by
  rw [memberCodes_digit hm, byteAt_memberSlot hm, memberCode, h]
  exact ⟨rfl, toNat_b8 i⟩

theorem memberDetail_of_none (hm : m < 6) (h : x.members[m]? = none) :
    twoAt x.detail 2 / 4 ^ m % 4 = 3 ∧ byteAt x.detail (m + 4) = 0xFF := by
  rw [memberCodes_digit hm, byteAt_memberSlot hm, memberCode, h]
  exact ⟨rfl, rfl⟩

theorem byteAt_status_bits :
    byteAt x.detail 0 % 2 = bit x.enable ∧ byteAt x.detail 0 / 2 % 2 = bit x.frozen
      ∧ byteAt x.detail 0 / 4 % 2 = bit x.starved
      ∧ (x.members.length ≤ 7 → byteAt x.detail 0 / 8 = x.members.length) := by
  have henable := bit_lt_two x.enable
  have hfrozen := bit_lt_two x.frozen
  have hstarved := bit_lt_two x.starved
  have hbyte : byteAt x.detail 0 =
      (bit x.enable + 2 * bit x.frozen + 4 * bit x.starved + 8 * x.members.length) % 256 := by
    simp [CameraStatus.detail]
  omega

theorem byteAt_states : byteAt x.detail 1 = x.cadence.code + 4 * x.lens.code + 16 * x.learn.code := by
  have hcadence : x.cadence.code < 4 := by cases x.cadence <;> decide
  have hlens : x.lens.code < 4 := by cases x.lens <;> decide
  have hlearn : x.learn.code < 4 := by cases x.learn <;> decide
  have hlt : x.cadence.code + 4 * x.lens.code + 16 * x.learn.code < 256 := by omega
  simp [CameraStatus.detail, Nat.mod_eq_of_lt hlt]

theorem twoAt_counts : twoAt x.detail 10 = x.accepted.toNat ∧ twoAt x.detail 12 = x.torn.toNat
    ∧ twoAt x.detail 14 = x.starvedDrop.toNat := by
  simp [CameraStatus.detail, Nat.mod_eq_of_lt x.accepted.isLt, Nat.mod_eq_of_lt x.torn.isLt,
    Nat.mod_eq_of_lt x.starvedDrop.isLt]

theorem packBits_bit (bs : List Bool) (i : Nat) : packBits bs / 2 ^ i % 2 = bit (bs.getD i false) := by
  induction bs generalizing i with
  | nil => simp [packBits, bit]
  | cons b bs ih =>
    have hb := bit_lt_two b
    cases i with
    | zero =>
      simp only [packBits, List.getD_cons_zero]
      omega
    | succ i =>
      rw [List.getD_cons_succ, ← ih i, packBits, Nat.pow_succ', ← Nat.div_div_eq_div_mul,
        show (bit b + 2 * packBits bs) / 2 = packBits bs by omega]

/-- Bit `i` of a number, taken from the byte that holds it. -/
theorem bit_of_byte (v i : Nat) : v / 256 ^ (i / 8) % 256 / 2 ^ (i % 8) % 2 = v / 2 ^ i % 2 := by
  have hi : i % 8 < 8 := Nat.mod_lt _ (by decide)
  have hv : v / 2 ^ i = v / 256 ^ (i / 8) / 2 ^ (i % 8) := by
    rw [Nat.div_div_eq_div_mul, show 256 = 2 ^ 8 by rfl, ← Nat.pow_mul, ← Nat.pow_add, Nat.div_add_mod]
  rw [hv]
  generalize v / 256 ^ (i / 8) = w
  generalize i % 8 = k at hi
  interval_cases k <;> omega

theorem byteAt_flag (z : Zone) :
    byteAt x.detail (z.val / 8 + 16) / 2 ^ (z.val % 8) % 2 = bit (x.flags.get z) := by
  have hz : z.val / 8 < 6 := by omega
  have hbyte : byteAt x.detail (z.val / 8 + 16) = packBits x.flags.toList / 256 ^ (z.val / 8) % 256 := by
    rw [← byteAt_leBytes hz]
    simp [CameraStatus.detail, hz]
  rw [hbyte, bit_of_byte, packBits_bit]
  simp [Vector.get]

theorem byteAt_luma : byteAt x.detail 22 = x.lastMean % 256 ∧ byteAt x.detail 23 = x.lastDark % 256 := by
  simp [CameraStatus.detail]

end CameraStatus

/-! ### The detail of a spotlight list -/

theorem spotPlaceValue_fields {p : SpotPlace} (hlevel : p.level ≤ 7) (hlayout : p.layout ≤ 31)
    (hlinger : p.linger ≤ 20) (hage : p.age ≤ 31) :
    let place := spotPlaceValue (some p) % 2 ^ 24
    place % 32 = rankOf p.origin ∧ place / 32 % 2 = bit p.active ∧ place / 64 % 8 = p.level
      ∧ place / 512 % 32 = p.layout ∧ place / 16384 % 32 = p.linger ∧ place / 524288 = p.age := by
  have horigin := rankOf_lt p.origin
  have hactive := bit_lt_two p.active
  simp only [spotPlaceValue, Origin.rank_eq_rankOf]
  omega

/-! ### The statement -/

/-- Settles O53: R177's cases by the lemmas about `State.emit`; the codes of 11.2 by evaluation; and each
kind of record by its detail, read from byte 8 on. -/
theorem reportWriterTakesAReport : Obligations.ReportWriterTakesAReport := by
  refine ⟨fun s r hm hg => ⟨s.emit_touches r, s.emit_of_not_configured r, s.emit_of_full r hg, fun hc hf => ?_⟩,
    fun s => ⟨rfl, fun _ _ => rfl⟩, by decide, fun report time lost => ?_⟩
  · have hw := ReportRing.writable_iff.2 ⟨hc, hf⟩
    exact ⟨ReportRing.afterReport_of_writable hw, r.bytes_length _ _, fun j => State.emit_read_place r hm hg hw,
      fun a => State.emit_read_outside r hg hc⟩
  · intro byte two four zeros head entries held
    have head_eq : head report.kind report.subject :=
      ⟨report.byteAt_kind time lost, report.byteAt_subject time lost⟩
    have byte_eq : ∀ n, 8 ≤ n → byte n = byteAt report.detail (n - 8) := fun n => report.byteAt_bytes time lost
    have two_eq : ∀ n, 8 ≤ n → two n = twoAt report.detail (n - 8) := fun n => report.twoAt_bytes time lost
    have four_eq : ∀ n, 8 ≤ n → four n = fourAt report.detail (n - 8) := fun n => report.fourAt_bytes time lost
    have zeros_within : ∀ a b, 8 ≤ a → (∀ x ∈ (report.detail.drop (a - 8)).take (b - 8 - (a - 8)), x = 0#8) →
        zeros a b := fun a b => report.byteAt_eq_zero time lost
    have zeros_past : ∀ a b, report.detail.length + 8 ≤ a → zeros a b := fun a b ha n hn _ =>
      report.byteAt_past_detail time lost (ha.trans hn)
    have held_eq : ∀ b x, report.detail = b :: holdDetail x → held x := fun b x hd =>
      Report.bytes_of_holdDetail hd time lost
    refine ⟨report.bytes_length time lost, report.twoAt_lost time lost, report.fourAt_time time lost, ?_⟩
    clear_value held entries head zeros four two byte
    cases report with
    | commandDone code tag result reason table index =>
      refine ⟨head_eq, ?_⟩
      simp [Report.detail, byte_eq, two_eq, zeros_past, Nat.mod_eq_of_lt index.isLt]
    | cadence c old new cause interval =>
      refine ⟨head_eq, ?_⟩
      cases interval with
      | none =>
        have absent : zeros 11 16 := zeros_within _ _ (by decide) (by simp [Report.detail, leBytes, b8])
        simp [Report.detail, byte_eq, zeros_past, absent]
      | some n => simp [Report.detail, byte_eq, four_eq, zeros_past]
    | frozen c set cause signature =>
      refine ⟨head_eq, ?_⟩
      cases signature with
      | none =>
        have absent : zeros 10 14 := zeros_within _ _ (by decide) (by simp [Report.detail, leBytes, b8])
        simp [Report.detail, byte_eq, zeros_past, absent]
      | some x => simp [Report.detail, byte_eq, two_eq, zeros_past, Nat.mod_eq_of_lt x.isLt]
    | starved c begins =>
      refine ⟨head_eq, ?_⟩
      simp [Report.detail, byte_eq, zeros_past]
    | lens c old new cause zu =>
      refine ⟨head_eq, ?_⟩
      cases zu with
      | none => simp [Report.detail, byte_eq, zeros_past]
      | some zu => simp +contextual [Report.detail, byte_eq, zeros_past]
    | learnEnd c result learned candidates usable =>
      have cause_eq : byte 9 = result.causeCode := by simp [Report.detail, byte_eq]
      refine ⟨head_eq, by simp [Report.detail, byte_eq], fun d hd => hd ▸ cause_eq,
        fun h => cause_eq.trans (LearnResult.causeCode_of_not_discarded h), ?_⟩
      cases usable with
      | none => simp [Report.detail, byte_eq, two_eq, zeros_past]
      | some u => simp [Report.detail, byte_eq, two_eq, zeros_past]
    | door d old new cause =>
      refine ⟨head_eq, ?_⟩
      simp [Report.detail, byte_eq, zeros_past]
    | spotGoverning i new old =>
      -- Every clause names its own case of `new` or `old`, so the hypotheses make the split.
      refine ⟨head_eq, ?_⟩
      simp +contextual [Report.detail, byte_eq, zeros_past, originByte]
    | spotEvicted i removed removedLevel inserted insertedLevel =>
      refine ⟨head_eq, ?_⟩
      simp [Report.detail, byte_eq, zeros_past]
    | spotRefused i origin level lastLevel =>
      refine ⟨head_eq, ?_⟩
      simp [Report.detail, byte_eq, zeros_past]
    | holdTaken h x =>
      have stale_mod : 2 * bit x.staleSource % 256 = 2 * bit x.staleSource := by
        have := bit_lt_two x.staleSource
        omega
      have unused : zeros 14 16 := zeros_within _ _ (by decide) (by simp [Report.detail])
      have newest : ∀ e t, x.slots[0]? = some e → e.captured = some t →
          byte 13 = e.slot % 256 ∧ four 16 = e.frame.toNat ∧ four 20 = t.toNat := fun e t he ht => by
        simp [Report.detail, byte_eq, four_eq, he, ht, Nat.mod_eq_of_lt e.frame.isLt, Nat.mod_eq_of_lt t.isLt]
      exact ⟨head_eq, by simp [Report.detail, byte_eq], by simp [Report.detail, byte_eq],
        by simp [Report.detail, byte_eq], by simp [Report.detail, byte_eq],
        by simp [Report.detail, byte_eq, stale_mod], unused, newest, zeros_past _ _ (by simp [Report.detail])⟩
    | holdRefused c origin post reason =>
      refine ⟨head_eq, ?_⟩
      simp [Report.detail, byte_eq, zeros_past]
    | holdComplete h x => exact ⟨head_eq, by simp [Report.detail, byte_eq], held_eq _ x rfl⟩
    | holdReleased h x freed retiring =>
      refine ⟨head_eq, ?_⟩
      simp [Report.detail, byte_eq, zeros_past]
    | guard kind e =>
      have unused : zeros 9 12 := zeros_within _ _ (by decide) (by simp [Report.detail])
      refine ⟨head_eq, ?_⟩
      simp [Report.detail, byte_eq, two_eq, four_eq, zeros_past, unused, Nat.mod_eq_of_lt e.addr.isLt,
        Nat.mod_eq_of_lt e.opened.isLt]
    | cameraStatus c x =>
      have hbyte : ∀ n, byte (8 + n) = byteAt x.detail n := fun n => by
        rw [byte_eq _ (by omega), Nat.add_sub_cancel_left, Report.detail]
      have htwo : ∀ n, two (8 + n) = twoAt x.detail n := fun n => by
        rw [two_eq _ (by omega), Nat.add_sub_cancel_left, Report.detail]
      obtain ⟨henable, hfrozen, hstarved, hcount⟩ := byteAt_status_bits (x := x)
      obtain ⟨haccepted, htorn, hstarvedDrop⟩ := twoAt_counts (x := x)
      obtain ⟨hmean, hdark⟩ := byteAt_luma (x := x)
      rw [← hbyte] at henable hfrozen hstarved hcount hmean hdark
      rw [← htwo] at haccepted htorn hstarvedDrop
      refine ⟨head_eq, henable, hfrozen, hstarved, hcount, (hbyte 1).trans byteAt_states, fun m hm => ?_,
        (htwo 2).trans_lt twoAt_memberCodes_lt, haccepted, htorn, hstarvedDrop, fun z => ?_, hmean, hdark⟩
      · rw [show 12 + m = 8 + (m + 4) by omega, hbyte, show two 10 = _ from htwo 2]
        exact ⟨fun i k => memberDetail_of_some hm, memberDetail_of_none hm⟩
      · rw [show 24 + z.val / 8 = 8 + (z.val / 8 + 16) by omega, hbyte]
        exact byteAt_flag z
    | spotList i places =>
      refine ⟨head_eq, fun n hn => ?_⟩
      have hplace : two (8 + 3 * n) + 65536 * byte (10 + 3 * n) = spotPlaceValue places[n]? % 2 ^ 24 := by
        rw [two_eq _ (by omega), byte_eq _ (by omega), ← threeAt_fields (fun e => spotPlaceValue places[e]?) hn,
          show 8 + 3 * n - 8 = 3 * n by omega, show 10 + 3 * n - 8 = 3 * n + 2 by omega, Report.detail]
      simp only [hplace]
      refine ⟨fun h => by rw [h]; rfl, fun p h => ?_⟩
      rw [h]
      exact spotPlaceValue_fields
    | holdList h x =>
      have complete_lt := bit_lt_two (decide (x.state = .complete))
      have hbyte : byte 8 = (bit (decide (x.state = .complete)) + 2 * x.post) % 256 := by
        simp [Report.detail, byte_eq]
      exact ⟨head_eq, by omega, by omega, held_eq _ x rfl⟩

end Sys2Proof.Machine
end

section

/-! The Access Guard's episodes under a drop (R195): `State.setEpisode` at the same and at another guard kind,
`episodeAfterDrop` in its two cases, and O12 assembled from them. -/

namespace Sys2Proof.Machine

/-! ### One kind's episode -/

/-- The places follow the order in which the model lists the guard kinds. -/
theorem guardKinds_getElem?_guardIndex (k : GuardKind) : guardKinds[(guardIndex k).val]? = some k := by
  cases k <;> rfl

theorem guardIndex_injective : Function.Injective guardIndex := fun k k' h =>
  Option.some.inj <| by
    rw [← guardKinds_getElem?_guardIndex k, h, guardKinds_getElem?_guardIndex k']

@[simp] theorem State.episode_setEpisode_self (s : State) (k : GuardKind) (e : Option Episode) :
    (s.setEpisode (guardIndex k) e).episode k = e :=
  upd_get_self ..

theorem State.episode_setEpisode_of_ne (s : State) {k k' : GuardKind} (e : Option Episode) (h : k' ≠ k) :
    (s.setEpisode (guardIndex k) e).episode k' = s.episode k' :=
  upd_get_of_ne _ e (guardIndex_injective.ne h)

/-! ### One drop -/

theorem episodeAfterDrop_none (tag : Tag) (addr : BitVec 32) (t : Time) :
    episodeAfterDrop none tag addr t = ⟨tag, addr, t, t, 1⟩ := rfl

/-- The saturating count by cases; it needs no bound on the count before the drop, since a count past
65,535 would be put back to it. -/
theorem episodeAfterDrop_some (e : Episode) (tag : Tag) (addr : BitVec 32) (t : Time) :
    episodeAfterDrop (some e) tag addr t
      = ⟨e.tag, e.addr, e.opened, t, if e.count < 65535 then e.count + 1 else 65535⟩ := by
  have count_eq : min (e.count + 1) Config.sixteenMax = if e.count < 65535 then e.count + 1 else 65535 := by
    unfold Config.sixteenMax
    split <;> omega
  rw [episodeAfterDrop, count_eq]

theorem State.guardDrop_episode_self (s : State) (k : GuardKind) (tag : Tag) (addr : BitVec 32) :
    (s.guardDrop k tag addr).episode k = some (episodeAfterDrop (s.episode k) tag addr s.time) :=
  s.episode_setEpisode_self k _

theorem State.guardDrop_episode_of_ne (s : State) {k k' : GuardKind} (tag : Tag) (addr : BitVec 32) (h : k' ≠ k) :
    (s.guardDrop k tag addr).episode k' = s.episode k' :=
  s.episode_setEpisode_of_ne _ h

/-- Settles O12: the kind's own episode is `episodeAfterDrop` of what stood there, taken at a closed and at
an open episode; another kind has another place. -/
theorem guardDropCountsInItsEpisode : Obligations.GuardDropCountsInItsEpisode := by
  refine fun s k tag addr => ⟨fun hclosed => ?_, fun e hopen => ?_, fun k' hne => ?_⟩
  · rw [State.guardDrop_episode_self, hclosed, episodeAfterDrop_none]
  · rw [State.guardDrop_episode_self, hopen, episodeAfterDrop_some]
  · exact s.guardDrop_episode_of_ne tag addr hne

end Sys2Proof.Machine
end

section

/-! What a change within some pieces leaves alone: a piece read through `Touches` and `Effect`, and the
pieces that reports never change, tagged for `simp`. The side conditions that `decide` fills in are worked out one
after another here and in the sections below (`Elab.async false`): each would otherwise hold a thread of its own. -/

namespace Sys2Proof.Machine

set_option Elab.async false

/-- A piece that an effect does not name stands as it was. -/
theorem Effect.same {ps : List Piece} {s t : State} (h : Effect ps s t) (p : Piece)
    (hp : p ∉ Piece.mem :: .ring :: ps := by decide) : p.same s t := h.touches p hp

/-- A piece that is not among those touched stands as it was. -/
theorem Touches.same {ps : List Piece} {s t : State} (h : Touches ps s t) (p : Piece)
    (hp : p ∉ ps := by decide) : p.same s t := h p hp

/-! ### One report -/

@[simp] theorem State.emit_condition (s : State) (r : Report) : (s.emit r).condition = s.condition := rfl
@[simp] theorem State.emit_straps (s : State) (r : Report) : (s.emit r).straps = s.straps := rfl
@[simp] theorem State.emit_lines (s : State) (r : Report) : (s.emit r).lines = s.lines := rfl
@[simp] theorem State.emit_port (s : State) (r : Report) : (s.emit r).port = s.port := rfl
@[simp] theorem State.emit_time (s : State) (r : Report) : (s.emit r).time = s.time := rfl
@[simp] theorem State.emit_setup (s : State) (r : Report) : (s.emit r).setup = s.setup := rfl
@[simp] theorem State.emit_cameras (s : State) (r : Report) : (s.emit r).cameras = s.cameras := rfl
@[simp] theorem State.emit_doors (s : State) (r : Report) : (s.emit r).doors = s.doors := rfl
@[simp] theorem State.emit_screens (s : State) (r : Report) : (s.emit r).screens = s.screens := rfl
@[simp] theorem State.emit_layouts (s : State) (r : Report) : (s.emit r).layouts = s.layouts := rfl
@[simp] theorem State.emit_panes (s : State) (r : Report) : (s.emit r).panes = s.panes := rfl
@[simp] theorem State.emit_pool (s : State) (r : Report) : (s.emit r).pool = s.pool := rfl
@[simp] theorem State.emit_rings (s : State) (r : Report) : (s.emit r).rings = s.rings := rfl
@[simp] theorem State.emit_cadence (s : State) (r : Report) : (s.emit r).cadence = s.cadence := rfl
@[simp] theorem State.emit_lens (s : State) (r : Report) : (s.emit r).lens = s.lens := rfl
@[simp] theorem State.emit_contexts (s : State) (r : Report) : (s.emit r).contexts = s.contexts := rfl
@[simp] theorem State.emit_doorUnit (s : State) (r : Report) : (s.emit r).doorUnit = s.doorUnit := rfl
@[simp] theorem State.emit_spots (s : State) (r : Report) : (s.emit r).spots = s.spots := rfl
@[simp] theorem State.emit_holds (s : State) (r : Report) : (s.emit r).holds = s.holds := rfl
@[simp] theorem State.emit_engine (s : State) (r : Report) : (s.emit r).engine = s.engine := rfl
@[simp] theorem State.emit_episodes (s : State) (r : Report) : (s.emit r).episodes = s.episodes := rfl
@[simp] theorem State.emit_pending (s : State) (r : Report) : (s.emit r).pending = s.pending := rfl

/-! ### Several reports -/

@[simp] theorem State.emitAll_condition (s : State) (rs : List Report) : (s.emitAll rs).condition = s.condition :=
  (s.emitAll_touches rs).same .condition
@[simp] theorem State.emitAll_straps (s : State) (rs : List Report) : (s.emitAll rs).straps = s.straps :=
  (s.emitAll_touches rs).same .straps
@[simp] theorem State.emitAll_lines (s : State) (rs : List Report) : (s.emitAll rs).lines = s.lines :=
  (s.emitAll_touches rs).same .lines
@[simp] theorem State.emitAll_port (s : State) (rs : List Report) : (s.emitAll rs).port = s.port :=
  (s.emitAll_touches rs).same .port
@[simp] theorem State.emitAll_time (s : State) (rs : List Report) : (s.emitAll rs).time = s.time :=
  (s.emitAll_touches rs).same .time
@[simp] theorem State.emitAll_setup (s : State) (rs : List Report) : (s.emitAll rs).setup = s.setup :=
  (s.emitAll_touches rs).same .setup
@[simp] theorem State.emitAll_cameras (s : State) (rs : List Report) : (s.emitAll rs).cameras = s.cameras :=
  (s.emitAll_touches rs).same .cameras
@[simp] theorem State.emitAll_doors (s : State) (rs : List Report) : (s.emitAll rs).doors = s.doors :=
  (s.emitAll_touches rs).same .doors
@[simp] theorem State.emitAll_screens (s : State) (rs : List Report) : (s.emitAll rs).screens = s.screens :=
  (s.emitAll_touches rs).same .screens
@[simp] theorem State.emitAll_layouts (s : State) (rs : List Report) : (s.emitAll rs).layouts = s.layouts :=
  (s.emitAll_touches rs).same .layouts
@[simp] theorem State.emitAll_panes (s : State) (rs : List Report) : (s.emitAll rs).panes = s.panes :=
  (s.emitAll_touches rs).same .panes
@[simp] theorem State.emitAll_pool (s : State) (rs : List Report) : (s.emitAll rs).pool = s.pool :=
  (s.emitAll_touches rs).same .pool
@[simp] theorem State.emitAll_rings (s : State) (rs : List Report) : (s.emitAll rs).rings = s.rings :=
  (s.emitAll_touches rs).same .rings
@[simp] theorem State.emitAll_cadence (s : State) (rs : List Report) : (s.emitAll rs).cadence = s.cadence :=
  (s.emitAll_touches rs).same .cadence
@[simp] theorem State.emitAll_lens (s : State) (rs : List Report) : (s.emitAll rs).lens = s.lens :=
  (s.emitAll_touches rs).same .lens
@[simp] theorem State.emitAll_contexts (s : State) (rs : List Report) : (s.emitAll rs).contexts = s.contexts :=
  (s.emitAll_touches rs).same .contexts
@[simp] theorem State.emitAll_doorUnit (s : State) (rs : List Report) : (s.emitAll rs).doorUnit = s.doorUnit :=
  (s.emitAll_touches rs).same .doorUnit
@[simp] theorem State.emitAll_spots (s : State) (rs : List Report) : (s.emitAll rs).spots = s.spots :=
  (s.emitAll_touches rs).same .spots
@[simp] theorem State.emitAll_holds (s : State) (rs : List Report) : (s.emitAll rs).holds = s.holds :=
  (s.emitAll_touches rs).same .holds
@[simp] theorem State.emitAll_engine (s : State) (rs : List Report) : (s.emitAll rs).engine = s.engine :=
  (s.emitAll_touches rs).same .engine
@[simp] theorem State.emitAll_episodes (s : State) (rs : List Report) : (s.emitAll rs).episodes = s.episodes :=
  (s.emitAll_touches rs).same .episodes
@[simp] theorem State.emitAll_pending (s : State) (rs : List Report) : (s.emitAll rs).pending = s.pending :=
  (s.emitAll_touches rs).same .pending

end Sys2Proof.Machine
end

section

/-! What the engine does with a command that is offered to it, and what the landing phase does with a beat,
said once as the outcomes that they can have. Invariants go through `State.offer_cases` and
`State.landingPhase_cases`. -/

namespace Sys2Proof.Machine

set_option Elab.async false

/-! ### A command that is offered -/

/-- A COMMIT taken with all its words staged and every record valid: the load is applied, and the command ends
or waits for the affected screens (R166, R167). -/
inductive Applied (s : State) : State → Prop where
  | ended (table : s.engine.load.table = .setup ∨ s.engine.load.table = .cameras ∨ s.engine.load.table = .doors) :
      Applied s ((s.applyLoad.enter .idle).finishLoad 0x02 .done .none)
  | awaited (table : s.engine.load.table = .screens ∨ s.engine.load.table = .layouts ∨ s.engine.load.table = .panes) :
      Applied s (State.awaitScreens s s.applyLoad)

/-- The outcomes of a command that is offered (R154 and the table of 8.3). -/
inductive Offered (s : State) (c : Command) (tag : Byte) : State → Prop where
  | ignored : Offered s c tag s
  | restart (command : c = .restart) : Offered s c tag (s.warmRestart tag)
  | idle (state : s.engine.state = .idle) (command : c ≠ .restart) : Offered s c tag ((s.takeTag tag).idleCommand c)
  | cleared (state : s.engine.state = .aborted) (command : c = .abortClear) :
      Offered s c tag (((s.takeTag tag).enter .idle).finishPlain 0x03 .done .none)
  | aborted (state : s.engine.state = .staging) (code : Byte) (reason : Reason) :
      Offered s c tag ((s.takeTag tag).abortLoad code reason)
  | invalid (state : s.engine.state = .staging) (command : c = .commit) (f : Failure)
      (failed : (s.takeTag tag).validate = some f) :
      Offered s c tag (((s.takeTag tag).discardStaging.enter .idle).finish 0x02 .invalid f.reason
        (b8 f.table.code) (BitVec.ofNat 16 f.index))
  | applied (state : s.engine.state = .staging) (command : c = .commit)
      (complete : s.engine.load.count * 8 ≤ s.engine.staged) (passed : (s.takeTag tag).validate = none)
      {t : State} (outcome : Applied (s.takeTag tag) t) : Offered s c tag t

theorem State.commitLoad_of_some {s : State} {f : Failure} (h : s.validate = some f) :
    s.commitLoad = (s.discardStaging.enter .idle).finish 0x02 .invalid f.reason (b8 f.table.code)
      (BitVec.ofNat 16 f.index) := by
  unfold State.commitLoad
  rw [h]

theorem State.commitLoad_of_none {s : State} (h : s.validate = none) : Applied s s.commitLoad := by
  unfold State.commitLoad
  rw [h]
  cases ht : s.engine.load.table with
  | setup => exact .ended (.inl ht)
  | cameras => exact .ended (.inr (.inl ht))
  | doors => exact .ended (.inr (.inr ht))
  | screens => exact .awaited (.inl ht)
  | layouts => exact .awaited (.inr (.inl ht))
  | panes => exact .awaited (.inr (.inr ht))

theorem State.offer_cases (s : State) (c : Command) (tag : Byte) : Offered s c tag (s.offer c tag) := by
  unfold State.offer
  split
  · exact .restart ‹_›
  · cases hs : s.engine.state with
    | idle => exact .idle hs ‹_›
    | applying => exact .ignored
    | aborted =>
      dsimp only
      split
      · exact .cleared hs ‹_›
      · exact .ignored
    | staging =>
      dsimp only
      split
      · unfold State.stagingCommit
        split
        · exact .aborted hs _ _
        · rename_i hc hn
          cases hv : (s.takeTag tag).validate with
          | some f => rw [State.commitLoad_of_some hv]; exact .invalid hs hc f hv
          | none => exact .applied hs hc (Nat.not_lt.mp hn) hv (State.commitLoad_of_none hv)
      · exact .aborted hs _ _

/-- What a command does in IDLE, as an effect. -/
theorem State.idleCommand_effect (s : State) (c : Command) :
    Effect [.engine, .lens, .spots, .pool, .rings, .holds] s (s.idleCommand c) := by
  cases c with
  | load t f n => exact (s.idleLoad_effect t f n).mono (by decide)
  | commit => exact (s.finishPlain_effect _ _ _).mono (by decide)
  | abortClear => exact (s.finishPlain_effect _ _ _).mono (by decide)
  | learn m => exact (s.idleLearn_effect m).mono (by decide)
  | learnSuspend m => exact (s.idleLearnSuspend_effect m).mono (by decide)
  | learnResume m => exact (s.idleLearnResume_effect m).mono (by decide)
  | spotSet i l v => exact (s.idleSpotSet_effect i l v).mono (by decide)
  | spotClear i => exact (s.idleSpotClear_effect i).mono (by decide)
  | holdTake c n => exact (s.idleHoldTake_effect c n).mono (by decide)
  | holdRelease h => exact (s.idleHoldRelease_effect h).mono (by decide)
  | holdLock => exact s.idleHoldLock_effect.mono (by decide)
  | snapshot => exact s.idleSnapshot_effect.mono (by decide)
  | restart => exact .refl _ s
  | undefinedCode x => exact (s.finishPlain_effect _ _ _).mono (by decide)

/-- The pieces that a command can change, unless it is a COMMIT that applies its load. -/
def offerPieces : List Piece :=
  [.pool, .rings, .cadence, .lens, .contexts, .doorUnit, .spots, .holds, .episodes, .engine]

/-- A command that applies no load is an effect. -/
theorem Offered.effect_or_applied {s t : State} {c : Command} {tag : Byte} (h : Offered s c tag t) :
    Effect offerPieces s t ∨ (s.engine.state = .staging ∧ (s.takeTag tag).validate = none
      ∧ Applied (s.takeTag tag) t) := by
  cases h with
  | ignored => exact .inl (.refl _ s)
  | restart => exact .inl ((s.warmRestart_effect tag).mono (by decide))
  | idle => exact .inl (((s.takeTag_effect tag).trans (State.idleCommand_effect _ c)).mono (by decide))
  | cleared =>
    exact .inl ((((s.takeTag_effect tag).trans (State.enter_effect _ _)).trans
      (State.finishPlain_effect _ _ _ _)).mono (by decide))
  | aborted => exact .inl (((s.takeTag_effect tag).trans (State.abortLoad_effect _ _ _)).mono (by decide))
  | invalid =>
    exact .inl (((((s.takeTag_effect tag).trans (State.discardStaging_effect _)).trans (State.enter_effect _ _)).trans
      (State.finish_effect _ _ _ _ _ _)).mono (by decide))
  | applied state _ _ passed outcome => exact .inr ⟨state, passed, outcome⟩

/-- What follows the application of a load changes the engine alone. -/
theorem Applied.effect {s t : State} (h : Applied s t) : Effect [.engine] s.applyLoad t := by
  cases h with
  | ended => exact ((State.enter_effect _ _).trans (State.finishLoad_effect _ _ _ _)).mono (by decide)
  | awaited => exact State.awaitScreens_effect _ _

/-! ### A landing beat -/

/-- What follows a beat of a frame: nothing before the last word, then the frame is accepted or torn (R13). -/
inductive FrameEnded (s : State) (c : Camera) (word : Nat) : State → Prop where
  | goesOn (last : word + 1 ≠ s.cameras[c].frameWords) : FrameEnded s c word s
  | accepted (last : word + 1 = s.cameras[c].frameWords) (i : Nat) (filling : s.rings[c].filling = some i)
      (whole : s.rings[c].writes = s.cameras[c].frameWords) (mark : s.rings[c].tornMark = false) :
      FrameEnded s c word (s.accept c i)
  | torn (last : word + 1 = s.cameras[c].frameWords)
      (broken : s.rings[c].filling = none
        ∨ s.rings[c].writes ≠ s.cameras[c].frameWords ∨ s.rings[c].tornMark = true) :
      FrameEnded s c word ((s.countTorn c).landingIdle c)

theorem State.afterBeat_cases (s : State) (c : Camera) (word : Nat) : FrameEnded s c word (s.afterBeat c word) := by
  unfold State.afterBeat
  split
  · unfold State.frameEnd
    rename_i last
    dsimp only
    split
    · rename_i i hf
      split
      · rename_i h; exact .accepted last i hf h.1 h.2
      · rename_i h
        exact .torn last (.inr ((Decidable.not_and_iff_or_not.mp h).imp_right Bool.of_not_eq_false))
    · rename_i hf
      exact .torn last (.inl hf)
  · exact .goesOn ‹_›

/-- The outcomes of a beat that has passed the checks of R9 (R10, R11). -/
inductive Landed (s : State) (c : Camera) (word : Nat) (w : WriteData) : State → Prop where
  | dropped : Landed s c word w s
  | starved (filling : s.rings[c].filling = none) : Landed s c word w (s.starvedWord0 c)
  | begun (first : word = 0) (full : isFull w = true) (i : Nat) (filling : s.rings[c].filling = some i)
      (between : s.rings[c].phase ≠ .inFrame) {t : State} (outcome : FrameEnded (s.beginFrame c i w) c 0 t) :
      Landed s c word w t
  | begunAnew (first : word = 0) (full : isFull w = true) (i : Nat) (filling : s.rings[c].filling = some i)
      (within : s.rings[c].phase = .inFrame) {t : State}
      (outcome : FrameEnded ((s.countTorn c).beginFrame c i w) c 0 t) : Landed s c word w t
  | stored (full : isFull w = true) (i : Nat) (filling : s.rings[c].filling = some i)
      (within : s.rings[c].phase = .inFrame) (later : word ≠ 0) {t : State}
      (outcome : FrameEnded
        ((s.setRing c { s.rings[c] with writes := countWrite s.cameras[c] s.rings[c].writes }).landWord c i word w)
        c word t) : Landed s c word w t
  | marked (part : isFull w = false) (within : s.rings[c].phase = .inFrame) {t : State}
      (outcome : FrameEnded
        (s.setRing c { s.rings[c] with writes := countWrite s.cameras[c] s.rings[c].writes, tornMark := true })
        c word t) : Landed s c word w t

theorem State.landingPhase_cases (s : State) (c : Camera) (word : Nat) (w : WriteData) :
    Landed s c word w (s.landingPhase c word w) := by
  unfold State.landingPhase
  split
  · rename_i h0
    unfold State.word0
    cases hf : s.rings[c].filling with
    | some i =>
      cases hp : s.rings[c].phase with
      | waiting => exact .begun h0.1 h0.2 i hf (by rw [hp]; decide) (State.afterBeat_cases _ c 0)
      | dropping => exact .begun h0.1 h0.2 i hf (by rw [hp]; decide) (State.afterBeat_cases _ c 0)
      | inFrame => exact .begunAnew h0.1 h0.2 i hf hp (State.afterBeat_cases _ c 0)
    | none =>
      cases hp : s.rings[c].phase with
      | waiting => exact .starved hf
      | dropping => exact .starved hf
      | inFrame => exact .dropped
  · rename_i h0
    cases hp : s.rings[c].phase with
    | waiting => exact .dropped
    | dropping => exact .dropped
    | inFrame =>
      dsimp only
      unfold State.frameBeat
      dsimp only
      split
      · rename_i hw
        split
        · rename_i i hf
          exact .stored hw i hf hp (fun h => h0 ⟨h, hw⟩) (State.afterBeat_cases _ c word)
        · exact .dropped
      · rename_i hw
        exact .marked (Bool.eq_false_of_not_eq_true hw) hp (State.afterBeat_cases _ c word)

end Sys2Proof.Machine
end

section

/-! What validation says of each staged record when it finds no failure (R161 to R164). -/

namespace Sys2Proof.Machine

set_option Elab.async false

theorem firstFailure_eq_none_iff {cs : List Check} : firstFailure cs = none ↔ ∀ c ∈ cs, c.holds = true := by
  simp [firstFailure]

theorem firstBad_eq_none_iff {α : Type} {table : TableId} {checks : α → List Check} {index : α → Nat} {l : List α} :
    firstBad table checks index l = none ↔ ∀ x ∈ l, ∀ c ∈ checks x, c.holds = true := by
  simp [firstBad, List.findSome?_eq_none_iff, firstFailure_eq_none_iff]

/-- The slot check reads the cameras, the pool and the hold reserve alone. -/
theorem State.slotCheck_congr {s t : State} (hc : t.cameras = s.cameras) (hp : t.pool = s.pool)
    (hs : t.setup = s.setup) (l : List (Camera × CameraRec)) (free : Nat) :
    t.slotCheck free l = s.slotCheck free l := by
  induction l generalizing free with
  | nil => rfl
  | cons x l ih =>
    obtain ⟨c, r⟩ := x
    simp only [State.slotCheck, State.freedByDisable, hc, hp, hs, ih]

@[simp] theorem State.validate_takeTag (s : State) (tag : Byte) : (s.takeTag tag).validate = s.validate := by
  have slots : (s.takeTag tag).slotCheck = s.slotCheck := by
    funext free l
    exact State.slotCheck_congr (s := s) (t := s.takeTag tag) rfl rfl rfl l free
  unfold State.validate State.validateCameras
  rw [slots]
  rfl

theorem State.setupChecks_hold_iff {s : State} {r : SetupRec} :
    (∀ c ∈ s.setupChecks r, c.holds = true) ↔
      r.inRange = true ∧ r.ordered = true ∧ r.hasControl = true ∧ r.ringFits s.pageBase = true
        ∧ r.areaFits s.pageBase = true
        ∧ (!(r.newGeometry s.setup)
            || ((List.finRange 16).all (fun c : Fin 16 => !s.cameras[c].enable) && decide (s.holdCount = 0)
                && s.pool.slots.all fun x => decide (x.disp ≠ .retiring))) = true := by
  simp only [State.setupChecks, List.forall_mem_cons, List.not_mem_nil, false_implies, implies_true, and_true]

/-- Every staged SETUP record passes its checks. -/
theorem State.setupChecks_of_validate {s : State} (h : s.validate = none) (ht : s.engine.load.table = .setup) :
    ∀ x ∈ s.engine.records, ∀ c ∈ s.setupChecks (setupOf x.2), c.holds = true := by
  unfold State.validate at h
  dsimp only at h
  rw [ht] at h
  exact firstBad_eq_none_iff.mp h

/-- Every staged CAMERA record passes the checks of one record, and the slots suffice for all of them. -/
theorem State.cameraChecks_of_validate {s : State} (h : s.validate = none) (ht : s.engine.load.table = .cameras) :
    (∀ x ∈ s.engine.cameraRecords, ∀ c ∈ cameraChecks s.pool.slotBytes x.1.val s.cameras[x.1] x.2, c.holds = true)
      ∧ s.slotCheck s.freeCount s.engine.cameraRecords = none := by
  unfold State.validate at h
  dsimp only at h
  rw [ht] at h
  unfold State.validateCameras at h
  dsimp only at h
  split at h
  · cases h
  · rename_i hb
    exact ⟨firstBad_eq_none_iff.mp hb, Option.map_eq_none_iff.mp h⟩

end Sys2Proof.Machine
end

section

/-! Frame memory stays canonical, the report ring and the engine stay in range (O54): what each operation
does to them beside its reports, and the three invariants through `step_keeps`. -/

namespace Sys2Proof.Machine

set_option Elab.async false

/-! ### Applying a SETUP record -/

theorem State.applySetup_mem_wf {s : State} (r : SetupRec) (h : s.mem.wf = true) : (s.applySetup r).mem.wf = true :=
  (State.setupDoors_effect _ s.setup r).mem_wf (s := { s with
    setup := r, pool := s.pool.regeometry r.slotBase r.slotUnits r.slotCount }) h

/-- A ring whose place fits (R162) is in range after its configuration. -/
theorem ReportRing.inRange_reconfigure {g : ReportRing} {r : SetupRec} {page : Nat} (h : g.inRange)
    (fits : r.ringFits page = true) : (g.reconfigure r.ringBase r.ringCapacity).inRange := by
  simp only [SetupRec.ringFits, SetupRec.ringLen, within, Bool.and_eq_true, decide_eq_true_eq] at fits
  obtain ⟨⟨⟨-, hlo, hhi⟩, hend⟩, -⟩ := fits
  unfold ReportRing.reconfigure
  split
  · exact h
  · simp only [ReportRing.inRange, if_true]
    exact ⟨hlo, hhi, by omega, by omega, Nat.zero_le _, of_decide_eq_true hend⟩

theorem State.applySetup_ring_inRange {s : State} {r : SetupRec} {page : Nat} (h : s.ring.inRange)
    (fits : r.ringFits page = true) : (s.applySetup r).ring.inRange :=
  ReportRing.inRange_reconfigure ((State.setupDoors_effect _ s.setup r).ring_inRange (s := { s with
    setup := r, pool := s.pool.regeometry r.slotBase r.slotUnits r.slotCount }) h) fits

/-! ### Applying a load -/

/-- A load of another table than SETUP is an effect. -/
theorem State.applyLoad_effect {s : State} (h : s.engine.load.table ≠ .setup) :
    Effect [.cameras, .screens, .layouts, .panes, .doors, .pool, .rings, .cadence, .lens, .contexts, .doorUnit, .spots,
      .holds] s s.applyLoad := by
  unfold State.applyLoad
  dsimp only
  split
  · exact absurd ‹_› h
  · exact .foldl (fun s x => (s.applyCamera_effect _ _).mono (by decide)) _ s
  · exact .foldl (fun s x => (s.applyScreen_effect _ _).mono (by decide)) _ s
  · exact .quiet (by intro p hp; cases p <;> first | rfl | exact absurd hp (by decide)) rfl rfl rfl
  · exact .quiet (by intro p hp; cases p <;> first | rfl | exact absurd hp (by decide)) rfl rfl rfl
  · exact .foldl (fun s x => (s.applyDoor_effect _ _).mono (by decide)) _ s

theorem State.applyLoad_of_setup {s : State} (h : s.engine.load.table = .setup) :
    s.applyLoad = s.engine.records.foldl (fun s x => s.applySetup (setupOf x.2)) s := by
  unfold State.applyLoad
  dsimp only
  rw [h]

theorem State.applyLoad_mem_wf {s : State} (h : s.mem.wf = true) : s.applyLoad.mem.wf = true := by
  by_cases ht : s.engine.load.table = .setup
  · rw [State.applyLoad_of_setup ht]
    exact List.foldlRecOn (motive := fun u : State => u.mem.wf = true) _ _ h
      fun s hs x _ => State.applySetup_mem_wf _ hs
  · exact (State.applyLoad_effect ht).mem_wf h

theorem State.applyLoad_ring_inRange {s : State} (h : s.ring.inRange) (hv : s.validate = none) :
    s.applyLoad.ring.inRange := by
  by_cases ht : s.engine.load.table = .setup
  · rw [State.applyLoad_of_setup ht]
    refine List.foldlRecOn (motive := fun u : State => u.ring.inRange) _ _ h fun u hu x hx => ?_
    refine State.applySetup_ring_inRange (page := s.pageBase) hu ?_
    obtain ⟨-, -, -, fits, -⟩ := State.setupChecks_hold_iff.mp (State.setupChecks_of_validate hv ht x hx)
    exact fits
  · exact (State.applyLoad_effect ht).ring_inRange h

/-- Applying a load does not touch the engine. -/
theorem State.applyLoad_engine (s : State) : s.applyLoad.engine = s.engine :=
  s.applyLoad_touches.same .engine (by cases s.engine.load.table <;> decide)

/-! ### Landing -/

/-- Ending a frame touches memory by its reports alone. -/
theorem FrameEnded.effect {s t : State} {c : Camera} {n : Nat} (h : FrameEnded s c n t) : Effect acceptPieces s t := by
  cases h with
  | goesOn => exact .refl _ s
  | accepted _ i => exact s.accept_effect c i
  | torn =>
    exact Effect.mono ((((s.setRing_effect c _).trans (State.setLens_effect _ c _)).trans
      (State.setCadence_effect _ c _)).trans (State.setRing_effect _ c _)) (by decide)

@[simp] theorem State.landWord_mem (s : State) (c : Camera) (i n : Nat) (w : WriteData) :
    (s.landWord c i n w).mem = s.mem.writeWord (s.pool.slotAddr i + 8 * n) w := rfl

@[simp] theorem State.beginFrame_mem (s : State) (c : Camera) (i : Nat) (w : WriteData) :
    (s.beginFrame c i w).mem = s.mem.writeWord (s.pool.slotAddr i + 8 * 0) w := by
  simp [State.beginFrame, State.lensBegin, State.signatureBegin]

@[simp] theorem State.countTorn_mem (s : State) (c : Camera) : (s.countTorn c).mem = s.mem := by
  simp [State.countTorn, State.lensDrop, State.signatureDrop]

@[simp] theorem State.landWord_ring (s : State) (c : Camera) (i n : Nat) (w : WriteData) :
    (s.landWord c i n w).ring = s.ring := (s.landWord_touches c i n w).same .ring

@[simp] theorem State.beginFrame_ring (s : State) (c : Camera) (i : Nat) (w : WriteData) :
    (s.beginFrame c i w).ring = s.ring := (s.beginFrame_touches c i w).same .ring

@[simp] theorem State.countTorn_ring (s : State) (c : Camera) : (s.countTorn c).ring = s.ring :=
  (s.countTorn_touches c).same .ring

theorem Landed.mem_wf {s t : State} {c : Camera} {n : Nat} {w : WriteData} (l : Landed s c n w t)
    (h : s.mem.wf = true) : t.mem.wf = true := by
  cases l with
  | dropped => exact h
  | starved => exact h
  | begun _ _ i _ _ outcome => exact outcome.effect.mem_wf (by rw [State.beginFrame_mem]; exact Memory.wf_writeWord h)
  | begunAnew _ _ i _ _ outcome => exact outcome.effect.mem_wf (by
      rw [State.beginFrame_mem, State.countTorn_mem]; exact Memory.wf_writeWord h)
  | stored _ i _ _ _ outcome => exact outcome.effect.mem_wf (Memory.wf_writeWord h)
  | marked _ _ outcome => exact outcome.effect.mem_wf (by rw [State.setRing_mem]; exact h)

theorem Landed.ring_inRange {s t : State} {c : Camera} {n : Nat} {w : WriteData} (l : Landed s c n w t)
    (h : s.ring.inRange) : t.ring.inRange := by
  cases l with
  | dropped => exact h
  | starved => exact h
  | begun _ _ i _ _ outcome => exact outcome.effect.ring_inRange (by rwa [State.beginFrame_ring])
  | begunAnew _ _ i _ _ outcome =>
    exact outcome.effect.ring_inRange (by rwa [State.beginFrame_ring, State.countTorn_ring])
  | stored _ i _ _ _ outcome => exact outcome.effect.ring_inRange (by rwa [State.landWord_ring, State.setRing_ring])
  | marked _ _ outcome => exact outcome.effect.ring_inRange (by rw [State.setRing_ring]; exact h)

/-! ### Frame memory and the report ring under an operation -/

theorem State.frameStart_effect (s : State) (i : Screen) :
    Effect [.pool, .rings, .contexts, .engine] s ((s.latch i).frameStartNotice i) :=
  ((s.latch_effect i).trans (State.frameStartNotice_effect _ i)).mono (by decide)

theorem State.afterStatusRead_effect (s : State) (n : Fin 4) : Effect [.engine] s (s.afterStatusRead n) :=
  .ite (fun _ => s.setEngine_effect _) fun _ => .refl _ s

/-- An operation is an effect, or it writes frame memory, configures the ring, or takes a sample. -/
theorem Operation.mem_wf {s t : State} (o : Operation s t) (h : s.mem.wf = true) : t.mem.wf = true := by
  have stored : ∀ a w, (s.mem.writeWord a w).wf = true := fun a w => Memory.wf_writeWord h
  cases o with
  | nothing => exact h
  | drop k tag a => exact h
  | store a w => exact stored a w
  | page n w => exact stored _ w
  | consume w => exact stored _ w
  | stage i w => exact (State.stageBeat_effect _ i w).mem_wf (stored _ w)
  | land c n w => exact (s.landingPhase_cases c n w).mem_wf h
  | frameStart i => exact (s.frameStart_effect i).mem_wf h
  | status n => exact (s.afterStatusRead_effect n).mem_wf h
  | stale c => exact (s.staleTimeout_effect c).mem_wf h
  | sample l => exact (State.sampleInstant_effect _).mem_wf (s := { s with lines := l }) h
  | linger i => exact (s.lingerExpiry_effect i).mem_wf h
  | close k => exact (s.guardClose_effect k).mem_wf h
  | overtime => exact s.applyingOvertime_effect.mem_wf h
  | command d c tag =>
    have hw : (s.pageWrite 8 ⟨0xFF, d⟩).mem.wf = true := stored _ _
    rcases (State.offer_cases _ c tag).effect_or_applied with e | ⟨-, -, a⟩
    · exact e.mem_wf hw
    · exact a.effect.mem_wf (State.applyLoad_mem_wf hw)

/-- A consumer index below the capacity keeps the ranges; an unconfigured ring has none. -/
theorem ReportRing.inRange_consume {g : ReportRing} (w : WriteData) (h : g.inRange) : (g.consume w).inRange := by
  unfold ReportRing.consume
  dsimp only
  split
  · rename_i hw
    unfold ReportRing.inRange at h ⊢
    split at h
    · rename_i hc
      simp only [hc, if_true]
      exact ⟨h.1, h.2.1, h.2.2.1, hw.2.2, h.2.2.2.2⟩
    · rw [h] at hw
      exact absurd hw.2.2 (Nat.not_lt_zero _)
  · exact h

theorem Operation.ring_inRange {s t : State} (o : Operation s t) (h : s.ring.inRange) : t.ring.inRange := by
  cases o with
  | nothing => exact h
  | drop k tag a => exact h
  | store a w => exact h
  | page n w => exact h
  | consume w => exact ReportRing.inRange_consume w h
  | stage i w => exact (State.stageBeat_effect (s.pageWrite _ w) i w).ring_inRange h
  | land c n w => exact (s.landingPhase_cases c n w).ring_inRange h
  | frameStart i => exact (s.frameStart_effect i).ring_inRange h
  | status n => exact (s.afterStatusRead_effect n).ring_inRange h
  | stale c => exact (s.staleTimeout_effect c).ring_inRange h
  | sample l => exact (State.sampleInstant_effect _).ring_inRange (s := { s with lines := l }) h
  | linger i => exact (s.lingerExpiry_effect i).ring_inRange h
  | close k => exact (s.guardClose_effect k).ring_inRange h
  | overtime => exact s.applyingOvertime_effect.ring_inRange h
  | command d c tag =>
    have hw : (s.pageWrite 8 ⟨0xFF, d⟩).ring.inRange := h
    rcases (State.offer_cases _ c tag).effect_or_applied with e | ⟨-, hv, a⟩
    · exact e.ring_inRange hw
    · exact a.effect.ring_inRange (State.applyLoad_ring_inRange (s := State.takeTag _ tag) hw hv)

end Sys2Proof.Machine
end

section

/-! The engine's own changes: what each of its operations leaves in `State.engine`, tagged for `simp`. -/

namespace Sys2Proof.Machine

set_option Elab.async false

@[simp] theorem State.record_engine (s : State) (code tag : Byte) (x : Result) (y : Reason) (t : Byte)
    (n : BitVec 16) :
    (s.record code tag x y t n).engine = { s.engine with result := x, reason := y, table := t, index := n } := rfl

@[simp] theorem State.finish_engine (s : State) (code : Byte) (x : Result) (y : Reason) (t : Byte) (n : BitVec 16) :
    (s.finish code x y t n).engine = { s.engine with result := x, reason := y, table := t, index := n } := rfl

@[simp] theorem State.finishPlain_engine (s : State) (code : Byte) (x : Result) (y : Reason) :
    (s.finishPlain code x y).engine = { s.engine with result := x, reason := y, table := 0, index := 0 } := rfl

@[simp] theorem State.finishLoad_engine (s : State) (code : Byte) (x : Result) (y : Reason) :
    (s.finishLoad code x y).engine =
      { s.engine with result := x, reason := y, table := s.engine.loadTable, index := s.engine.loadFirst } := rfl

@[simp] theorem State.takeTag_engine (s : State) (tag : Byte) :
    (s.takeTag tag).engine = { s.engine with lastTag := tag } := rfl

@[simp] theorem State.enter_engine (s : State) (x : EngineState) :
    (s.enter x).engine = { s.engine with state := x } := rfl

@[simp] theorem State.discardStaging_engine (s : State) :
    s.discardStaging.engine = { s.engine with buffer := Vector.replicate 256 0, staged := 0 } := rfl

@[simp] theorem State.abortLoad_engine (s : State) (code : Byte) (y : Reason) :
    (s.abortLoad code y).engine =
      { s.engine with
        state := .aborted, buffer := Vector.replicate 256 0, staged := 0, result := .aborted, reason := y,
        table := s.engine.loadTable, index := s.engine.loadFirst } := rfl

@[simp] theorem State.endApplying_engine (s : State) (x : Result) :
    (s.endApplying x).engine =
      { s.engine with
        state := .idle, pending := 0, result := x, reason := .none, table := s.engine.loadTable,
        index := s.engine.loadFirst } := rfl

/-- After a load of screens, layouts or panes the engine is IDLE with the result DONE, or waits for the
affected screens. -/
theorem State.awaitScreens_engine (before after : State) :
    (State.awaitScreens before after).engine =
      if affectedSet before after = 0#4 then
        { after.engine with
          state := .idle, result := .done, reason := .none, table := after.engine.loadTable,
          index := after.engine.loadFirst }
      else { after.engine with
          state := .applying, pending := affectedSet before after, waitStart := after.time } := by
  unfold State.awaitScreens
  dsimp only
  split <;> rfl

/-- The engine `f` differs from `e` in the result fields alone. -/
def Engine.SameButResult (e f : Engine) : Prop :=
  ∃ result reason table index, f = { e with result := result, reason := reason, table := table, index := index }

theorem State.finish_sameButResult {s u : State} (h : u.engine = s.engine) (code : Byte) (x : Result) (y : Reason)
    (t : Byte) (n : BitVec 16) : s.engine.SameButResult (u.finish code x y t n).engine :=
  ⟨x, y, t, n, by rw [State.finish_engine, h]⟩

theorem State.finishLearn_sameButResult {s u : State} (h : u.engine = s.engine) (code : Byte)
    (l : List (Option Reason)) : s.engine.SameButResult (u.finishLearn code l).engine := by
  unfold State.finishLearn
  split
  · exact State.finish_sameButResult h _ _ _ _ _
  · split <;> exact State.finish_sameButResult h _ _ _ _ _

theorem State.idleSpotSet_sameButResult (s : State) (i l v : Byte) :
    s.engine.SameButResult (s.idleSpotSet i l v).engine := by
  unfold State.idleSpotSet
  split
  · exact State.finish_sameButResult rfl _ _ _ _ _
  · split
    · exact State.finish_sameButResult rfl _ _ _ _ _
    · dsimp only
      split <;> exact State.finish_sameButResult ((s.raiseOn_effect _ _ _ _).same .engine) _ _ _ _ _

theorem State.idleSpotClear_sameButResult (s : State) (i : Byte) :
    s.engine.SameButResult (s.idleSpotClear i).engine := by
  unfold State.idleSpotClear
  split
  · exact State.finish_sameButResult rfl _ _ _ _ _
  · exact State.finish_sameButResult ((s.endOn_effect _ _ _).same .engine) _ _ _ _ _

theorem State.idleHoldTake_sameButResult (s : State) (c n : Byte) :
    s.engine.SameButResult (s.idleHoldTake c n).engine := by
  unfold State.idleHoldTake
  split
  · exact State.finish_sameButResult rfl _ _ _ _ _
  · split
    · exact State.finish_sameButResult rfl _ _ _ _ _
    · dsimp only
      split <;> exact State.finish_sameButResult ((s.take_effect _ _ _).same .engine) _ _ _ _ _

theorem State.idleHoldRelease_sameButResult (s : State) (h : Byte) :
    s.engine.SameButResult (s.idleHoldRelease h).engine := by
  unfold State.idleHoldRelease
  split
  · exact State.finish_sameButResult rfl _ _ _ _ _
  · split
    · exact State.finish_sameButResult rfl _ _ _ _ _
    · exact State.finish_sameButResult ((s.releaseHold_effect _ _).same .engine) _ _ _ _ _

/-- A command in IDLE that is no LOAD changes the result fields of the engine alone. -/
theorem State.idleCommand_sameButResult (s : State) {c : Command} (hc : ∀ t f n, c ≠ .load t f n) :
    s.engine.SameButResult (s.idleCommand c).engine := by
  cases c with
  | load t f n => exact absurd rfl (hc t f n)
  | commit => exact State.finish_sameButResult rfl _ _ _ _ _
  | abortClear => exact State.finish_sameButResult rfl _ _ _ _ _
  | learn m => exact State.finishLearn_sameButResult ((s.learnEach_effect _ m).same .engine) _ _
  | learnSuspend m => exact State.finishLearn_sameButResult ((s.learnEach_effect _ m).same .engine) _ _
  | learnResume m => exact State.finishLearn_sameButResult ((s.learnEach_effect _ m).same .engine) _ _
  | spotSet i l v => exact s.idleSpotSet_sameButResult i l v
  | spotClear i => exact s.idleSpotClear_sameButResult i
  | holdTake c n => exact s.idleHoldTake_sameButResult c n
  | holdRelease h => exact s.idleHoldRelease_sameButResult h
  | holdLock =>
    exact State.finish_sameButResult (u := { s with holds := { s.holds with lock := true } }) rfl _ _ _ _ _
  | snapshot => exact State.finish_sameButResult (s.snapshotRecords_effect.same .engine) _ _ _ _ _
  | restart => exact ⟨_, _, _, _, rfl⟩
  | undefinedCode x => exact State.finish_sameButResult rfl _ _ _ _ _

/-! ### The warm restart -/

/-- The blocks' part of a warm restart leaves the engine alone. -/
theorem State.restartBlocks_engine (s : State) : s.restartBlocks.engine = s.engine := by
  unfold State.restartBlocks
  exact Effect.same (ps := [.pool, .rings, .cadence, .lens, .contexts, .doorUnit, .spots, .holds, .episodes])
    (Effect.mono (((((((s.slotsRestart_effect.trans (State.cadenceRestart_effect _)).trans
      (State.lensRestart_effect _)).trans (State.withContexts_effect _ _)).trans (State.doorsRestart_effect _)).trans
      (State.spotsRestart_effect _)).trans (State.completeShort_effect _ _ _)).trans (State.withEpisodes_effect _ _))
      (by decide)) .engine

theorem State.cutApplying_sameButResult (s : State) (tag : Byte) :
    s.engine.SameButResult (s.cutApplying tag).engine := by
  unfold State.cutApplying
  split
  · exact ⟨_, _, _, _, rfl⟩
  · exact ⟨_, _, _, _, rfl⟩
  · exact ⟨_, _, _, _, rfl⟩
  · exact ⟨_, _, _, _, rfl⟩

/-- After a warm restart the engine is IDLE with its staging discarded, and the result is RESTART's DONE. -/
theorem State.warmRestart_engine (s : State) (tag : Byte) :
    (s.warmRestart tag).engine =
      { s.engine with
        lastTag := tag, buffer := Vector.replicate 256 0, staged := 0, state := .idle, pending := 0,
        result := .done, reason := .none, table := 0, index := 0 } := by
  unfold State.warmRestart
  obtain ⟨_, _, _, _, h⟩ := (s.takeTag tag).discardStaging.cutApplying_sameButResult s.engine.lastTag
  rw [State.finishPlain_engine, State.restartBlocks_engine, State.setEngine_engine, h]
  rfl

/-! ### The ranges of the engine -/

/-- The ranges speak of the engine state, the load, the staged words and the pending set alone. -/
theorem Engine.inRange_congr {e f : Engine} (hs : f.state = e.state) (hl : f.load = e.load) (hg : f.staged = e.staged)
    (hp : f.pending = e.pending) (h : e.inRange) : f.inRange := by
  unfold Engine.inRange at h ⊢
  rw [hs, hl, hg, hp]
  exact h

/-- Outside STAGING and APPLYING nothing is asked but an empty pending set. -/
theorem Engine.inRange_of_rest {e : Engine} (hs : e.state = .idle ∨ e.state = .aborted) (hp : e.pending = 0) :
    e.inRange := by
  refine ⟨fun h => ?_, fun h => ?_, fun h => absurd hp h⟩ <;> rcases hs with hs | hs <;> rw [hs] at h <;> cases h

theorem Engine.pending_eq_zero {e : Engine} (h : e.inRange) (hs : e.state ≠ .applying) : e.pending = 0 :=
  Decidable.byContradiction fun hp => hs (h.2.mpr hp)

theorem State.idleLoad_engine_inRange {s : State} (h : s.engine.inRange) (hs : s.engine.state = .idle)
    (table first count : Byte) : (s.idleLoad table first count).engine.inRange := by
  have hp : s.engine.pending = 0 := Engine.pending_eq_zero h (by rw [hs]; decide)
  unfold State.idleLoad
  split
  · exact Engine.inRange_of_rest (.inr rfl) hp
  · split
    · exact Engine.inRange_of_rest (.inr rfl) hp
    · rename_i t _ hn
      simp only [not_or, Nat.not_lt] at hn
      have hc : count.toNat ≠ 0 := fun e => hn.1 (BitVec.eq_of_toNat_eq e)
      refine ⟨fun _ => ⟨Nat.one_le_iff_ne_zero.mpr hc, hn.2.1, hn.2.2, Nat.zero_le _⟩, fun e => ?_, fun e => ?_⟩
      · cases e
      · exact absurd hp e

theorem State.idleCommand_engine_inRange {s : State} (h : s.engine.inRange) (hs : s.engine.state = .idle)
    (c : Command) : (s.idleCommand c).engine.inRange := by
  by_cases hc : ∃ t f n, c = .load t f n
  · obtain ⟨t, f, n, rfl⟩ := hc
    exact State.idleLoad_engine_inRange h hs t f n
  · obtain ⟨_, _, _, _, he⟩ := s.idleCommand_sameButResult (c := c) fun t f n e => hc ⟨t, f, n, e⟩
    rw [he]
    exact Engine.inRange_congr rfl rfl rfl rfl h

theorem Offered.engine_inRange {s t : State} {c : Command} {tag : Byte} (o : Offered s c tag t)
    (h : s.engine.inRange) : t.engine.inRange := by
  have rest : s.engine.state ≠ .applying → s.engine.pending = 0 := Engine.pending_eq_zero h
  cases o with
  | ignored => exact h
  | restart =>
    rw [State.warmRestart_engine]
    exact Engine.inRange_of_rest (.inl rfl) rfl
  | idle state =>
    have tagged : (s.takeTag tag).engine.inRange := Engine.inRange_congr (e := s.engine) rfl rfl rfl rfl h
    exact State.idleCommand_engine_inRange tagged (by rw [State.takeTag_engine]; exact state) c
  | cleared state =>
    refine Engine.inRange_of_rest (.inl rfl) ?_
    rw [State.finishPlain_engine, State.enter_engine, State.takeTag_engine]
    exact rest (by rw [state]; decide)
  | aborted state =>
    refine Engine.inRange_of_rest (.inr rfl) ?_
    rw [State.abortLoad_engine, State.takeTag_engine]
    exact rest (by rw [state]; decide)
  | invalid state =>
    refine Engine.inRange_of_rest (.inl rfl) ?_
    rw [State.finish_engine, State.enter_engine, State.discardStaging_engine, State.takeTag_engine]
    exact rest (by rw [state]; decide)
  | applied state _ _ _ outcome =>
    have hp : (s.takeTag tag).applyLoad.engine.pending = 0 := by
      rw [State.applyLoad_engine, State.takeTag_engine]
      exact rest (by rw [state]; decide)
    cases outcome with
    | ended => exact Engine.inRange_of_rest (.inl rfl) hp
    | awaited =>
      rw [State.awaitScreens_engine]
      split
      · exact Engine.inRange_of_rest (.inl rfl) hp
      · exact ⟨fun e => (by cases e), fun _ => ‹_›, fun _ => rfl⟩

theorem State.stageBeat_engine_inRange {s : State} (h : s.engine.inRange) (hs : s.engine.state = .staging)
    (i : Fin 256) (w : WriteData) : (s.stageBeat i w).engine.inRange := by
  have hp : s.engine.pending = 0 := Engine.pending_eq_zero h (by rw [hs]; decide)
  unfold State.stageBeat
  dsimp only
  split
  · exact Engine.inRange_of_rest (.inr rfl) hp
  · split
    · exact Engine.inRange_of_rest (.inr rfl) hp
    · rename_i hn
      obtain ⟨h1, h2, h3, -⟩ := h.1 hs
      exact ⟨fun _ => ⟨h1, h2, h3, Nat.not_lt.mp hn⟩, h.2⟩

theorem State.frameStartNotice_engine_inRange {s : State} (h : s.engine.inRange) (i : Screen) :
    (s.frameStartNotice i).engine.inRange := by
  unfold State.frameStartNotice
  split
  · rename_i hs
    dsimp only
    split
    · split
      · exact Engine.inRange_of_rest (.inl rfl) rfl
      · refine ⟨fun e => ?_, fun _ => ‹_›, fun _ => hs⟩
        rw [State.setEngine_engine, hs] at e
        cases e
    · exact h
  · exact h
  · exact h
  · exact h

theorem Operation.engine_inRange {s t : State} (o : Operation s t) (h : s.engine.inRange) : t.engine.inRange := by
  cases o with
  | nothing => exact h
  | drop k tag a => exact h
  | store a w => exact h
  | page n w => exact h
  | consume w => exact h
  | stage i w hs => exact State.stageBeat_engine_inRange (s := s.pageWrite _ w) h hs i w
  | land c n w =>
    rw [show (s.landingPhase c n w).engine = s.engine from (s.landingPhase_touches c n w).same .engine]
    exact h
  | frameStart i =>
    refine State.frameStartNotice_engine_inRange ?_ i
    rw [show (s.latch i).engine = s.engine from (s.latch_effect i).same .engine]
    exact h
  | status n =>
    unfold State.afterStatusRead
    split
    · exact Engine.inRange_congr rfl rfl rfl rfl h
    · exact h
  | stale c => rw [show (s.staleTimeout c).engine = s.engine from (s.staleTimeout_effect c).same .engine]; exact h
  | sample l =>
    rw [show (State.sampleInstant { s with lines := l }).engine = s.engine from
      (State.sampleInstant_effect { s with lines := l }).same .engine]
    exact h
  | linger i => rw [show (s.lingerExpiry i).engine = s.engine from (s.lingerExpiry_effect i).same .engine]; exact h
  | close k => rw [show (s.guardClose k).engine = s.engine from (s.guardClose_effect k).same .engine]; exact h
  | overtime =>
    unfold State.applyingOvertime
    split
    · exact Engine.inRange_of_rest (.inl rfl) rfl
    · exact h
  | command d c tag => exact (State.offer_cases (s.pageWrite 8 ⟨0xFF, d⟩) c tag).engine_inRange h

/-! ### The invariants -/

/-- Settles O54: each of the three ranges is kept by every operation, and nothing else in a step touches frame
memory, the ring or the engine but the release of RESET_N. -/
theorem memoryRingAndEngineStayInRange : Obligations.MemoryRingAndEngineStayInRange := by
  refine ⟨fun s t hs h => ?_, fun s t hs h => ?_, fun s t hs h => ?_⟩
  · exact step_keeps (P := fun u => u.mem.wf = true) hs h (fun _ _ h => h) (fun _ _ _ h => h) (fun _ _ h => h)
      (fun _ _ _ h => h) (fun _ _ h => h) fun _ _ h o => o.mem_wf h
  · exact step_keeps (P := fun u => u.ring.inRange) hs h (fun _ _ h => h) (fun _ _ _ h => h) (fun _ _ h => h)
      (fun _ _ _ h => h) (fun _ _ _ => rfl) fun _ _ h o => o.ring_inRange h
  · exact step_keeps (P := fun u => u.engine.inRange) hs h (fun _ _ h => h) (fun _ _ _ h => h) (fun _ _ h => h)
      (fun _ _ _ h => h) (fun _ _ _ => Engine.inRange_of_rest (.inl rfl) rfl) fun _ _ h o => o.engine_inRange h

end Sys2Proof.Machine
end

section

/-! The cadence records stay in range (O56): each operation of chapter 2 on one record, the operations of other
blocks that call them, and the invariant through `step_keeps`. -/

namespace Sys2Proof.Machine

set_option Elab.async false

/-! ### Operations on one record -/

section Record

variable {c : Camera} {r : CadenceRec} {enabled : Bool}

/-- The ranges do not speak of the times and the accumulator. -/
theorem CadenceRec.inRange_congr {q : CadenceRec} (hs : q.state = r.state) (hg : q.good = r.good)
    (hl : q.slip = r.slip) (hr : q.run = r.run) (hf : q.frozen = r.frozen) (hp : q.prevSig = r.prevSig)
    (hv : q.state = .stale → q.previous = none) (h : r.inRange enabled) : q.inRange enabled := by
  obtain ⟨h1, h2, h3, h4, h5, -, h7, h8, h9⟩ := h
  exact ⟨by omega, by omega, by omega, by rwa [hs, hg], by rwa [hs, hl], hv, by rwa [hf, hr], by rwa [hp, hr],
    by rwa [hs]⟩

/-- A record that starts over from ACQUIRING, as at an enable and at a restart (R28, R41). -/
theorem CadenceRec.inRange_startOver (t : Time) :
    CadenceRec.inRange { r with
      state := .acquiring, good := 0, slip := 0, previous := none, staleRef := t, sigAcc := none,
      prevSig := none, run := 0, frozen := false } true := by
  simp [CadenceRec.inRange]

theorem cadenceEnabled_inRange (t : Time) : (cadenceEnabled c t r).1.inRange true := CadenceRec.inRange_startOver t

theorem cadenceDisabled_inRange : (cadenceDisabled c r).1.inRange false := by
  simp [cadenceDisabled, CadenceRec.inRange]

theorem cadenceRestarted_inRange (t : Time) (h : r.inRange enabled) :
    (cadenceRestarted c enabled t r).1.inRange enabled := by
  cases enabled with
  | true => exact CadenceRec.inRange_startOver t
  | false => exact CadenceRec.inRange_congr rfl rfl rfl rfl rfl rfl h.2.2.2.2.2.1 h

/-- The stale timeout runs in ACQUIRING and LOCKED alone, so its camera is enabled. -/
theorem cadenceStale_inRange (timing : r.timing = true) (h : r.inRange enabled) :
    (cadenceStale c r).1.inRange enabled := by
  obtain ⟨-, -, h3, -, -, -, h7, h8, h9⟩ := h
  have on : r.state ≠ .off := by
    intro e
    simp [CadenceRec.timing, e] at timing
  have he : enabled ≠ false := fun e => on (h9.mpr e)
  simp [cadenceStale, CadenceRec.inRange, h3, h7, he]
  exact h8

/-- The judgement keeps the ranges, but for the previous arrival, which is set behind it (R30 to R33). -/
theorem judgeArrival_inRange (period : Nat) (t : Time) (h : r.inRange enabled) :
    (judgeArrival c period t r).1.inRange enabled := by
  obtain ⟨state, good, slip, previous, staleRef, sigAcc, prevSig, run, frozen⟩ := r
  have h' := h
  cases state <;> simp only [CadenceRec.inRange, reduceCtorEq, ne_eq, not_true_eq_false, not_false_eq_true,
    false_implies, true_implies, false_iff, true_iff, true_and] at h'
  case off => exact h
  case acquiring =>
    obtain ⟨h1, h2, h3, h5, h7, h8, h9⟩ := h'
    unfold judgeArrival
    dsimp only
    split
    · exact h
    · split
      · split
        · simpa [CadenceRec.inRange, h3, h7, h9] using h8
        · simp only [CadenceRec.inRange]
          exact ⟨by omega, h2, h3, by simp, by simp [h5], by simp, h7, h8, by simp [h9]⟩
      · simpa [CadenceRec.inRange, h3, h5, h7, h9] using h8
  case locked =>
    obtain ⟨h1, h2, h3, h4, h7, h8, h9⟩ := h'
    unfold judgeArrival
    dsimp only
    split
    · exact h
    · split
      · split
        · simpa [CadenceRec.inRange, h3, h7, h9] using h8
        · simp only [CadenceRec.inRange]
          exact ⟨h1, by omega, h3, by simp [h4], by simp, by simp, h7, h8, by simp [h9]⟩
      · simpa [CadenceRec.inRange, h3, h4, h7, h9] using h8
  case stale =>
    obtain ⟨-, -, h3, -, -, -, h7, h8, h9⟩ := h'
    simpa [judgeArrival, CadenceRec.inRange, h3, h7, h9] using h8

/-- The judgement never leaves a record STALE. -/
theorem judgeArrival_state_ne_stale (period : Nat) (t : Time) : (judgeArrival c period t r).1.state ≠ .stale := by
  obtain ⟨state, good, slip, previous, staleRef, sigAcc, prevSig, run, frozen⟩ := r
  unfold judgeArrival
  cases state <;> dsimp only
  case off => simp
  case acquiring =>
    split
    · simp
    · split
      · split <;> simp
      · simp
  case locked =>
    split
    · simp
    · split
      · split <;> simp
      · simp
  case stale => simp

/-- FROZEN stands exactly at a run of 8 after the comparison (R37). -/
theorem compareSignature_inRange (sig : BitVec 16) (h : r.inRange enabled) :
    (compareSignature c sig r).1.inRange enabled := by
  obtain ⟨h1, h2, h3, h4, h5, h6, h7, h8, h9⟩ := h
  unfold compareSignature
  split
  · rename_i hp
    have hr := h8 hp
    exact ⟨h1, h2, Nat.zero_le _, h4, h5, h6, by simp [h7, hr], fun _ => rfl, h9⟩
  · split
    · dsimp only
      split
      · rename_i hr
        exact ⟨h1, h2, Nat.min_le_right _ _, h4, h5, h6, by simp [hr.1], by simp, h9⟩
      · rename_i hr
        refine ⟨h1, h2, Nat.min_le_right _ _, h4, h5, h6, ?_, by simp, h9⟩
        show r.frozen = true ↔ min (r.run + 1) 8 = 8
        cases hf : r.frozen with
        | true => simp only [true_iff]; have := h7.mp hf; omega
        | false => simpa [hf] using hr
    · exact ⟨h1, h2, Nat.zero_le _, h4, h5, h6, by simp, by simp, h9⟩

theorem arrivalOf_inRange (period : Nat) (t : Time) (h : r.inRange enabled) :
    (arrivalOf c period t r).1.inRange enabled :=
  compareSignature_inRange _ (CadenceRec.inRange_congr (r := (judgeArrival c period t r).1) rfl rfl rfl rfl rfl rfl
    (fun e => absurd e (judgeArrival_state_ne_stale period t)) (judgeArrival_inRange (c := c) period t h))

end Record

/-! ### Operations on the state -/

/-- Every cadence record is in its ranges. -/
def State.cadenceLaws (s : State) : Prop := ∀ c : Camera, s.cadence[c].inRange s.cameras[c].enable

theorem State.cadenceLaws_congr {s t : State} (hc : t.cadence = s.cadence) (he : t.cameras = s.cameras)
    (h : s.cadenceLaws) : t.cadenceLaws := by
  unfold State.cadenceLaws
  rw [hc, he]
  exact h

/-- An effect on neither the cadence nor the camera records keeps the ranges. -/
theorem Effect.cadenceLaws {ps : List Piece} {s t : State} (e : Effect ps s t) (h : s.cadenceLaws)
    (hc : Piece.cadence ∉ Piece.mem :: .ring :: ps := by decide)
    (he : Piece.cameras ∉ Piece.mem :: .ring :: ps := by decide) : t.cadenceLaws :=
  State.cadenceLaws_congr (e.same .cadence hc) (e.same .cameras he) h

theorem Touches.cadenceLaws {ps : List Piece} {s t : State} (e : Touches ps s t) (h : s.cadenceLaws)
    (hc : Piece.cadence ∉ ps := by decide) (he : Piece.cameras ∉ ps := by decide) : t.cadenceLaws :=
  State.cadenceLaws_congr (e.same .cadence hc) (e.same .cameras he) h

theorem State.cadenceLaws_setCadence {s : State} {c : Camera} {r : CadenceRec} (h : s.cadenceLaws)
    (hr : r.inRange s.cameras[c].enable) : (s.setCadence c r).cadenceLaws := by
  intro d
  rw [State.setCadence_cadence, State.setCadence_cameras]
  rcases upd_getElem_cases s.cadence c d r with ⟨e, rfl⟩ | ⟨e, -⟩
  · rwa [e]
  · rw [e]; exact h d

theorem State.cadenceLaws_cadenceTo {s : State} {c : Camera} {x : CadenceRec × List Report} (h : s.cadenceLaws)
    (hx : x.1.inRange s.cameras[c].enable) : (s.cadenceTo c x).cadenceLaws :=
  (Effect.emitAll _ x.2).cadenceLaws (State.cadenceLaws_setCadence h hx)

theorem State.cadenceLaws_arrival {s : State} (h : s.cadenceLaws) (c : Camera) : (s.arrival c).cadenceLaws :=
  State.cadenceLaws_cadenceTo h (arrivalOf_inRange _ _ (h c))

theorem State.cadenceLaws_staleTimeout {s : State} (h : s.cadenceLaws) (c : Camera) :
    (s.staleTimeout c).cadenceLaws := by
  unfold State.staleTimeout State.staleDue
  split
  · rename_i due
    exact State.cadenceLaws_cadenceTo h (cadenceStale_inRange (Bool.and_eq_true_iff.mp due).1 (h c))
  · exact h

theorem State.cadenceLaws_cadenceRestart {s : State} (h : s.cadenceLaws) : s.cadenceRestart.cadenceLaws :=
  List.foldlRecOn (motive := fun u : State => u.cadenceLaws) _ _ h fun _ hu c _ =>
    State.cadenceLaws_cadenceTo hu (cadenceRestarted_inRange _ (hu c))

/-- A change of the signature accumulator alone (R36). -/
theorem State.cadenceLaws_setAcc {s : State} (h : s.cadenceLaws) (c : Camera) (a : Option (BitVec 16)) :
    (s.setCadence c { s.cadence[c] with sigAcc := a }).cadenceLaws :=
  State.cadenceLaws_setCadence h (CadenceRec.inRange_congr rfl rfl rfl rfl rfl rfl (h c).2.2.2.2.2.1 (h c))

/-! ### Landing -/

theorem State.cadenceLaws_landWord {s : State} (h : s.cadenceLaws) (c : Camera) (i n : Nat) (w : WriteData) :
    (s.landWord c i n w).cadenceLaws := by
  refine State.cadenceLaws_setAcc (State.cadenceLaws_congr ?_ ?_ h) c _ <;> simp [State.lensAdd]

theorem State.cadenceLaws_beginFrame {s : State} (h : s.cadenceLaws) (c : Camera) (i : Nat) (w : WriteData) :
    (s.beginFrame c i w).cadenceLaws := by
  refine State.cadenceLaws_landWord (State.cadenceLaws_setAcc (State.cadenceLaws_congr ?_ ?_ h) c _) c i 0 w
    <;> simp [State.lensBegin]

theorem State.cadenceLaws_countTorn {s : State} (h : s.cadenceLaws) (c : Camera) : (s.countTorn c).cadenceLaws := by
  refine State.cadenceLaws_setAcc (State.cadenceLaws_congr ?_ ?_ h) c _ <;> simp [State.lensDrop]

theorem State.cadenceLaws_setRing {s : State} (h : s.cadenceLaws) (c : Camera) (r : RingRec) :
    (s.setRing c r).cadenceLaws := (s.setRing_effect c r).cadenceLaws h

/-- What an acceptance does behind the arrival at the Cadence Monitor (R14 steps 2 to 5). -/
theorem State.accept_afterArrival_effect (s : State) (c : Camera) (i : Nat) :
    Effect [.lens, .holds, .pool, .rings] ((s.memberReady c i).arrival c) (s.accept c i) := by
  unfold State.accept
  exact Effect.mono ((((State.lensAccepted_effect _ c _ _).trans (State.offerFrame_effect _ c i)).trans
    (State.chooseTarget_effect _ c)).trans (State.setRing_effect _ c _)) (by decide)

theorem FrameEnded.cadenceLaws {s t : State} {c : Camera} {n : Nat} (e : FrameEnded s c n t) (h : s.cadenceLaws) :
    t.cadenceLaws := by
  cases e with
  | goesOn => exact h
  | accepted _ i =>
    exact (s.accept_afterArrival_effect c i).cadenceLaws
      (State.cadenceLaws_arrival ((s.memberReady_effect c i).cadenceLaws h) c)
  | torn => exact State.cadenceLaws_setRing (State.cadenceLaws_countTorn h c) c _

theorem Landed.cadenceLaws {s t : State} {c : Camera} {n : Nat} {w : WriteData} (l : Landed s c n w t)
    (h : s.cadenceLaws) : t.cadenceLaws := by
  cases l with
  | dropped => exact h
  | starved => exact State.cadenceLaws_setRing h c _
  | begun _ _ i _ _ outcome => exact outcome.cadenceLaws (State.cadenceLaws_beginFrame h c i w)
  | begunAnew _ _ i _ _ outcome =>
    exact outcome.cadenceLaws (State.cadenceLaws_beginFrame (State.cadenceLaws_countTorn h c) c i w)
  | stored _ i _ _ _ outcome =>
    exact outcome.cadenceLaws (State.cadenceLaws_landWord (State.cadenceLaws_setRing h c _) c i n w)
  | marked _ _ outcome => exact outcome.cadenceLaws (State.cadenceLaws_setRing h c _)

/-! ### A CAMERA record -/

/-- A record that leaves the enable as it is. -/
theorem State.cadenceLaws_setCamera {s : State} {c : Camera} {r : CameraRec} (h : s.cadenceLaws)
    (hr : r.enable = s.cameras[c].enable) : (s.setCamera c r).cadenceLaws := by
  intro d
  rw [State.setCamera_cadence, State.setCamera_cameras]
  rcases upd_getElem_cases s.cameras c d r with ⟨e, rfl⟩ | ⟨e, -⟩
  · rw [e, hr]; exact h d
  · rw [e]; exact h d

/-- Every camera but `c` is in its ranges, as while camera `c` is being enabled or disabled. -/
def State.cadenceLawsBut (s : State) (c : Camera) : Prop :=
  ∀ d : Camera, d ≠ c → s.cadence[d].inRange s.cameras[d].enable

theorem State.cadenceLawsBut_setCamera {s : State} (h : s.cadenceLaws) (c : Camera) (r : CameraRec) :
    (s.setCamera c r).cadenceLawsBut c := by
  intro d hd
  rw [State.setCamera_cadence, State.setCamera_cameras, upd_getElem_of_ne _ _ hd]
  exact h d

theorem Effect.cadenceLawsBut {ps : List Piece} {s t : State} {c : Camera} (e : Effect ps s t)
    (h : s.cadenceLawsBut c) (hc : Piece.cadence ∉ Piece.mem :: .ring :: ps := by decide)
    (he : Piece.cameras ∉ Piece.mem :: .ring :: ps := by decide) : t.cadenceLawsBut c := by
  unfold State.cadenceLawsBut
  rw [show t.cadence = s.cadence from e.same .cadence hc, show t.cameras = s.cameras from e.same .cameras he]
  exact h

theorem State.cadenceLawsBut_setCadence {s : State} {c : Camera} (h : s.cadenceLawsBut c) (r : CadenceRec) :
    (s.setCadence c r).cadenceLawsBut c := by
  intro d hd
  rw [State.setCadence_cadence, State.setCadence_cameras, upd_getElem_of_ne _ _ hd]
  exact h d hd

theorem State.cadenceLaws_of_but {s : State} {c : Camera} {x : CadenceRec × List Report} (h : s.cadenceLawsBut c)
    (hx : x.1.inRange s.cameras[c].enable) : (s.cadenceTo c x).cadenceLaws := by
  refine (Effect.emitAll _ x.2).cadenceLaws fun d => ?_
  rw [State.setCadence_cadence, State.setCadence_cameras]
  rcases upd_getElem_cases s.cadence c d x.1 with ⟨e, rfl⟩ | ⟨e, hd⟩
  · rwa [e]
  · rw [e]; exact h d hd

theorem State.cadenceLaws_disableCamera {s : State} {c : Camera} (h : s.cadenceLawsBut c)
    (off : s.cameras[c].enable = false) (old new : CameraRec) : (s.disableCamera c old new).cadenceLaws := by
  have before : (((s.lensDrop c).signatureDrop c).slotsDisable c).cadenceLawsBut c :=
    (State.slotsDisable_effect _ c).cadenceLawsBut
      (State.cadenceLawsBut_setCadence ((s.setLens_effect c _).cadenceLawsBut h) _)
  have cameras : (((s.lensDrop c).signatureDrop c).slotsDisable c).cameras = s.cameras :=
    (((s.setLens_effect c _).trans (State.setCadence_effect _ c _)).trans (State.slotsDisable_effect _ c)).same .cameras
  unfold State.disableCamera
  refine (((State.lensTo_effect _ c _).trans (State.completeShort_effect _ _ _))).cadenceLaws
    (State.cadenceLaws_of_but before ?_)
  rw [cameras, off]
  exact cadenceDisabled_inRange

theorem State.cadenceLaws_enableCamera {s : State} {c : Camera} (h : s.cadenceLawsBut c)
    (on : s.cameras[c].enable = true) : (s.enableCamera c).cadenceLaws := by
  have before := (s.slotsEnable_effect c).cadenceLawsBut h
  unfold State.enableCamera
  refine (State.lensTo_effect _ c _).cadenceLaws (State.cadenceLaws_of_but before ?_)
  rw [show (s.slotsEnable c).cameras = s.cameras from (s.slotsEnable_effect c).same .cameras, on]
  exact cadenceEnabled_inRange _

theorem State.cadenceLaws_applyCamera {s : State} (h : s.cadenceLaws) (c : Camera) (r : CameraRec) :
    (s.applyCamera c r).cadenceLaws := by
  have stored := State.cadenceLawsBut_setCamera h c r
  have enable : (s.setCamera c r).cameras[c].enable = r.enable := by rw [State.setCamera_cameras, upd_getElem_self]
  unfold State.applyCamera
  dsimp only
  split
  · rename_i hd
    have off : r.enable = false := by simpa using (Bool.and_eq_true_iff.mp hd).2
    exact (State.configureLens_effect _ c _ r).cadenceLaws
      (State.cadenceLaws_disableCamera stored (enable.trans off) _ r)
  · split
    · rename_i he
      have configured := State.configureLens_effect (s.setCamera c r) c s.cameras[c] r
      refine State.cadenceLaws_enableCamera (configured.cadenceLawsBut stored) ?_
      rw [show _ = (s.setCamera c r).cameras from configured.same .cameras, enable]
      exact (Bool.and_eq_true_iff.mp he).1
    · rename_i hd he
      have same : r.enable = s.cameras[c].enable := by
        revert hd he
        cases r.enable <;> cases s.cameras[c].enable <;> simp
      have configured := (State.configureLens_effect _ c s.cameras[c] r).cadenceLaws
        (State.cadenceLaws_setCamera h same)
      split
      · exact State.cadenceLaws_staleTimeout configured c
      · exact configured

/-! ### The invariant -/

theorem State.cadenceLaws_applyLoad {s : State} (h : s.cadenceLaws) : s.applyLoad.cadenceLaws := by
  by_cases ht : s.engine.load.table = .cameras
  · unfold State.applyLoad
    dsimp only
    rw [ht]
    exact List.foldlRecOn (motive := fun u : State => u.cadenceLaws) _ _ h fun _ hu x _ =>
      State.cadenceLaws_applyCamera hu x.1 x.2
  · exact s.applyLoad_touches.cadenceLaws h (by revert ht; cases s.engine.load.table <;> decide)
      (by revert ht; cases s.engine.load.table <;> decide)

theorem State.cadenceLaws_warmRestart {s : State} (h : s.cadenceLaws) (tag : Byte) :
    (s.warmRestart tag).cadenceLaws := by
  have taken := (((s.takeTag_effect tag).trans (State.discardStaging_effect _)).trans
    (State.cutApplying_effect _ s.engine.lastTag)).cadenceLaws h
  have idle := (State.setEngine_effect _ { ((s.takeTag tag).discardStaging.cutApplying s.engine.lastTag).engine with
    state := .idle, pending := 0 }).cadenceLaws taken
  have restarted := State.cadenceLaws_cadenceRestart ((State.slotsRestart_effect _).cadenceLaws idle)
  unfold State.warmRestart State.restartBlocks
  exact Effect.cadenceLaws ((((((State.lensRestart_effect _).trans (State.withContexts_effect _ _)).trans
    (State.doorsRestart_effect _)).trans (State.spotsRestart_effect _)).trans
    (State.completeShort_effect _ _ _)).trans ((State.withEpisodes_effect _ _).trans
    (State.finishPlain_effect _ _ _ _))) restarted

theorem Offered.cadenceLaws {s t : State} {c : Command} {tag : Byte} (o : Offered s c tag t) (h : s.cadenceLaws) :
    t.cadenceLaws := by
  cases o with
  | ignored => exact h
  | restart => exact State.cadenceLaws_warmRestart h tag
  | idle => exact ((s.takeTag_effect tag).trans (State.idleCommand_effect _ c)).cadenceLaws h
  | cleared =>
    exact (((s.takeTag_effect tag).trans (State.enter_effect _ _)).trans
      (State.finishPlain_effect _ _ _ _)).cadenceLaws h
  | aborted => exact ((s.takeTag_effect tag).trans (State.abortLoad_effect _ _ _)).cadenceLaws h
  | invalid =>
    exact ((((s.takeTag_effect tag).trans (State.discardStaging_effect _)).trans (State.enter_effect _ _)).trans
      (State.finish_effect _ _ _ _ _ _)).cadenceLaws h
  | applied _ _ _ _ outcome =>
    exact outcome.effect.cadenceLaws (State.cadenceLaws_applyLoad ((s.takeTag_effect tag).cadenceLaws h))

theorem Operation.cadenceLaws {s t : State} (o : Operation s t) (h : s.cadenceLaws) : t.cadenceLaws := by
  cases o with
  | nothing => exact h
  | drop k tag a => exact (s.guardDrop_effect k tag a).cadenceLaws h
  | store a w => exact (s.setMem_touches _).cadenceLaws h
  | page n w => exact (s.pageWrite_touches n w).cadenceLaws h
  | consume w => exact (s.consumerBeat_touches w).cadenceLaws h
  | stage i w => exact (State.stageBeat_effect _ i w).cadenceLaws ((s.pageWrite_touches _ w).cadenceLaws h)
  | command d c tag => exact (State.offer_cases _ c tag).cadenceLaws ((s.pageWrite_touches 8 _).cadenceLaws h)
  | land c n w => exact (s.landingPhase_cases c n w).cadenceLaws h
  | frameStart i => exact (s.frameStart_effect i).cadenceLaws h
  | status n => exact (s.afterStatusRead_effect n).cadenceLaws h
  | stale c => exact State.cadenceLaws_staleTimeout h c
  | sample l => exact (State.sampleInstant_effect { s with lines := l }).cadenceLaws h
  | linger i => exact (s.lingerExpiry_effect i).cadenceLaws h
  | close k => exact (s.guardClose_effect k).cadenceLaws h
  | overtime => exact s.applyingOvertime_effect.cadenceLaws h

theorem State.cadenceLaws_powerOn (s : State) (straps : BitVec 2) : (s.powerOn straps).cadenceLaws := by
  intro c
  simp [State.powerOn, State.reset, CadenceRec.powerOn, CameraRec.powerOn, CadenceRec.inRange]

/-- Settles O56: the judgement, the signature comparison, the stale timeout, an enable, a disable and a restart
each keep the ranges of one record; no other operation touches the cadence or the camera records. -/
theorem cadenceStaysInRange : Obligations.CadenceStaysInRange := fun _ _ hs h =>
  step_keeps (P := State.cadenceLaws) hs h (fun _ _ h => h) (fun _ _ _ h => h) (fun _ _ h => h) (fun _ _ _ h => h)
    (fun u straps _ => u.cadenceLaws_powerOn straps) fun _ _ h o => o.cadenceLaws h

end Sys2Proof.Machine
end

section

/-! The hold table and the order of creation stay consistent (O58): the operations of chapter 7 on the hold
unit, the operations of other blocks that call them, and the invariant through `step_keeps`. -/

namespace Sys2Proof.Machine

set_option Elab.async false

/-! ### Hold records -/

/-- A hold as a take makes it has a PRE entry alone; it is COMPLETE exactly when no post entry is asked for. -/
theorem newHold_inRange (o : Origin) (c : Camera) (t : Time) {post : Nat} (x : Taken) (stale : Bool)
    (h : post ≤ 3) : (newHold o c t post x stale).inRange := by
  refine ⟨h, ⟨_, [], rfl, rfl, Nat.zero_le _, by simp, fun hc => ?_⟩, ?_⟩
  · refine Nat.pos_of_ne_zero fun h0 => ?_
    simp [newHold] at hc
    exact hc h0
  · by_cases h0 : post = 0 <;> simp [newHold, h0]

theorem Hold.inRange_completed {x : Hold} (h : x.inRange) (cause : HoldCause) (short : Bool) :
    (x.completed cause short).inRange := by
  obtain ⟨h1, ⟨first, rest, hs, hp, hl, hr, -⟩, -⟩ := h
  exact ⟨h1, ⟨first, rest, hs, hp, hl, hr, fun e => by cases e⟩, by simp [Hold.completed]⟩

/-- The post entries of a hold are the entries behind its first. -/
theorem Hold.postCount_eq {x : Hold} {first : HoldSlot} {rest : List HoldSlot} (hs : x.slots = first :: rest)
    (hp : first.role = .pre) (hr : ∀ e ∈ rest, e.role = .post) : x.postCount = rest.length := by
  rw [Hold.postCount, hs, List.countP_cons_of_neg (by simp [hp]), List.countP_eq_length]
  simpa using hr

/-- A frame that joins a COLLECTING hold completes it, or leaves it with entries to come. -/
theorem Hold.inRange_withPost {x : Hold} (h : x.inRange) (hc : x.state = .collecting) (t : Taken) :
    ((x.withPost t).postCount = (x.withPost t).post → ((x.withPost t).completed .count false).inRange)
      ∧ ((x.withPost t).postCount ≠ (x.withPost t).post → (x.withPost t).inRange) := by
  obtain ⟨h1, ⟨first, rest, hs, hp, hl, hr, hlt⟩, hcause⟩ := h
  have hlt := hlt hc
  have slots : (x.withPost t).slots = first :: (rest ++ [⟨t.slot, t.stamp.number, .post, none⟩]) := by
    rw [Hold.withPost, hs]; rfl
  have posts : ∀ e ∈ rest ++ [⟨t.slot, t.stamp.number, .post, none⟩], e.role = HoldRole.post := by
    intro e he
    rcases List.mem_append.mp he with he | he
    · exact hr e he
    · rw [List.mem_singleton.mp he]
  have count := Hold.postCount_eq slots hp posts
  rw [List.length_append] at count
  have hpost : (x.withPost t).post = x.post := rfl
  have room : (rest ++ [(⟨t.slot, t.stamp.number, .post, none⟩ : HoldSlot)]).length ≤ x.post := by
    rw [List.length_append]; exact hlt
  refine ⟨fun _ => ⟨h1, ⟨first, _, slots, hp, room, posts, fun e => by cases e⟩, by simp [Hold.completed]⟩,
    fun hne => ⟨h1, ⟨first, _, slots, hp, room, posts, fun _ => ?_⟩, hcause⟩⟩
  rw [count, hpost] at hne
  rw [List.length_append]
  exact Nat.lt_of_le_of_ne hlt hne

/-! ### The hold unit -/

theorem HoldUnit.consistent_add {u : HoldUnit} (h : u.consistent) {i : HoldId} {x : Hold}
    (free : u.table.get i = none) (hx : x.inRange) :
    HoldUnit.consistent { u with table := upd u.table i (some x), order := u.order ++ [i] } := by
  obtain ⟨h1, h2, h3⟩ := h
  have new : i ∉ u.order := fun hi => by rw [h3, free] at hi; cases hi
  refine ⟨fun j y hj => ?_, ?_, fun j => ?_⟩
  · by_cases e : j = i
    · subst e
      rw [upd_get_self] at hj
      exact Option.some.inj hj ▸ hx
    · rw [upd_get_of_ne _ _ e] at hj
      exact h1 j y hj
  · exact List.nodup_append.mpr ⟨h2, List.nodup_singleton _, fun a ha b hb e =>
      new (List.mem_singleton.mp hb ▸ e ▸ ha)⟩
  · rw [List.mem_append, List.mem_singleton]
    by_cases e : j = i
    · subst e; simp
    · rw [upd_get_of_ne _ _ e, h3]
      simp [e]

/-- A present hold takes another value. -/
theorem HoldUnit.consistent_set {u : HoldUnit} (h : u.consistent) {i : HoldId} {x : Hold}
    (present : (u.table.get i).isSome = true) (hx : x.inRange) :
    HoldUnit.consistent { u with table := upd u.table i (some x) } := by
  obtain ⟨h1, h2, h3⟩ := h
  refine ⟨fun j y hj => ?_, h2, fun j => ?_⟩
  · by_cases e : j = i
    · subst e
      rw [upd_get_self] at hj
      exact Option.some.inj hj ▸ hx
    · rw [upd_get_of_ne _ _ e] at hj
      exact h1 j y hj
  · by_cases e : j = i
    · subst e
      rw [upd_get_self, h3, present]
      simp
    · rw [upd_get_of_ne _ _ e, h3]

theorem HoldUnit.consistent_remove {u : HoldUnit} (h : u.consistent) (i : HoldId) :
    HoldUnit.consistent { u with
      table := upd u.table i none, order := u.order.filter fun y => decide (y ≠ i) } := by
  obtain ⟨h1, h2, h3⟩ := h
  refine ⟨fun j y hj => ?_, h2.filter _, fun j => ?_⟩
  · by_cases e : j = i
    · subst e
      rw [upd_get_self] at hj
      cases hj
    · rw [upd_get_of_ne _ _ e] at hj
      exact h1 j y hj
  · by_cases e : j = i
    · subst e
      simp
    · rw [upd_get_of_ne _ _ e, List.mem_filter, h3]
      simp [e]

/-! ### Operations on the state -/

@[simp] theorem State.addHold_holds (s : State) (h : HoldId) (x : Hold) :
    (s.addHold h x).holds =
      { s.holds with table := upd s.holds.table h (some x), order := s.holds.order ++ [h] } := rfl

@[simp] theorem State.completeHold_holds (s : State) (h : HoldId) (x : Hold) (cause : HoldCause) (short : Bool) :
    (s.completeHold h x cause short).holds =
      { s.holds with table := upd s.holds.table h (some (x.completed cause short)) } := rfl

@[simp] theorem State.releaseHold_holds (s : State) (h : HoldId) (x : Hold) :
    (s.releaseHold h x).holds =
      { s.holds with table := upd s.holds.table h none, order := s.holds.order.filter fun y => decide (y ≠ h) } := rfl

theorem State.makeHold_holds (s : State) (h : HoldId) (o : Origin) (c : Camera) (post : Nat) (x : Taken) :
    (s.makeHold h o c post x).1.holds =
      (s.addHold h (newHold o c s.time post x (decide (s.cadence[c].state = .stale)))).holds := by
  unfold State.makeHold
  split <;> rfl

/-- The place that a take would use is empty. -/
theorem State.emptyPlace_eq_some {s : State} {h : HoldId} (e : s.emptyPlace = some h) : s.holds.table.get h = none := by
  have := List.find?_some e
  simpa using this

/-- An effect that does not name the hold unit leaves it consistent. -/
theorem Effect.holds_consistent {ps : List Piece} {s t : State} (e : Effect ps s t) (h : s.holds.consistent)
    (hh : Piece.holds ∉ Piece.mem :: .ring :: ps := by decide) : t.holds.consistent := by
  rw [show t.holds = s.holds from e.same .holds hh]
  exact h

theorem State.take_consistent {s : State} (h : s.holds.consistent) (o : Origin) (c : Camera) {post : Nat}
    (hp : post ≤ 3) : (s.take o c post).1.holds.consistent := by
  unfold State.take
  split
  · exact h
  · rename_i i hi
    split
    · exact h
    · split
      · exact h
      · split
        · rename_i x u hu
          have holds : u.holds = s.holds := (State.takeRequest_effect hu).same .holds
          rw [State.makeHold_holds, State.addHold_holds, holds]
          exact HoldUnit.consistent_add h (State.emptyPlace_eq_some hi) (newHold_inRange o c _ x _ hp)
        · exact h

/-- The oldest COLLECTING hold of a camera is a present hold of that camera in COLLECTING. -/
theorem State.collectingHold_eq_some {s : State} {c : Camera} {i : HoldId} {x : Hold}
    (h : s.collectingHold c = some (i, x)) :
    s.holds.table.get i = some x ∧ x.state = .collecting ∧ x.camera = c := by
  obtain ⟨j, -, hj⟩ := List.exists_of_findSome?_eq_some h
  split at hj
  · split at hj
    · rename_i hs hc
      obtain ⟨rfl, rfl⟩ := Prod.mk.inj (Option.some.inj hj)
      exact ⟨hs, hc⟩
    · cases hj
  · cases hj

theorem State.offerFrame_consistent {s : State} (h : s.holds.consistent) (c : Camera) (i : Nat) :
    (s.offerFrame c i).holds.consistent := by
  unfold State.offerFrame
  split
  · exact h
  · rename_i k x hk
    obtain ⟨hx, hc, -⟩ := State.collectingHold_eq_some hk
    have range := h.1 k x hx
    split
    · rw [State.completeHold_holds]
      exact HoldUnit.consistent_set h (by rw [hx]; rfl) (Hold.inRange_completed range _ _)
    · rename_i t u hu
      have holds : u.holds = s.holds := (State.transfer_effect hu).same .holds
      obtain ⟨full, more⟩ := Hold.inRange_withPost range hc t
      dsimp only
      split
      · rename_i he
        rw [State.completeHold_holds, holds]
        exact HoldUnit.consistent_set h (by rw [hx]; rfl) (full he)
      · rename_i hn
        rw [State.setHold_holds, holds]
        exact HoldUnit.consistent_set h (by rw [hx]; rfl) (more hn)

theorem State.completeShort_consistent {s : State} (h : s.holds.consistent) (which : Hold → Bool)
    (cause : HoldCause) : (s.completeShort which cause).holds.consistent := by
  refine List.foldlRecOn (motive := fun u : State => u.holds.consistent) _ _ h fun u hu k _ => ?_
  split
  · rename_i x hx
    split
    · rw [State.completeHold_holds]
      exact HoldUnit.consistent_set hu (by rw [hx]; rfl) (Hold.inRange_completed (hu.1 k x hx) _ _)
    · exact hu
  · exact hu

theorem State.idleHoldTake_consistent {s : State} (h : s.holds.consistent) (c n : Byte) :
    (s.idleHoldTake c n).holds.consistent := by
  unfold State.idleHoldTake
  split
  · exact h
  · split
    · exact h
    · rename_i c' _ hn
      have taken := State.take_consistent h .manual c' (Nat.not_lt.mp hn)
      dsimp only
      split
      · exact (State.finish_effect _ _ _ _ _ _).holds_consistent taken
      · exact (State.finishPlain_effect _ _ _ _).holds_consistent taken

theorem State.idleHoldRelease_consistent {s : State} (h : s.holds.consistent) (id : Byte) :
    (s.idleHoldRelease id).holds.consistent := by
  unfold State.idleHoldRelease
  split
  · exact h
  · split
    · exact h
    · refine (State.finishPlain_effect _ _ _ _).holds_consistent ?_
      rw [State.releaseHold_holds]
      exact HoldUnit.consistent_remove h _

/-! ### The invariant -/

/-- What the statement asks of the holds and of the DOOR records. -/
def State.holdLaws (s : State) : Prop := s.holds.consistent ∧ ∀ d : Door, s.doors[d].post ≤ 3

theorem Touches.holdLaws {ps : List Piece} {s t : State} (e : Touches ps s t) (h : s.holdLaws)
    (hh : Piece.holds ∉ ps := by decide) (hd : Piece.doors ∉ ps := by decide) : t.holdLaws := by
  unfold State.holdLaws
  rw [show t.holds = s.holds from e.same .holds hh, show t.doors = s.doors from e.same .doors hd]
  exact h

theorem Effect.holdLaws {ps : List Piece} {s t : State} (e : Effect ps s t) (h : s.holdLaws)
    (hh : Piece.holds ∉ Piece.mem :: .ring :: ps := by decide)
    (hd : Piece.doors ∉ Piece.mem :: .ring :: ps := by decide) : t.holdLaws := e.touches.holdLaws h hh hd

/-- An effect that leaves the DOOR records, and a hold unit that is consistent behind it. -/
theorem Effect.holdLaws_of_consistent {ps : List Piece} {s t : State} (e : Effect ps s t) (h : s.holdLaws)
    (ht : t.holds.consistent) (hd : Piece.doors ∉ Piece.mem :: .ring :: ps := by decide) : t.holdLaws :=
  ⟨ht, by rw [show t.doors = s.doors from e.same .doors hd]; exact h.2⟩

theorem State.holdLaws_sampleLines {s : State} (h : s.holdLaws) : s.sampleLines.holdLaws := by
  unfold State.sampleLines State.sampleTriggers
  have noticed := ((State.withDoorUnit_effect s (s.doorUnit.sampled s.lines)).trans
    ((State.sampleStates_effect _).trans (State.sampleNotices_effect _ s.doorUnit))).holdLaws h
  refine List.foldlRecOn (motive := fun u : State => u.holdLaws) _ _ noticed fun u hu d _ => ?_
  split
  · exact (u.take_effect _ _ _).holdLaws_of_consistent hu (State.take_consistent hu.1 _ _ (hu.2 d))
  · exact hu

theorem State.holdLaws_sampleInstant {s : State} (h : s.holdLaws) : s.sampleInstant.holdLaws := by
  unfold State.sampleInstant
  split
  · exact State.holdLaws_sampleLines ((s.withDoorUnit_effect _).holdLaws h)
  · exact h

theorem State.holdLaws_debounceChanged {s : State} (h : s.holdLaws) : s.debounceChanged.holdLaws := by
  unfold State.debounceChanged
  split
  · exact State.holdLaws_sampleLines ((s.withDoorUnit_effect _).holdLaws h)
  · exact h

theorem State.holdLaws_setupDoors {s : State} (h : s.holdLaws) (old new : SetupRec) :
    (s.setupDoors old new).holdLaws := by
  have redescribed : State.holdLaws
      (if levelActive s.doorUnit.reverse.accepted then s.redescribe .reverse old.reverse new.reverse else s) := by
    split
    · exact (s.redescribe_effect _ _ _).holdLaws h
    · exact h
  unfold State.setupDoors
  dsimp only
  split
  · exact State.holdLaws_debounceChanged redescribed
  · exact redescribed

theorem State.holdLaws_applySetup {s : State} (h : s.holdLaws) (r : SetupRec) : (s.applySetup r).holdLaws :=
  State.holdLaws_setupDoors (s := { s with
    setup := r, pool := s.pool.regeometry r.slotBase r.slotUnits r.slotCount }) h s.setup r

theorem State.holdLaws_applyCamera {s : State} (h : s.holdLaws) (c : Camera) (r : CameraRec) :
    (s.applyCamera c r).holdLaws := by
  refine (s.applyCamera_effect c r).holdLaws_of_consistent h ?_
  unfold State.applyCamera
  dsimp only
  split
  · refine (State.configureLens_effect _ c _ r).holds_consistent ?_
    unfold State.disableCamera
    refine State.completeShort_consistent ?_ _ _
    exact Effect.holds_consistent ((((((s.setCamera_effect c r).trans (State.setLens_effect _ c _)).trans
      (State.setCadence_effect _ c _)).trans (State.slotsDisable_effect _ c)).trans
      (State.cadenceTo_effect _ c _)).trans (State.lensTo_effect _ c _)) h.1
  · split
    · exact (((s.setCamera_effect c r).trans (State.configureLens_effect _ c s.cameras[c] r)).trans
        (State.enableCamera_effect _ c)).holds_consistent h.1
    · have configured := (s.setCamera_effect c r).trans (State.configureLens_effect _ c s.cameras[c] r)
      split
      · exact (configured.trans (State.staleTimeout_effect _ c)).holds_consistent h.1
      · exact configured.holds_consistent h.1

/-- The post count of a staged DOOR record is a field of two bits (11.6). -/
theorem doorOf_post_le (f : RecordBytes) : (doorOf f).post ≤ 3 := Nat.le_of_lt_succ (Nat.mod_lt _ (by decide))

theorem State.applyDoor_doors (s : State) (d : Door) (r : DoorRec) : (s.applyDoor d r).doors = upd s.doors d r := by
  unfold State.applyDoor
  have after : ∀ {u : State}, Effect [.doorUnit, .spots] (s.setDoor d r) u → u.doors = upd s.doors d r :=
    fun e => e.same .doors
  have one : ∀ (u : State) (b : Bool) (o : Origin) (p q : SpotRequest),
      Effect [.spots] u (if b then u.redescribe o p q else u) := fun u b o p q =>
    .ite (fun _ => u.redescribe_effect _ _ _) fun _ => .refl _ u
  dsimp only
  split
  · exact after (Effect.mono (((State.setDoorState_effect _ d _ _).trans (State.notice_effect _ _ _ _ _)).trans
      (State.notice_effect _ _ _ _ _)) (by decide))
  · split
    · exact after (Effect.mono (((State.setDoorState_effect _ d _ _).trans (State.notice_effect _ _ _ _ _)).trans
        (State.notice_effect _ _ _ _ _)) (by decide))
    · exact after (Effect.mono ((one _ _ _ _ _).trans (one _ _ _ _ _)) (by decide))

theorem State.holdLaws_applyDoor {s : State} (h : s.holdLaws) (d : Door) {r : DoorRec} (hr : r.post ≤ 3) :
    (s.applyDoor d r).holdLaws := by
  refine ⟨?_, fun e => ?_⟩
  · rw [show (s.applyDoor d r).holds = s.holds from (s.applyDoor_effect d r).same .holds]
    exact h.1
  · rw [State.applyDoor_doors]
    rcases upd_getElem_cases s.doors d e r with ⟨e', -⟩ | ⟨e', -⟩ <;> rw [e']
    · exact hr
    · exact h.2 e

theorem State.holdLaws_applyLoad {s : State} (h : s.holdLaws) : s.applyLoad.holdLaws := by
  have fold : ∀ {α : Type} (f : State → α → State) (l : List α), (∀ u x, State.holdLaws u → (f u x).holdLaws) →
      (l.foldl f s).holdLaws := fun f l hf =>
    List.foldlRecOn (motive := fun u : State => u.holdLaws) l f h fun u hu x _ => hf u x hu
  unfold State.applyLoad
  dsimp only
  split
  · exact fold _ _ fun u x hu => State.holdLaws_applySetup hu _
  · exact fold _ _ fun u x hu => State.holdLaws_applyCamera hu _ _
  · exact fold _ _ fun u x hu => (State.applyScreen_effect u _ _).holdLaws hu
  · exact h
  · exact h
  · exact fold _ _ fun u x hu => State.holdLaws_applyDoor hu _ (doorOf_post_le _)

theorem FrameEnded.holdLaws {s t : State} {c : Camera} {n : Nat} (e : FrameEnded s c n t) (h : s.holdLaws) :
    t.holdLaws := by
  refine e.effect.holdLaws_of_consistent h ?_
  cases e with
  | goesOn => exact h.1
  | accepted _ i =>
    unfold State.accept
    refine ((State.chooseTarget_effect _ c).trans (State.setRing_effect _ c _)).holds_consistent ?_
    refine State.offerFrame_consistent ?_ c i
    exact (((s.memberReady_effect c i).trans (State.arrival_effect _ c)).trans
      (State.lensAccepted_effect _ c _ _)).holds_consistent h.1
  | torn =>
    rw [show ((s.countTorn c).landingIdle c).holds = s.holds from
      ((s.countTorn_touches c).seq (State.landingIdle_touches _ c)).same .holds]
    exact h.1

theorem Landed.holdLaws {s t : State} {c : Camera} {n : Nat} {w : WriteData} (l : Landed s c n w t)
    (h : s.holdLaws) : t.holdLaws := by
  cases l with
  | dropped => exact h
  | starved => exact (s.setRing_effect c _).holdLaws h
  | begun _ _ i _ _ outcome => exact outcome.holdLaws ((s.beginFrame_touches c i w).holdLaws h)
  | begunAnew _ _ i _ _ outcome =>
    exact outcome.holdLaws (((s.countTorn_touches c).seq (State.beginFrame_touches _ c i w)).holdLaws h)
  | stored _ i _ _ _ outcome =>
    exact outcome.holdLaws ((State.landWord_touches _ c i n w).holdLaws ((s.setRing_effect c _).holdLaws h))
  | marked _ _ outcome => exact outcome.holdLaws ((s.setRing_effect c _).holdLaws h)

theorem State.holdLaws_idleCommand {s : State} (h : s.holdLaws) (c : Command) : (s.idleCommand c).holdLaws := by
  cases c with
  | load t f n => exact (s.idleLoad_effect t f n).holdLaws h
  | commit => exact (s.finishPlain_effect _ _ _).holdLaws h
  | abortClear => exact (s.finishPlain_effect _ _ _).holdLaws h
  | learn m => exact (s.idleLearn_effect m).holdLaws h
  | learnSuspend m => exact (s.idleLearnSuspend_effect m).holdLaws h
  | learnResume m => exact (s.idleLearnResume_effect m).holdLaws h
  | spotSet i l v => exact (s.idleSpotSet_effect i l v).holdLaws h
  | spotClear i => exact (s.idleSpotClear_effect i).holdLaws h
  | holdTake c n => exact (s.idleHoldTake_effect c n).holdLaws_of_consistent h (State.idleHoldTake_consistent h.1 c n)
  | holdRelease i =>
    exact (s.idleHoldRelease_effect i).holdLaws_of_consistent h (State.idleHoldRelease_consistent h.1 i)
  | holdLock => exact s.idleHoldLock_effect.holdLaws_of_consistent h h.1
  | snapshot => exact s.idleSnapshot_effect.holdLaws h
  | restart => exact h
  | undefinedCode x => exact (s.finishPlain_effect _ _ _).holdLaws h

theorem State.holdLaws_warmRestart {s : State} (h : s.holdLaws) (tag : Byte) : (s.warmRestart tag).holdLaws := by
  refine (s.warmRestart_effect tag).holdLaws_of_consistent h ?_
  unfold State.warmRestart State.restartBlocks
  refine ((State.withEpisodes_effect _ _).trans (State.finishPlain_effect _ _ _ _)).holds_consistent ?_
  refine State.completeShort_consistent ?_ _ _
  exact Effect.holds_consistent ((((((((((s.takeTag_effect tag).trans (State.discardStaging_effect _)).trans
    (State.cutApplying_effect _ _)).trans (State.setEngine_effect _ _)).trans (State.slotsRestart_effect _)).trans
    (State.cadenceRestart_effect _)).trans (State.lensRestart_effect _)).trans
    (State.withContexts_effect _ _)).trans (State.doorsRestart_effect _)).trans (State.spotsRestart_effect _)) h.1

theorem Offered.holdLaws {s t : State} {c : Command} {tag : Byte} (o : Offered s c tag t) (h : s.holdLaws) :
    t.holdLaws := by
  have tagged := (s.takeTag_effect tag).holdLaws h
  cases o with
  | ignored => exact h
  | restart => exact State.holdLaws_warmRestart h tag
  | idle => exact State.holdLaws_idleCommand tagged c
  | cleared => exact ((State.enter_effect _ _).trans (State.finishPlain_effect _ _ _ _)).holdLaws tagged
  | aborted => exact (State.abortLoad_effect _ _ _).holdLaws tagged
  | invalid =>
    exact (((State.discardStaging_effect _).trans (State.enter_effect _ _)).trans
      (State.finish_effect _ _ _ _ _ _)).holdLaws tagged
  | applied _ _ _ _ outcome => exact outcome.effect.holdLaws (State.holdLaws_applyLoad tagged)

theorem Operation.holdLaws {s t : State} (o : Operation s t) (h : s.holdLaws) : t.holdLaws := by
  cases o with
  | nothing => exact h
  | drop k tag a => exact (s.guardDrop_effect k tag a).holdLaws h
  | store a w => exact (s.setMem_touches _).holdLaws h
  | page n w => exact (s.pageWrite_touches n w).holdLaws h
  | consume w => exact (s.consumerBeat_touches w).holdLaws h
  | stage i w => exact (State.stageBeat_effect _ i w).holdLaws ((s.pageWrite_touches _ w).holdLaws h)
  | command d c tag => exact (State.offer_cases _ c tag).holdLaws ((s.pageWrite_touches 8 _).holdLaws h)
  | land c n w => exact (s.landingPhase_cases c n w).holdLaws h
  | frameStart i => exact (s.frameStart_effect i).holdLaws h
  | status n => exact (s.afterStatusRead_effect n).holdLaws h
  | stale c => exact (s.staleTimeout_effect c).holdLaws h
  | sample l => exact State.holdLaws_sampleInstant (s := { s with lines := l }) h
  | linger i => exact (s.lingerExpiry_effect i).holdLaws h
  | close k => exact (s.guardClose_effect k).holdLaws h
  | overtime => exact s.applyingOvertime_effect.holdLaws h

theorem State.holdLaws_powerOn (s : State) (straps : BitVec 2) : (s.powerOn straps).holdLaws := by
  refine ⟨⟨fun h x hx => ?_, List.nodup_nil, fun h => ?_⟩, fun d => ?_⟩
  · simp [State.powerOn, State.reset, HoldUnit.powerOn, Vector.get_eq_getElem] at hx
  · simp [State.powerOn, State.reset, HoldUnit.powerOn, Vector.get_eq_getElem]
  · simp [State.powerOn, State.reset, DoorRec.powerOn]

/-- Settles O58: a take adds a hold in an empty place, a collection and a completion keep a present hold's
shape, a release takes the place and the order's entry away together, and DOOR records come from two bits. -/
theorem holdsStayConsistent : Obligations.HoldsStayConsistent := fun _ _ hh hd h =>
  step_keeps (P := State.holdLaws) ⟨hh, hd⟩ h (fun _ _ h => h) (fun _ _ _ h => h) (fun _ _ h => h)
    (fun _ _ _ h => h) (fun u straps _ => u.holdLaws_powerOn straps) fun _ _ h o => o.holdLaws h

end Sys2Proof.Machine
end

section

/-! The geometry of the slot table: no operation but a SETUP record's and the release of RESET_N changes where
the slots lie and how many there are (R1). -/

namespace Sys2Proof.Machine

set_option Elab.async false

/-- The slot tables of `s` and `t` have the same base, slot size and slot count. -/
def SameGeometry (s t : State) : Prop :=
  t.pool.base = s.pool.base ∧ t.pool.units = s.pool.units ∧ t.pool.slots.length = s.pool.slots.length

theorem SameGeometry.refl (s : State) : SameGeometry s s := ⟨rfl, rfl, rfl⟩

theorem SameGeometry.trans {s t u : State} (h : SameGeometry s t) (k : SameGeometry t u) : SameGeometry s u :=
  ⟨k.1.trans h.1, k.2.1.trans h.2.1, k.2.2.trans h.2.2⟩

theorem SameGeometry.of_pool {s t : State} (h : t.pool = s.pool) : SameGeometry s t := by
  unfold SameGeometry
  rw [h]
  exact ⟨rfl, rfl, rfl⟩

theorem SameGeometry.slotBytes {s t : State} (h : SameGeometry s t) : t.pool.slotBytes = s.pool.slotBytes := by
  unfold SlotPool.slotBytes
  rw [h.2.1]

/-- An effect that does not name the pool. -/
theorem Effect.geometry {ps : List Piece} {s t : State} (e : Effect ps s t)
    (hp : Piece.pool ∉ Piece.mem :: .ring :: ps := by decide) : SameGeometry s t := .of_pool (e.same .pool hp)

theorem Touches.geometry {ps : List Piece} {s t : State} (e : Touches ps s t) (hp : Piece.pool ∉ ps := by decide) :
    SameGeometry s t := .of_pool (e.same .pool hp)

theorem SameGeometry.foldl {α : Type} {f : State → α → State} (h : ∀ s x, SameGeometry s (f s x)) (l : List α)
    (s : State) : SameGeometry s (l.foldl f s) :=
  List.foldlRecOn (motive := fun u => SameGeometry s u) l f (.refl s) fun u hu x _ => hu.trans (h u x)

theorem State.setSlot_geometry (s : State) (i : Nat) (r : SlotRec) : SameGeometry s (s.setSlot i r) :=
  ⟨rfl, rfl, by simp⟩

/-- Every slot record is replaced by a function of itself. -/
theorem State.mapSlots_geometry (s : State) (f : SlotRec → SlotRec) :
    SameGeometry s { s with pool := { s.pool with slots := s.pool.slots.map f } } :=
  ⟨rfl, rfl, by simp⟩

/-! ### Slot Manager -/

theorem State.takeTarget_geometry {s t : State} {c : Camera} (h : s.takeTarget c = some t) : SameGeometry s t := by
  unfold State.takeTarget at h
  split at h
  · cases h
    exact (s.setRing_effect _ _).geometry.trans (State.setSlot_geometry _ _ _)
  · cases h

theorem State.chooseTarget_geometry (s : State) (c : Camera) : SameGeometry s (s.chooseTarget c) := by
  unfold State.chooseTarget
  split
  · exact State.takeTarget_geometry ‹_›
  · exact (Effect.emit s _).geometry

theorem State.endStarved_geometry (s : State) (c : Camera) : SameGeometry s (s.endStarved c) := by
  unfold State.endStarved
  split
  · exact (State.takeTarget_geometry ‹_›).trans (Effect.emit _ _).geometry
  · exact .refl s

theorem State.claimSlots_geometry (n : Nat) (s : State) (c : Camera) : SameGeometry s (s.claimSlots c n).2 := by
  induction n generalizing s with
  | zero => exact .refl s
  | succ n ih =>
    unfold State.claimSlots State.claimSlot
    split
    · rename_i i u h
      split at h
      · cases h
        exact (s.setSlot_geometry _ _).trans (ih _)
      · cases h
    · exact .refl s

theorem State.buildRing_geometry (s : State) (c : Camera) (k : Nat) : SameGeometry s (s.buildRing c k) := by
  have h := s.claimSlots_geometry k c
  unfold State.buildRing
  generalize s.claimSlots c k = x at h ⊢
  obtain ⟨is, u⟩ := x
  cases is with
  | nil => exact h.trans (u.setRing_effect _ _).geometry
  | cons i is => exact (h.trans (u.setRing_effect _ _).geometry).trans (State.setSlot_geometry _ _ _)

theorem State.slotsEnable_geometry (s : State) (c : Camera) : SameGeometry s (s.slotsEnable c) :=
  (s.buildRing_geometry c _).trans (State.setRing_effect _ _ _).geometry

theorem State.slotsDisable_geometry (s : State) (c : Camera) : SameGeometry s (s.slotsDisable c) :=
  (s.mapSlots_geometry _).trans (State.setRing_effect _ _ _).geometry

theorem State.pin_geometry (s : State) (c : Camera) : SameGeometry s (s.pin c).1 := by
  unfold State.pin
  split
  · exact s.setSlot_geometry _ _
  · exact .refl s

theorem State.unpinned_geometry (s : State) (i : Nat) : SameGeometry s (s.unpinned i) := by
  unfold State.unpinned
  split
  · split
    · exact s.endStarved_geometry _
    · exact .refl s
  · exact .refl s
  · exact .refl s
  · exact s.setSlot_geometry _ _
  · exact .refl s
  · exact .refl s

theorem State.unpin_geometry (s : State) (i : Nat) : SameGeometry s (s.unpin i) := by
  unfold State.unpin
  dsimp only
  split
  · exact .refl s
  · split
    · exact (s.setSlot_geometry _ _).trans (State.unpinned_geometry _ _)
    · exact s.setSlot_geometry _ _

theorem State.transfer_geometry {s t : State} {c : Camera} {h : HoldId} {i : Nat} {x : Taken}
    (e : s.transfer c h i = some (x, t)) : SameGeometry s t := by
  unfold State.transfer at e
  split at e
  · cases e
  · cases e
    exact (((s.setRing_effect c _).geometry.trans (State.setSlot_geometry _ _ _)).trans
      (State.setSlot_geometry _ _ _)).trans (State.joinEmpty_effect _ c _).geometry

theorem State.takeRequest_geometry {s t : State} {c : Camera} {h : HoldId} {x : Taken}
    (e : s.takeRequest c h = some (x, t)) : SameGeometry s t := by
  unfold State.takeRequest at e
  split at e
  · cases e
  · split at e
    · cases e
    · rename_i y u hu
      cases e
      split
      · exact (State.transfer_geometry hu).trans (State.endStarved_geometry _ _)
      · exact State.transfer_geometry hu

theorem State.slotsRestart_geometry (s : State) : SameGeometry s s.slotsRestart := by
  unfold State.slotsRestart
  refine SameGeometry.trans (t := { s with
    pool := { s.pool with slots := s.pool.slots.map SlotRec.restarted }
    rings := Vector.ofFn fun c : Fin 16 => s.rings[c].restarted }) ⟨rfl, rfl, by simp⟩ (.foldl (fun u c => ?_) _ _)
  split
  · exact u.buildRing_geometry _ _
  · exact .refl u

/-! ### The blocks that call it -/

theorem State.take_geometry (s : State) (o : Origin) (c : Camera) (n : Nat) : SameGeometry s (s.take o c n).1 := by
  have refuse : ∀ reason, SameGeometry s (s.refuseTake o c n reason).1 := fun _ => (Effect.emit s _).geometry
  unfold State.take
  split
  · exact refuse _
  · split
    · exact refuse _
    · split
      · exact refuse _
      · split
        · exact (State.takeRequest_geometry ‹_›).trans (State.makeHold_effect _ _ _ _ _ _).geometry
        · exact refuse _

theorem State.offerFrame_geometry (s : State) (c : Camera) (i : Nat) : SameGeometry s (s.offerFrame c i) := by
  unfold State.offerFrame
  split
  · exact .refl s
  · split
    · exact (s.completeHold_effect _ _ _ _).geometry
    · dsimp only
      split
      · exact (State.transfer_geometry ‹_›).trans (State.completeHold_effect _ _ _ _ _).geometry
      · exact (State.transfer_geometry ‹_›).trans (State.setHold_effect _ _ _).geometry

theorem State.releaseHold_geometry (s : State) (h : HoldId) (x : Hold) : SameGeometry s (s.releaseHold h x) := by
  unfold State.releaseHold State.releaseSlots
  exact (s.mapSlots_geometry _).trans ((State.withHolds_effect _ _).trans (Effect.emit _ _)).geometry

theorem State.sampleLines_geometry (s : State) : SameGeometry s s.sampleLines := by
  unfold State.sampleLines State.sampleTriggers
  refine SameGeometry.trans (Effect.geometry (((s.withDoorUnit_effect _).trans (State.sampleStates_effect _)).trans
    (State.sampleNotices_effect _ _))) (.foldl (fun u d => ?_) _ _)
  split
  · exact u.take_geometry _ _ _
  · exact .refl u

theorem State.sampleInstant_geometry (s : State) : SameGeometry s s.sampleInstant := by
  unfold State.sampleInstant
  split
  · exact (s.withDoorUnit_effect _).geometry.trans (State.sampleLines_geometry _)
  · exact .refl s

theorem State.debounceChanged_geometry (s : State) : SameGeometry s s.debounceChanged := by
  unfold State.debounceChanged
  split
  · exact (s.withDoorUnit_effect _).geometry.trans (State.sampleLines_geometry _)
  · exact .refl s

theorem State.setupDoors_geometry (s : State) (old new : SetupRec) : SameGeometry s (s.setupDoors old new) := by
  have redescribed : SameGeometry s
      (if levelActive s.doorUnit.reverse.accepted then s.redescribe .reverse old.reverse new.reverse else s) := by
    split
    · exact (s.redescribe_effect _ _ _).geometry
    · exact .refl s
  unfold State.setupDoors
  dsimp only
  split
  · exact redescribed.trans (State.debounceChanged_geometry _)
  · exact redescribed

theorem State.releaseContext_geometry (s : State) (i : Screen) : SameGeometry s (s.releaseContext i) := by
  unfold State.releaseContext
  split
  · exact .refl s
  · exact (SameGeometry.foldl (fun u j => u.unpin_geometry j) _ s).trans (State.setContext_effect _ _ _).geometry

theorem State.pinShown_geometry (s : State) (cams : List Camera) : SameGeometry s (s.pinShown cams).1 := by
  unfold State.pinShown
  exact List.foldlRecOn (motive := fun x : State × List (Camera × Option Nat) => SameGeometry s x.1) cams _ (.refl s)
    fun x hx c _ => hx.trans (x.1.pin_geometry c)

theorem State.latch_geometry (s : State) (i : Screen) : SameGeometry s (s.latch i) :=
  ((s.releaseContext_geometry i).trans (State.pinShown_geometry _ _)).trans (State.setContext_effect _ _ _).geometry

theorem State.applyScreen_geometry (s : State) (i : Screen) (r : ScreenRec) : SameGeometry s (s.applyScreen i r) := by
  unfold State.applyScreen
  dsimp only
  split
  · exact (s.setScreen_effect i r).geometry.trans (State.releaseContext_geometry _ _)
  · exact (s.setScreen_effect i r).geometry

theorem State.disableCamera_geometry (s : State) (c : Camera) (old new : CameraRec) :
    SameGeometry s (s.disableCamera c old new) := by
  unfold State.disableCamera
  exact (((s.setLens_effect c _).trans (State.setCadence_effect _ c _)).geometry.trans
    (State.slotsDisable_geometry _ c)).trans (((State.cadenceTo_effect _ c _).trans (State.lensTo_effect _ c _)).trans
    (State.completeShort_effect _ _ _)).geometry

theorem State.enableCamera_geometry (s : State) (c : Camera) : SameGeometry s (s.enableCamera c) := by
  unfold State.enableCamera
  exact (s.slotsEnable_geometry c).trans ((State.cadenceTo_effect _ c _).trans (State.lensTo_effect _ c _)).geometry

theorem State.applyCamera_geometry (s : State) (c : Camera) (r : CameraRec) : SameGeometry s (s.applyCamera c r) := by
  unfold State.applyCamera
  dsimp only
  split
  · exact ((s.setCamera_effect c r).geometry.trans (State.disableCamera_geometry _ c _ r)).trans
      (State.configureLens_effect _ c _ r).geometry
  · split
    · exact ((s.setCamera_effect c r).trans (State.configureLens_effect _ c _ r)).geometry.trans
        (State.enableCamera_geometry _ c)
    · split
      · exact (((s.setCamera_effect c r).trans (State.configureLens_effect _ c _ r)).trans
          (State.staleTimeout_effect _ c)).geometry
      · exact ((s.setCamera_effect c r).trans (State.configureLens_effect _ c _ r)).geometry

theorem State.memberReady_geometry (s : State) (c : Camera) (i : Nat) : SameGeometry s (s.memberReady c i) :=
  (s.setRing_effect c _).geometry.trans (State.setSlot_geometry _ i _)

theorem State.accept_geometry (s : State) (c : Camera) (i : Nat) : SameGeometry s (s.accept c i) := by
  unfold State.accept
  exact ((((s.memberReady_geometry c i).trans ((State.arrival_effect _ c).trans
    (State.lensAccepted_effect _ c _ _)).geometry).trans (State.offerFrame_geometry _ c i)).trans
    (State.chooseTarget_geometry _ c)).trans (State.setRing_effect _ c _).geometry

theorem FrameEnded.geometry {s t : State} {c : Camera} {n : Nat} (e : FrameEnded s c n t) : SameGeometry s t := by
  cases e with
  | goesOn => exact .refl s
  | accepted _ i => exact s.accept_geometry c i
  | torn => exact ((s.countTorn_touches c).seq (State.landingIdle_touches _ c)).geometry

theorem Landed.geometry {s t : State} {c : Camera} {n : Nat} {w : WriteData} (l : Landed s c n w t) :
    SameGeometry s t := by
  cases l with
  | dropped => exact .refl s
  | starved => exact (s.setRing_effect c _).geometry
  | begun _ _ i _ _ outcome => exact (s.beginFrame_touches c i w).geometry.trans outcome.geometry
  | begunAnew _ _ i _ _ outcome =>
    exact ((s.countTorn_touches c).seq (State.beginFrame_touches _ c i w)).geometry.trans outcome.geometry
  | stored _ i _ _ _ outcome =>
    exact ((s.setRing_effect c _).geometry.trans (State.landWord_touches _ c i n w).geometry).trans outcome.geometry
  | marked _ _ outcome => exact (s.setRing_effect c _).geometry.trans outcome.geometry

theorem State.idleHoldTake_geometry (s : State) (c n : Byte) : SameGeometry s (s.idleHoldTake c n) := by
  unfold State.idleHoldTake
  split
  · exact (s.finishPlain_effect _ _ _).geometry
  · split
    · exact (s.finishPlain_effect _ _ _).geometry
    · dsimp only
      split
      · exact (s.take_geometry _ _ _).trans (State.finish_effect _ _ _ _ _ _).geometry
      · exact (s.take_geometry _ _ _).trans (State.finishPlain_effect _ _ _ _).geometry

theorem State.idleHoldRelease_geometry (s : State) (h : Byte) : SameGeometry s (s.idleHoldRelease h) := by
  unfold State.idleHoldRelease
  split
  · exact (s.finishPlain_effect _ _ _).geometry
  · split
    · exact (s.finishPlain_effect _ _ _).geometry
    · exact (s.releaseHold_geometry _ _).trans (State.finishPlain_effect _ _ _ _).geometry

theorem State.idleCommand_geometry (s : State) (c : Command) : SameGeometry s (s.idleCommand c) := by
  cases c with
  | load t f n => exact (s.idleLoad_effect t f n).geometry
  | commit => exact (s.finishPlain_effect _ _ _).geometry
  | abortClear => exact (s.finishPlain_effect _ _ _).geometry
  | learn m => exact (s.idleLearn_effect m).geometry
  | learnSuspend m => exact (s.idleLearnSuspend_effect m).geometry
  | learnResume m => exact (s.idleLearnResume_effect m).geometry
  | spotSet i l v => exact (s.idleSpotSet_effect i l v).geometry
  | spotClear i => exact (s.idleSpotClear_effect i).geometry
  | holdTake c n => exact s.idleHoldTake_geometry c n
  | holdRelease h => exact s.idleHoldRelease_geometry h
  | holdLock => exact s.idleHoldLock_effect.geometry
  | snapshot => exact s.idleSnapshot_effect.geometry
  | restart => exact .refl s
  | undefinedCode x => exact (s.finishPlain_effect _ _ _).geometry

theorem State.warmRestart_geometry (s : State) (tag : Byte) : SameGeometry s (s.warmRestart tag) := by
  unfold State.warmRestart State.restartBlocks
  exact ((((s.takeTag_effect tag).trans (State.discardStaging_effect _)).trans ((State.cutApplying_effect _ _).trans
    (State.setEngine_effect _ _))).geometry.trans (State.slotsRestart_geometry _)).trans
    (Effect.geometry ((((((((State.cadenceRestart_effect _).trans (State.lensRestart_effect _)).trans
    (State.withContexts_effect _ _)).trans (State.doorsRestart_effect _)).trans (State.spotsRestart_effect _)).trans
    (State.completeShort_effect _ _ _)).trans (State.withEpisodes_effect _ _)).trans
    (State.finishPlain_effect _ _ _ _)))

/-- A load of another table than SETUP. -/
theorem State.applyLoad_geometry {s : State} (h : s.engine.load.table ≠ .setup) : SameGeometry s s.applyLoad := by
  unfold State.applyLoad
  dsimp only
  split
  · exact absurd ‹_› h
  · exact .foldl (fun u x => u.applyCamera_geometry _ _) _ s
  · exact .foldl (fun u x => u.applyScreen_geometry _ _) _ s
  · exact .of_pool rfl
  · exact .of_pool rfl
  · exact .foldl (fun u x => (u.applyDoor_effect _ _).geometry) _ s

end Sys2Proof.Machine
end

section

/-! The slot area stays that of SETUP, in frame memory, and off the report ring and the control page (O60): what
a SETUP record and a CAMERA record that pass validation leave, and the invariant through `step_keeps`. -/

namespace Sys2Proof.Machine

set_option Elab.async false

/-! ### The place of the ring -/

/-- The report rings of `s` and `t` have the same place. -/
def SameRingPlace (s t : State) : Prop := t.ring.base = s.ring.base ∧ t.ring.capacity = s.ring.capacity

theorem Effect.ringPlace {ps : List Piece} {s t : State} (e : Effect ps s t) : SameRingPlace s t := by
  obtain ⟨rs, -, hr⟩ := e.logs
  unfold SameRingPlace
  rw [hr]
  exact ⟨(s.emitAll_ring_place rs).1, (s.emitAll_ring_place rs).2.1⟩

theorem ReportRing.reconfigure_base (g : ReportRing) (base capacity : Nat) :
    (g.reconfigure base capacity).base = base := by
  unfold ReportRing.reconfigure
  split
  · rename_i h; exact h.1
  · rfl

theorem ReportRing.reconfigure_capacity (g : ReportRing) (base capacity : Nat) :
    (g.reconfigure base capacity).capacity = capacity := by
  unfold ReportRing.reconfigure
  split
  · rename_i h; exact h.2
  · rfl

@[simp] theorem ReportRing.consume_base (g : ReportRing) (w : WriteData) : (g.consume w).base = g.base := by
  unfold ReportRing.consume
  dsimp only
  split <;> rfl

@[simp] theorem ReportRing.consume_capacity (g : ReportRing) (w : WriteData) :
    (g.consume w).capacity = g.capacity := by
  unfold ReportRing.consume
  dsimp only
  split <;> rfl

/-! ### What the regions depend on -/

/-- The regions stand as they were while the slot geometry, SETUP, the ring's place, the straps and the CAMERA
records do. -/
theorem State.regionsApart_congr {s t : State} (g : SameGeometry s t) (p : SameRingPlace s t)
    (hs : t.setup = s.setup) (hp : t.straps = s.straps) (hc : t.cameras = s.cameras) (h : s.regionsApart) :
    t.regionsApart := by
  obtain ⟨hb, hu, hl⟩ := g
  have area : ∀ a, t.pool.inArea a = s.pool.inArea a := fun a => by
    unfold SlotPool.inArea SlotPool.slotBytes
    rw [decide_eq_decide, hb, hu, hl]
  have ring : ∀ a, t.ring.outsideRing a ↔ s.ring.outsideRing a := fun a => by
    simp only [ReportRing.outsideRing, p.1, p.2]
  have page : ∀ a, t.inPage a ↔ s.inPage a := fun a => by
    simp only [State.inPage, State.pageBase, hp]
  unfold State.regionsApart
  simp only [area, ring, page, hb, hu, hl, hs, hc, SlotPool.slotBytes]
  exact h

theorem Effect.regionsApart {ps : List Piece} {s t : State} (e : Effect ps s t) (g : SameGeometry s t)
    (h : s.regionsApart) (hs : Piece.setup ∉ Piece.mem :: .ring :: ps := by decide)
    (hp : Piece.straps ∉ Piece.mem :: .ring :: ps := by decide)
    (hc : Piece.cameras ∉ Piece.mem :: .ring :: ps := by decide) : t.regionsApart :=
  State.regionsApart_congr g e.ringPlace (e.same .setup hs) (e.same .straps hp) (e.same .cameras hc) h

theorem Touches.regionsApart {ps : List Piece} {s t : State} (e : Touches ps s t) (g : SameGeometry s t)
    (p : SameRingPlace s t) (h : s.regionsApart) (hs : Piece.setup ∉ ps := by decide)
    (hp : Piece.straps ∉ ps := by decide) (hc : Piece.cameras ∉ ps := by decide) : t.regionsApart :=
  State.regionsApart_congr g p (e.same .setup hs) (e.same .straps hp) (e.same .cameras hc) h

/-! ### A SETUP record -/

theorem overlap_eq_false_iff {a alen b blen : Nat} :
    overlap a alen b blen = false ↔ ¬(a < b + blen ∧ b < a + alen ∧ 0 < alen ∧ 0 < blen) := by
  simp only [overlap, decide_eq_false_iff_not]

/-- Runs that do not overlap share no address. -/
theorem outside_of_overlap_eq_false {a alen b blen x : Nat} (h : overlap a alen b blen = false)
    (hx : a ≤ x ∧ x < a + alen) : ¬(b ≤ x ∧ x < b + blen) := by
  rw [overlap_eq_false_iff] at h
  omega

theorem SlotPool.regeometry_base (p : SlotPool) (base units count : Nat) :
    (p.regeometry base units count).base = base := by
  unfold SlotPool.regeometry freshPool
  split
  · rename_i h; exact h.1
  · rfl

theorem SlotPool.regeometry_units (p : SlotPool) (base units count : Nat) :
    (p.regeometry base units count).units = units := by
  unfold SlotPool.regeometry freshPool
  split
  · rename_i h; exact h.2.1
  · rfl

theorem SlotPool.regeometry_length (p : SlotPool) (base units count : Nat) :
    (p.regeometry base units count).slots.length = count := by
  unfold SlotPool.regeometry freshPool
  split
  · rename_i h; exact h.2.2
  · simp

/-- The slot table after a SETUP record is the record's. -/
theorem State.applySetup_geometry (s : State) (r : SetupRec) :
    (s.applySetup r).pool.base = r.slotBase ∧ (s.applySetup r).pool.units = r.slotUnits
      ∧ (s.applySetup r).pool.slots.length = r.slotCount := by
  obtain ⟨hb, hu, hl⟩ := State.setupDoors_geometry { s with
    setup := r, pool := s.pool.regeometry r.slotBase r.slotUnits r.slotCount } s.setup r
  exact ⟨hb.trans (SlotPool.regeometry_base _ _ _ _), hu.trans (SlotPool.regeometry_units _ _ _ _),
    hl.trans (SlotPool.regeometry_length _ _ _ _)⟩

theorem State.applySetup_setup (s : State) (r : SetupRec) : (s.applySetup r).setup = r :=
  (State.setupDoors_effect { s with
    setup := r, pool := s.pool.regeometry r.slotBase r.slotUnits r.slotCount } s.setup r).same .setup

theorem State.applySetup_ringPlace (s : State) (r : SetupRec) :
    (s.applySetup r).ring.base = r.ringBase ∧ (s.applySetup r).ring.capacity = r.ringCapacity :=
  ⟨ReportRing.reconfigure_base _ _ _, ReportRing.reconfigure_capacity _ _ _⟩

/-- The slot area of a record that passes lies in frame memory, off the record's ring and off the page. -/
theorem SetupRec.area_of_areaFits {r : SetupRec} {page a : Nat} (fits : r.areaFits page = true)
    (ha : r.slotBase ≤ a ∧ a < r.slotBase + r.slotCount * (r.slotUnits * Config.slotUnit)) :
    a < Config.memoryBytes ∧ outside r.ringBase (r.ringCapacity * Config.reportBytes) a
      ∧ ¬(page ≤ a ∧ a < page + Config.pageBytes) := by
  simp only [SetupRec.areaFits, SetupRec.areaLen, SetupRec.ringLen, Bool.or_eq_true, Bool.and_eq_true,
    decide_eq_true_eq, Bool.not_eq_true'] at fits
  rcases fits with h0 | ⟨⟨hm, hp⟩, hr⟩
  · rw [h0, Nat.zero_mul] at ha
    omega
  · have hm := of_decide_eq_true hm
    exact ⟨by omega, outside_of_overlap_eq_false hr ha, outside_of_overlap_eq_false hp ha⟩

/-- After a SETUP record that passes, its regions are apart, if the enabled cameras' frames fit its slots. -/
theorem State.regionsApart_applySetup {s : State} {r : SetupRec} (range : r.inRange = true)
    (fits : r.areaFits s.pageBase = true)
    (frames : ∀ c : Camera, s.cameras[c].enable = true →
      s.cameras[c].w * s.cameras[c].h * 2 ≤ r.slotUnits * Config.slotUnit) : (s.applySetup r).regionsApart := by
  obtain ⟨hb, hu, hl⟩ := s.applySetup_geometry r
  obtain ⟨gb, gc⟩ := s.applySetup_ringPlace r
  have straps : (s.applySetup r).straps = s.straps := (s.applySetup_touches r).same .straps
  have cameras : (s.applySetup r).cameras = s.cameras := (s.applySetup_touches r).same .cameras
  have align : r.slotBase % 65536 = 0 := by
    simp only [SetupRec.inRange, Bool.and_eq_true, decide_eq_true_eq] at range
    obtain ⟨⟨⟨⟨⟨⟨⟨⟨⟨-, h⟩, -⟩, -⟩, -⟩, -⟩, -⟩, -⟩, -⟩, -⟩ := range
    exact h
  refine ⟨?_, ?_, ?_, ?_, fun a ha => ?_, fun c hc => ?_⟩
  · rw [hb, State.applySetup_setup]
  · rw [hu, State.applySetup_setup]
  · rw [hl, State.applySetup_setup]
  · rw [hb]; exact align
  · simp only [SlotPool.inArea, SlotPool.slotBytes, hb, hu, hl, decide_eq_true_eq] at ha
    simp only [ReportRing.outsideRing, gb, gc, State.inPage, State.pageBase, straps]
    exact SetupRec.area_of_areaFits fits ha
  · rw [cameras] at hc ⊢
    rw [SlotPool.slotBytes, hu]
    exact frames c hc

/-- Every slot geometry that a SETUP load brings is the one in force, or no camera is enabled (R162). -/
theorem State.geometry_of_setupChecks {s : State} {r : SetupRec} (h : ∀ c ∈ s.setupChecks r, c.holds = true) :
    (∀ c : Camera, s.cameras[c].enable = false)
      ∨ r.slotBase = s.setup.slotBase ∧ r.slotUnits = s.setup.slotUnits ∧ r.slotCount = s.setup.slotCount := by
  obtain ⟨-, -, -, -, -, busy⟩ := State.setupChecks_hold_iff.mp h
  simp only [Bool.or_eq_true, Bool.not_eq_true', Bool.and_eq_true, List.all_eq_true, List.mem_finRange,
    true_implies] at busy
  rcases busy with same | ⟨⟨off, -⟩, -⟩
  · right
    simpa [SetupRec.newGeometry, and_assoc] using same
  · exact .inl off

/-- A staged SETUP record, applied behind others of its load. -/
theorem State.regionsApart_setupRecord {s u : State} {r : SetupRec} (h : s.regionsApart)
    (checks : ∀ c ∈ s.setupChecks r, c.holds = true) (straps : u.straps = s.straps) (cameras : u.cameras = s.cameras) :
    (u.applySetup r).regionsApart := by
  obtain ⟨range, -, -, -, fits, -⟩ := State.setupChecks_hold_iff.mp checks
  refine State.regionsApart_applySetup range ?_ fun c hon => ?_
  · rw [State.pageBase, straps]; exact fits
  · rw [cameras] at hon ⊢
    rcases State.geometry_of_setupChecks checks with off | ⟨-, units, -⟩
    · rw [off c] at hon; cases hon
    · obtain ⟨-, sameUnits, -, -, -, frames⟩ := h
      rw [units, ← sameUnits]
      exact frames c hon

theorem State.regionsApart_applyLoad_setup {s : State} (h : s.regionsApart) (hv : s.validate = none)
    (ht : s.engine.load.table = .setup) : s.applyLoad.regionsApart := by
  have checks := State.setupChecks_of_validate hv ht
  rw [State.applyLoad_of_setup ht]
  refine (List.foldlRecOn
    (motive := fun u : State => u.regionsApart ∧ u.straps = s.straps ∧ u.cameras = s.cameras) _ _
    ⟨h, rfl, rfl⟩ fun u hu x hx => ?_).1
  obtain ⟨-, hp, hc⟩ := hu
  have touched := u.applySetup_touches (setupOf x.2)
  exact ⟨State.regionsApart_setupRecord h (checks x hx) hp hc, (touched.same .straps).trans hp,
    (touched.same .cameras).trans hc⟩

/-! ### A CAMERA record -/

theorem State.applyCamera_cameras (s : State) (c : Camera) (r : CameraRec) :
    (s.applyCamera c r).cameras = upd s.cameras c r := by
  unfold State.applyCamera
  dsimp only
  split
  · exact ((State.disableCamera_effect (s.setCamera c r) c _ r).trans
      (State.configureLens_effect _ c _ r)).same .cameras
  · split
    · exact ((State.configureLens_effect (s.setCamera c r) c _ r).trans (State.enableCamera_effect _ c)).same .cameras
    · split
      · exact ((State.configureLens_effect (s.setCamera c r) c _ r).trans (State.staleTimeout_effect _ c)).same .cameras
      · exact (State.configureLens_effect (s.setCamera c r) c _ r).same .cameras

theorem State.regionsApart_applyCamera {s : State} (h : s.regionsApart) (c : Camera) {r : CameraRec}
    (fits : r.w * r.h * 2 ≤ s.pool.slotBytes) : (s.applyCamera c r).regionsApart := by
  have e := s.applyCamera_effect c r
  have stored : (s.setCamera c r).regionsApart := by
    obtain ⟨h1, h2, h3, h4, h5, h6⟩ := h
    refine ⟨h1, h2, h3, h4, h5, fun d hd => ?_⟩
    rw [State.setCamera_cameras] at hd ⊢
    rcases upd_getElem_cases s.cameras c d r with ⟨e, rfl⟩ | ⟨e, -⟩ <;> rw [e] at hd ⊢
    · exact fits
    · exact h6 d hd
  exact State.regionsApart_congr (s := s.setCamera c r) (s.applyCamera_geometry c r) e.ringPlace (e.same .setup)
    (e.same .straps) (s.applyCamera_cameras c r) stored

theorem State.regionsApart_applyLoad_cameras {s : State} (h : s.regionsApart) (hv : s.validate = none)
    (ht : s.engine.load.table = .cameras) : s.applyLoad.regionsApart := by
  have checks := (State.cameraChecks_of_validate hv ht).1
  unfold State.applyLoad
  dsimp only
  rw [ht]
  refine (List.foldlRecOn
    (motive := fun u : State => u.regionsApart ∧ u.pool.slotBytes = s.pool.slotBytes) _ _
    ⟨h, rfl⟩ fun u hu x hx => ?_).1
  refine ⟨State.regionsApart_applyCamera hu.1 x.1 ?_, (u.applyCamera_geometry x.1 x.2).slotBytes.trans hu.2⟩
  have range := checks x hx ⟨_, .badRange⟩ (List.mem_cons_self ..)
  simp only [Bool.and_eq_true, decide_eq_true_eq] at range
  obtain ⟨⟨⟨⟨⟨⟨-, fits⟩, -⟩, -⟩, -⟩, -⟩, -⟩ := range
  rw [hu.2]
  exact fits

theorem State.regionsApart_applyLoad {s : State} (h : s.regionsApart) (hv : s.validate = none) :
    s.applyLoad.regionsApart := by
  by_cases hs : s.engine.load.table = .setup
  · exact State.regionsApart_applyLoad_setup h hv hs
  · by_cases hc : s.engine.load.table = .cameras
    · exact State.regionsApart_applyLoad_cameras h hv hc
    · have e := State.applyLoad_effect hs
      exact State.regionsApart_congr (State.applyLoad_geometry hs) e.ringPlace (e.same .setup) (e.same .straps)
        (s.applyLoad_touches.same .cameras (by revert hs hc; cases s.engine.load.table <;> decide)) h

/-! ### The invariant -/

theorem Landed.ringPlace {s t : State} {c : Camera} {n : Nat} {w : WriteData} (l : Landed s c n w t) :
    SameRingPlace s t := by
  cases l with
  | dropped => exact ⟨rfl, rfl⟩
  | starved => exact ⟨rfl, rfl⟩
  | begun _ _ i _ _ outcome =>
    have := outcome.effect.ringPlace
    rwa [SameRingPlace, State.beginFrame_ring] at this
  | begunAnew _ _ i _ _ outcome =>
    have := outcome.effect.ringPlace
    rwa [SameRingPlace, State.beginFrame_ring, State.countTorn_ring] at this
  | stored _ i _ _ _ outcome =>
    have := outcome.effect.ringPlace
    rwa [SameRingPlace, State.landWord_ring, State.setRing_ring] at this
  | marked _ _ outcome => exact outcome.effect.ringPlace

theorem Offered.regionsApart {s t : State} {c : Command} {tag : Byte} (o : Offered s c tag t) (h : s.regionsApart) :
    t.regionsApart := by
  have tagged : (s.takeTag tag).regionsApart := (s.takeTag_effect tag).regionsApart (s.takeTag_effect tag).geometry h
  cases o with
  | ignored => exact h
  | restart => exact (s.warmRestart_effect tag).regionsApart (s.warmRestart_geometry tag) h
  | idle => exact (State.idleCommand_effect _ c).regionsApart (State.idleCommand_geometry _ c) tagged
  | cleared =>
    have e := (State.enter_effect (s.takeTag tag) .idle).trans (State.finishPlain_effect _ 0x03 .done .none)
    exact e.regionsApart e.geometry tagged
  | aborted _ code reason =>
    have e := State.abortLoad_effect (s.takeTag tag) code reason
    exact e.regionsApart e.geometry tagged
  | invalid _ _ f =>
    have e := ((State.discardStaging_effect (s.takeTag tag)).trans (State.enter_effect _ .idle)).trans
      (State.finish_effect _ 0x02 .invalid f.reason (b8 f.table.code) (BitVec.ofNat 16 f.index))
    exact e.regionsApart e.geometry tagged
  | applied _ _ _ passed outcome =>
    exact outcome.effect.regionsApart outcome.effect.geometry (State.regionsApart_applyLoad tagged passed)

theorem Operation.regionsApart {s t : State} (o : Operation s t) (h : s.regionsApart) : t.regionsApart := by
  cases o with
  | nothing => exact h
  | drop k tag a => exact h
  | store a w => exact h
  | page n w => exact h
  | consume w =>
    exact (s.consumerBeat_touches w).regionsApart (s.consumerBeat_touches w).geometry
      ⟨ReportRing.consume_base _ _, ReportRing.consume_capacity _ _⟩ h
  | stage i w =>
    have e := State.stageBeat_effect (s.pageWrite (256 + i.val) w) i w
    exact e.regionsApart e.geometry h
  | command d c tag => exact (State.offer_cases (s.pageWrite 8 ⟨0xFF, d⟩) c tag).regionsApart h
  | land c n w =>
    have l := s.landingPhase_cases c n w
    exact (s.landingPhase_touches c n w).regionsApart l.geometry l.ringPlace h
  | frameStart i =>
    exact (s.frameStart_effect i).regionsApart
      ((s.latch_geometry i).trans (State.frameStartNotice_effect _ i).geometry) h
  | status n => exact (s.afterStatusRead_effect n).regionsApart (s.afterStatusRead_effect n).geometry h
  | stale c => exact (s.staleTimeout_effect c).regionsApart (s.staleTimeout_effect c).geometry h
  | sample l =>
    exact (State.sampleInstant_effect { s with lines := l }).regionsApart (State.sampleInstant_geometry _) h
  | linger i => exact (s.lingerExpiry_effect i).regionsApart (s.lingerExpiry_effect i).geometry h
  | close k => exact (s.guardClose_effect k).regionsApart (s.guardClose_effect k).geometry h
  | overtime => exact s.applyingOvertime_effect.regionsApart s.applyingOvertime_effect.geometry h

theorem State.regionsApart_powerOn (s : State) (straps : BitVec 2) : (s.powerOn straps).regionsApart := by
  refine ⟨rfl, rfl, rfl, rfl, fun a ha => ?_, fun c hc => ?_⟩
  · simp [SlotPool.inArea, State.powerOn, State.reset] at ha
  · simp [State.powerOn, State.reset, CameraRec.powerOn] at hc

/-- Settles O60: only a SETUP record moves the slot area or the ring, and it has passed BAD_RING and BAD_AREA; only
a CAMERA record makes a frame larger, and it has passed BAD_RANGE against the slot size. -/
theorem regionsStayApart : Obligations.RegionsStayApart := fun _ _ hs h =>
  step_keeps (P := State.regionsApart) hs h (fun _ _ h => h) (fun _ _ _ h => h) (fun _ _ h => h)
    (fun _ _ _ h => h) (fun u straps _ => u.regionsApart_powerOn straps) fun _ _ h o => o.regionsApart h

end Sys2Proof.Machine
end

section

/-! R121's order of spotlight entries: what an insertion keeps, by level alone and by level, activation and rank
(O55). Order numbers and activation times are coherent when entries activated together have no other entry's
number between theirs; on coherent entries `comesBefore` is total and transitive. -/

namespace Sys2Proof.Machine

set_option Elab.async false

/-! ### The order of two entries -/

theorem rankOf_eq_rank (o : Origin) : rankOf o = o.rank := by cases o <;> rfl

theorem standsBefore_iff {a b : SpotEntry} : standsBefore a b = true ↔ comesBefore a b := by
  unfold standsBefore comesBefore
  rw [rankOf_eq_rank, rankOf_eq_rank]
  by_cases h : a.activated = b.activated <;> simp [h]

/-- The codes of 11.2 tell the origins apart. -/
theorem rankOf_injective : Function.Injective rankOf := by
  intro a b h
  rcases a with d | d | _ | _ <;> rcases b with e | e | _ | _ <;> simp only [rankOf] at h
    <;> first | omega | rfl | exact congrArg _ (Fin.ext (by omega))

/-- A stamp of an entry: its order number and its activation time. -/
def SpotEntry.stamp (e : SpotEntry) : Nat × Time := (e.order, e.activated)

/-- Order numbers and activation times that belong together: no number twice, all below the count of entries
created, none between the numbers of entries activated together but theirs, and the entries activated at the
present value the latest. -/
def Coherent (now : Time) (created : Nat) (es : List SpotEntry) : Prop :=
  (es.map SpotEntry.order).Nodup ∧ (∀ e ∈ es, e.order < created)
    ∧ (∀ a ∈ es, ∀ b ∈ es, ∀ c ∈ es,
        a.order < b.order → b.order < c.order → a.activated = c.activated → b.activated = c.activated)
    ∧ ∀ a ∈ es, ∀ b ∈ es, a.activated = now → a.order < b.order → b.activated = now

theorem Coherent.of_stamps {now : Time} {created : Nat} {es fs : List SpotEntry} (h : Coherent now created es)
    (sub : (fs.map SpotEntry.stamp).Subperm (es.map SpotEntry.stamp)) : Coherent now created fs := by
  obtain ⟨h1, h2, h3, h4⟩ := h
  have like : ∀ f ∈ fs, ∃ e ∈ es, e.order = f.order ∧ e.activated = f.activated := by
    intro f hf
    obtain ⟨e, he, hs⟩ := List.mem_map.mp (sub.subset (List.mem_map_of_mem hf))
    exact ⟨e, he, congrArg Prod.fst hs, congrArg Prod.snd hs⟩
  have orders : ∀ l : List SpotEntry, l.map SpotEntry.order = (l.map SpotEntry.stamp).map Prod.fst := fun l => by
    rw [List.map_map]; rfl
  refine ⟨?_, fun f hf => ?_, fun a ha b hb c hc => ?_, fun a ha b hb => ?_⟩
  · rw [orders] at h1 ⊢
    obtain ⟨l, hp, hl⟩ := sub
    exact (hp.map Prod.fst).nodup_iff.mp (h1.sublist (hl.map _))
  · obtain ⟨e, he, ho, -⟩ := like f hf
    exact ho ▸ h2 e he
  · obtain ⟨a', ha', hao, haa⟩ := like a ha
    obtain ⟨b', hb', hbo, hba⟩ := like b hb
    obtain ⟨c', hc', hco, hca⟩ := like c hc
    rw [← hao, ← hbo, ← hco, ← haa, ← hba, ← hca]
    exact h3 a' ha' b' hb' c' hc'
  · obtain ⟨a', ha', hao, haa⟩ := like a ha
    obtain ⟨b', hb', hbo, hba⟩ := like b hb
    rw [← hao, ← hbo, ← haa, ← hba]
    exact h4 a' ha' b' hb'

theorem Coherent.sublist {now : Time} {created : Nat} {es fs : List SpotEntry} (h : Coherent now created es)
    (sub : fs.Sublist es) : Coherent now created fs :=
  h.of_stamps (sub.map _).subperm

/-- A new entry takes the next number at the present value. -/
theorem Coherent.cons_new {now : Time} {created : Nat} {es : List SpotEntry} {e : SpotEntry}
    (h : Coherent now created es) (ho : e.order = created) (ha : e.activated = now) :
    Coherent now (created + 1) (e :: es) := by
  obtain ⟨h1, h2, h3, h4⟩ := h
  refine ⟨?_, fun f hf => ?_, fun a ha' b hb c hc hab hbc hac => ?_, fun a ha' b hb hnow hab => ?_⟩
  · rw [List.map_cons, List.nodup_cons]
    refine ⟨fun hm => ?_, h1⟩
    obtain ⟨f, hf, he⟩ := List.mem_map.mp hm
    have := h2 f hf
    omega
  · rcases List.mem_cons.mp hf with rfl | hf
    · omega
    · exact Nat.lt_succ_of_lt (h2 f hf)
  · have below : ∀ x ∈ e :: es, x.order ≤ created := fun x hx => by
      rcases List.mem_cons.mp hx with rfl | hx
      · exact ho.le
      · exact (h2 x hx).le
    have old : ∀ x ∈ e :: es, x.order < created → x ∈ es := fun x hx hlt => by
      rcases List.mem_cons.mp hx with rfl | hx
      · omega
      · exact hx
    have hcle := below c hc
    have hae := old a ha' (by omega)
    have hbe := old b hb (by omega)
    rcases List.mem_cons.mp hc with rfl | hce
    · rw [ha] at hac ⊢
      exact h4 a hae b hbe hac hab
    · exact h3 a hae b hbe c hce hab hbc hac
  · rcases List.mem_cons.mp hb with rfl | hbe
    · exact ha
    · have hae : a ∈ es := by
        rcases List.mem_cons.mp ha' with rfl | h'
        · have := h2 b hbe
          omega
        · exact h'
      exact h4 a hae b hbe hnow hab

section Order

variable {now : Time} {created : Nat} {es : List SpotEntry}

theorem Coherent.order_ne (h : Coherent now created es) {a b : SpotEntry} (ha : a ∈ es) (hb : b ∈ es)
    (hne : a ≠ b) : a.order ≠ b.order := fun e => hne (List.inj_on_of_nodup_map h.1 ha hb e)

/-- Two coherent entries of different origins are ordered one way or the other. -/
theorem Coherent.total (h : Coherent now created es) {a b : SpotEntry} (ha : a ∈ es) (hb : b ∈ es)
    (hne : a.origin ≠ b.origin) (hn : ¬comesBefore a b) : comesBefore b a := by
  have ho := h.order_ne ha hb fun e => hne (congrArg _ e)
  have hr : rankOf a.origin ≠ rankOf b.origin := fun e => hne (rankOf_injective e)
  unfold comesBefore at hn ⊢
  by_cases hact : a.activated = b.activated
  · simp only [hact, ne_eq, not_true_eq_false, false_and, true_and, false_or] at hn ⊢
    omega
  · simp only [hact, Ne.symm hact, ne_eq, not_false_eq_true, false_and, true_and, or_false] at hn ⊢
    omega

/-- R121's order is transitive on coherent entries. -/
theorem Coherent.trans (h : Coherent now created es) {a b c : SpotEntry} (ha : a ∈ es) (hb : b ∈ es) (hc : c ∈ es)
    (hab : comesBefore a b) (hbc : comesBefore b c) : comesBefore a c := by
  have order_ne : ∀ {x y : SpotEntry}, x ∈ es → y ∈ es → x.activated ≠ y.activated → x.order ≠ y.order :=
    fun hx hy hne => h.order_ne hx hy fun e => hne (congrArg _ e)
  obtain ⟨-, -, between, -⟩ := h
  rcases hab with hab | ⟨lab, hab⟩
  · rcases hbc with hbc | ⟨lbc, -⟩
    · exact .inl (hbc.trans hab)
    · exact .inl (lbc ▸ hab)
  · rcases hbc with hbc | ⟨lbc, hbc⟩
    · exact .inl (lab ▸ hbc)
    · refine .inr ⟨lab.trans lbc, ?_⟩
      rcases hab with ⟨nab, oab⟩ | ⟨eab, rab⟩ <;> rcases hbc with ⟨nbc, obc⟩ | ⟨ebc, rbc⟩
      · exact .inl ⟨fun e => nbc (between a ha b hb c hc oab obc e), oab.trans obc⟩
      · have nac : a.activated ≠ c.activated := ebc ▸ nab
        refine .inl ⟨nac, (Nat.lt_or_gt_of_ne (order_ne ha hc nac)).resolve_right fun hlt => nac ?_⟩
        exact (between c hc a ha b hb hlt oab ebc.symm).trans ebc
      · have nac : a.activated ≠ c.activated := eab ▸ nbc
        refine .inl ⟨nac, (Nat.lt_or_gt_of_ne (order_ne ha hc nac)).resolve_right fun hlt => nac ?_⟩
        exact (between b hb c hc a ha obc hlt eab.symm).symm
      · exact .inr ⟨eab.trans ebc, rab.trans rbc⟩

end Order

/-! ### Insertion -/

theorem insertSpot_perm (e : SpotEntry) (es : List SpotEntry) : (insertSpot e es).Perm (e :: es) := by
  induction es with
  | nil => exact .refl _
  | cons b bs ih =>
    unfold insertSpot
    split
    · exact .refl _
    · exact (ih.cons b).trans (.swap e b bs)

@[simp] theorem insertSpot_length (e : SpotEntry) (es : List SpotEntry) :
    (insertSpot e es).length = es.length + 1 := (insertSpot_perm e es).length_eq

/-- An insertion keeps a relation between the entries of the list that `standsBefore` decides. -/
theorem insertSpot_pairwise {R : SpotEntry → SpotEntry → Prop} {e : SpotEntry} {es : List SpotEntry}
    (h : es.Pairwise R) (before : ∀ b ∈ es, standsBefore e b = false → R b e)
    (after : ∀ b ∈ es, standsBefore e b = true → R e b)
    (trans : ∀ b ∈ es, ∀ c ∈ es, R e b → R b c → R e c) : (insertSpot e es).Pairwise R := by
  induction es with
  | nil => exact List.pairwise_singleton R e
  | cons b bs ih =>
    obtain ⟨hb, hbs⟩ := List.pairwise_cons.mp h
    unfold insertSpot
    split
    · rename_i hs
      have heb := after b (List.mem_cons_self ..) hs
      refine List.pairwise_cons.mpr ⟨fun c hc => ?_, h⟩
      rcases List.mem_cons.mp hc with rfl | hc'
      · exact heb
      · exact trans b (List.mem_cons_self ..) c hc heb (hb c hc')
    · rename_i hs
      refine List.pairwise_cons.mpr ⟨fun c hc => ?_, ?_⟩
      · rcases List.mem_cons.mp ((insertSpot_perm e bs).mem_iff.mp hc) with rfl | hc'
        · exact before b (List.mem_cons_self ..) (Bool.eq_false_of_not_eq_true hs)
        · exact hb c hc'
      · exact ih hbs (fun c hc => before c (List.mem_cons_of_mem _ hc))
          (fun c hc => after c (List.mem_cons_of_mem _ hc))
          fun c hc d hd => trans c (List.mem_cons_of_mem _ hc) d (List.mem_cons_of_mem _ hd)

/-- Levels go on descending. -/
theorem insertSpot_levels {e : SpotEntry} {es : List SpotEntry} (h : es.Pairwise fun a b => b.level ≤ a.level) :
    (insertSpot e es).Pairwise fun a b => b.level ≤ a.level := by
  refine insertSpot_pairwise h (fun b _ hs => ?_) (fun b _ hs => ?_) fun b _ c _ heb hbc => hbc.trans heb
  · have hn : ¬comesBefore e b := fun hc => by rw [standsBefore_iff.mpr hc] at hs; cases hs
    exact Nat.not_lt.mp fun hlt => hn (.inl hlt)
  · rcases standsBefore_iff.mp hs with hlt | ⟨heq, -⟩
    · exact hlt.le
    · exact heq.ge

/-- An insertion into coherent entries puts them in R121's order. -/
theorem insertSpot_comesBefore {now : Time} {created : Nat} {e : SpotEntry} {es : List SpotEntry}
    (h : es.Pairwise comesBefore) (coherent : Coherent now created (e :: es))
    (new : ∀ b ∈ es, b.origin ≠ e.origin) : (insertSpot e es).Pairwise comesBefore := by
  have here : e ∈ e :: es := List.mem_cons_self ..
  have there : ∀ {b}, b ∈ es → b ∈ e :: es := fun hb => List.mem_cons_of_mem _ hb
  refine insertSpot_pairwise h (fun b hb hs => ?_) (fun b _ hs => standsBefore_iff.mp hs) fun b hb c hc =>
    coherent.trans here (there hb) (there hc)
  refine coherent.total here (there hb) (new b hb).symm fun hc => ?_
  rw [standsBefore_iff.mpr hc] at hs
  cases hs

/-! ### The lists that the operations build -/

/-- What R121 asks of the entries of a list, but for their activation. -/
def EntriesInOrder (es : List SpotEntry) : Prop :=
  es.length ≤ Config.spotMax ∧ (es.map SpotEntry.origin).Nodup ∧ es.Pairwise fun a b => b.level ≤ a.level

/-- R121's order of activation, with what an insertion at the present value needs to keep it. -/
def EntriesActivated (now : Time) (created : Nat) (es : List SpotEntry) : Prop :=
  es.Pairwise comesBefore ∧ Coherent now created es

theorem EntriesInOrder.sublist {es fs : List SpotEntry} (h : EntriesInOrder es) (sub : fs.Sublist es) :
    EntriesInOrder fs := ⟨sub.length_le.trans h.1, h.2.1.sublist (sub.map _), h.2.2.sublist sub⟩

theorem EntriesActivated.sublist {now : Time} {created : Nat} {es fs : List SpotEntry}
    (h : EntriesActivated now created es) (sub : fs.Sublist es) : EntriesActivated now created fs :=
  ⟨h.1.sublist sub, h.2.sublist sub⟩

/-- What R121's order reads of an entry: origin, level, activation time and order number. -/
def SpotEntry.ranked (e : SpotEntry) : SpotEntry := { e with active := true, layout := 0, linger := 0 }

theorem EntriesInOrder.congr {es fs : List SpotEntry} (h : EntriesInOrder es)
    (same : fs.map SpotEntry.ranked = es.map SpotEntry.ranked) : EntriesInOrder fs := by
  have through : ∀ l : List SpotEntry, EntriesInOrder l ↔ EntriesInOrder (l.map SpotEntry.ranked) := fun l => by
    simp only [EntriesInOrder, List.length_map, List.map_map, List.pairwise_map]
    exact Iff.rfl
  rw [through] at h ⊢
  rwa [same]

theorem EntriesActivated.congr {now : Time} {created : Nat} {es fs : List SpotEntry}
    (h : EntriesActivated now created es) (same : fs.map SpotEntry.ranked = es.map SpotEntry.ranked) :
    EntriesActivated now created fs := by
  refine ⟨?_, h.2.of_stamps ?_⟩
  · have through : ∀ l : List SpotEntry, l.Pairwise comesBefore ↔ (l.map SpotEntry.ranked).Pairwise comesBefore :=
      fun l => by rw [List.pairwise_map]; exact Iff.rfl
    rw [through, same, ← through]
    exact h.1
  · have through : ∀ l : List SpotEntry, l.map SpotEntry.stamp = (l.map SpotEntry.ranked).map SpotEntry.stamp :=
      fun l => by rw [List.map_map]; rfl
    rw [through, through es, same]

/-- A map that leaves what the order reads of each entry. -/
theorem map_ranked_of_forall {es : List SpotEntry} {f : SpotEntry → SpotEntry}
    (h : ∀ e ∈ es, (f e).ranked = e.ranked) : (es.map f).map SpotEntry.ranked = es.map SpotEntry.ranked := by
  rw [List.map_map]
  exact List.map_congr_left h

theorem EntriesInOrder.insert {e : SpotEntry} {es : List SpotEntry} (h : EntriesInOrder es)
    (room : es.length < Config.spotMax) (new : ∀ b ∈ es, b.origin ≠ e.origin) : EntriesInOrder (insertSpot e es) := by
  refine ⟨by rw [insertSpot_length]; exact room, ?_, insertSpot_levels h.2.2⟩
  rw [((insertSpot_perm e es).map _).nodup_iff, List.map_cons, List.nodup_cons]
  refine ⟨fun hm => ?_, h.2.1⟩
  obtain ⟨b, hb, he⟩ := List.mem_map.mp hm
  exact new b hb he

theorem EntriesActivated.insert {now : Time} {created : Nat} {e : SpotEntry} {es : List SpotEntry}
    (h : es.Pairwise comesBefore) (coherent : Coherent now created (e :: es))
    (new : ∀ b ∈ es, b.origin ≠ e.origin) : EntriesActivated now created (insertSpot e es) :=
  ⟨insertSpot_comesBefore h coherent new, coherent.of_stamps ((insertSpot_perm e es).map _).subperm⟩

/-- The entry of an origin is the only one. -/
theorem eq_of_mem_of_origin {es : List SpotEntry} (h : (es.map SpotEntry.origin).Nodup) {a b : SpotEntry}
    (ha : a ∈ es) (hb : b ∈ es) (e : a.origin = b.origin) : a = b := List.inj_on_of_nodup_map h ha hb e

theorem SpotList.entryOf_eq_some {l : SpotList} {o : Origin} {e : SpotEntry} (h : l.entryOf o = some e) :
    e ∈ l.entries ∧ e.origin = o := ⟨List.mem_of_find?_eq_some h, by simpa using List.find?_some h⟩

theorem SpotList.entryOf_eq_none {l : SpotList} {o : Origin} (h : l.entryOf o = none) :
    ∀ b ∈ l.entries, b.origin ≠ o := by
  simpa [SpotList.entryOf] using h

/-- The entries of other origins than a present one are fewer. -/
theorem length_filter_origin_lt {es : List SpotEntry} {e : SpotEntry} (he : e ∈ es) :
    (es.filter fun x => decide (x.origin ≠ e.origin)).length < es.length :=
  List.length_filter_lt_length_iff_exists.mpr ⟨e, he, by simp⟩

theorem EntriesInOrder.refresh {es : List SpotEntry} (h : EntriesInOrder es) {e : SpotEntry} (he : e ∈ es)
    (level layout : Nat) : EntriesInOrder (refreshEntry es e level layout) := by
  unfold refreshEntry
  dsimp only
  split
  · rename_i hl
    refine h.congr (map_ranked_of_forall fun x hx => ?_)
    split
    · rename_i ho
      rw [eq_of_mem_of_origin h.2.1 hx he ho, hl]
      rfl
    · rfl
  · exact (h.sublist List.filter_sublist).insert (Nat.lt_of_lt_of_le (length_filter_origin_lt he) h.1) (by simp)

theorem EntriesActivated.refresh {now : Time} {created : Nat} {es : List SpotEntry} (h : EntriesInOrder es)
    (k : EntriesActivated now created es) {e : SpotEntry} (he : e ∈ es) (level layout : Nat) :
    EntriesActivated now created (refreshEntry es e level layout) := by
  unfold refreshEntry
  dsimp only
  split
  · rename_i hl
    refine k.congr (map_ranked_of_forall fun x hx => ?_)
    split
    · rename_i ho
      rw [eq_of_mem_of_origin h.2.1 hx he ho, hl]
      rfl
    · rfl
  · have sub : (es.filter fun x => decide (x.origin ≠ e.origin)).Sublist es := List.filter_sublist
    refine .insert (k.1.sublist sub) (k.2.of_stamps ?_) (by simp)
    obtain ⟨l, hp, hl⟩ := List.cons_subperm_of_not_mem_of_mem (a := e) (by simp) he sub.subperm
    exact ⟨l.map SpotEntry.stamp, hp.map _, hl.map _⟩

end Sys2Proof.Machine
end

section

/-! What the operations do to the spotlight lists: a list changes only by raises, ends, expiries and restarts at
the standing time (`SpotMove`), and each of them keeps R121's order (O55). -/

namespace Sys2Proof.Machine

set_option Elab.async false

/-! ### One operation on one list -/

/-- One change of one list at time `now`. -/
inductive SpotMove (now : Time) (l : SpotList) : SpotList → Prop where
  | raised (i : Screen) (o : Origin) (level layout : Nat) : SpotMove now l (raiseIn i now o level layout l).1
  | ended (i : Screen) (o : Origin) (lingerMs : Nat) : SpotMove now l (endIn i now o lingerMs l).1
  | expired (i : Screen) : SpotMove now l (expireIn i now l).1
  | emptied : SpotMove now l { l with entries := [], counting := none }

/-- The stop of counting sets remaining lingers alone. -/
theorem bankLinger_eq_map (old : SpotList) (t : Time) (new : List SpotEntry) :
    ∃ f : SpotEntry → Nat, bankLinger old t new = new.map fun e => { e with linger := f e } := by
  unfold bankLinger
  split
  · rename_i t0 g _ _
    refine ⟨fun e => if e.origin = g.origin then e.linger - elapsed t0 t else e.linger,
      List.map_congr_left fun e _ => ?_⟩
    split
    · rename_i h; simp only [if_pos h]
    · rename_i h; simp only [if_neg h]
  · exact ⟨SpotEntry.linger, (List.map_id _).symm⟩

/-- A closed change holds the new entries but for their remaining lingers. -/
theorem closeChange_entries (s : Screen) (t : Time) (old : SpotList) (new : List SpotEntry) (created : Nat)
    (renewed : Bool) : ∃ f : SpotEntry → Nat,
      (closeChange s t old new created renewed).1.entries = new.map fun e => { e with linger := f e } := by
  unfold closeChange
  dsimp only
  split
  · exact ⟨SpotEntry.linger, (List.map_id _).symm⟩
  · exact bankLinger_eq_map old t new

@[simp] theorem closeChange_created (s : Screen) (t : Time) (old : SpotList) (new : List SpotEntry) (created : Nat)
    (renewed : Bool) : (closeChange s t old new created renewed).1.created = created := rfl

theorem closeChange_ranked (s : Screen) (t : Time) (old : SpotList) (new : List SpotEntry) (created : Nat)
    (renewed : Bool) : (closeChange s t old new created renewed).1.entries.map SpotEntry.ranked
      = new.map SpotEntry.ranked := by
  obtain ⟨f, hf⟩ := closeChange_entries s t old new created renewed
  rw [hf]
  exact map_ranked_of_forall fun _ _ => rfl

/-- A closed change counts a linger exactly when its governing entry is inactive (R124). -/
theorem closeChange_counting (s : Screen) (t : Time) (old : SpotList) (new : List SpotEntry) (created : Nat)
    (renewed : Bool) : (closeChange s t old new created renewed).1.counting.isSome = true ↔
      ∃ e, new.head? = some e ∧ e.active = false := by
  unfold closeChange
  dsimp only
  split
  · rename_i h
    simp only [countingGoesOn, Bool.and_eq_true] at h
    obtain ⟨⟨⟨some, -⟩, -⟩, inactive⟩ := h
    cases hn : new.head? <;> simp_all
  · cases hn : new.head? with
    | none => simp
    | some e => cases ha : e.active <;> simp [ha]

theorem SpotList.inOrder_iff {l : SpotList} : l.inOrder ↔
    EntriesInOrder l.entries ∧ (l.counting.isSome = true ↔ ∃ e, l.entries.head? = some e ∧ e.active = false) := by
  unfold SpotList.inOrder EntriesInOrder SpotList.governing
  simp only [and_assoc]

theorem closeChange_inOrder (s : Screen) {t : Time} {old : SpotList} {new : List SpotEntry} {created : Nat}
    {renewed : Bool} (h : EntriesInOrder new) : (closeChange s t old new created renewed).1.inOrder := by
  refine SpotList.inOrder_iff.mpr ⟨h.congr (closeChange_ranked ..), (closeChange_counting ..).trans ?_⟩
  obtain ⟨f, hf⟩ := closeChange_entries s t old new created renewed
  rw [hf, List.head?_map]
  cases new.head? <;> simp

theorem raiseIn_inOrder {l : SpotList} (h : l.inOrder) (i : Screen) (t : Time) (o : Origin) (level layout : Nat) :
    (raiseIn i t o level layout l).1.inOrder := by
  have entries := (SpotList.inOrder_iff.mp h).1
  unfold raiseIn
  split
  · rename_i e he
    exact closeChange_inOrder i (entries.refresh (SpotList.entryOf_eq_some he).1 level layout)
  · rename_i hn
    have new := SpotList.entryOf_eq_none hn
    dsimp only
    split
    · exact closeChange_inOrder i (entries.insert ‹_› new)
    · split
      · exact h
      · rename_i last hl
        split
        · refine closeChange_inOrder i ((entries.sublist (List.dropLast_sublist _)).insert ?_ fun b hb =>
            new b (List.mem_of_mem_dropLast hb))
          have pos := List.length_pos_of_mem (List.mem_of_getLast? hl)
          have most := entries.1
          rw [List.length_dropLast]
          omega
        · exact h

theorem endIn_inOrder {l : SpotList} (h : l.inOrder) (i : Screen) (t : Time) (o : Origin) (lingerMs : Nat) :
    (endIn i t o lingerMs l).1.inOrder := by
  have entries := (SpotList.inOrder_iff.mp h).1
  unfold endIn
  split
  · exact h
  · split
    · exact closeChange_inOrder i (entries.sublist List.filter_sublist)
    · exact closeChange_inOrder i (entries.congr (map_ranked_of_forall fun x _ => by split <;> rfl))

theorem SpotMove.inOrder {now : Time} {l m : SpotList} (v : SpotMove now l m) (h : l.inOrder) : m.inOrder := by
  cases v with
  | raised i o level layout => exact raiseIn_inOrder h ..
  | ended i o lingerMs => exact endIn_inOrder h ..
  | expired i => exact closeChange_inOrder i ((SpotList.inOrder_iff.mp h).1.sublist (List.tail_sublist _))
  | emptied => exact ⟨Nat.zero_le _, List.nodup_nil, List.Pairwise.nil, by simp [SpotList.governing]⟩

/-! ### The order of activation -/

/-- A list in R121's whole order, with nothing activated a whole turn of the time base ago. -/
def SpotList.Activated (now : Time) (l : SpotList) : Prop :=
  l.inOrder ∧ EntriesActivated now l.created l.entries

theorem SpotList.activated_iff {now : Time} {l : SpotList} :
    l.Activated now ↔ l.inOrder ∧ l.inActivationOrder ∧ l.noneOneTurnOld now := by
  unfold SpotList.Activated EntriesActivated Coherent SpotList.inActivationOrder SpotList.noneOneTurnOld
  tauto

section Moves

variable {now : Time} {l : SpotList}

theorem closeChange_activated (i : Screen) {new : List SpotEntry} {created : Nat} {renewed : Bool}
    (h : EntriesActivated now created new) : EntriesActivated now (closeChange i now l new created renewed).1.created
      (closeChange i now l new created renewed).1.entries := h.congr (closeChange_ranked ..)

/-- A new entry of the present value. -/
theorem EntriesActivated.insertNew {es : List SpotEntry} {created : Nat} (h : EntriesActivated now created es)
    {e : SpotEntry} (number : e.order = created) (activated : e.activated = now)
    (new : ∀ b ∈ es, b.origin ≠ e.origin) : EntriesActivated now (created + 1) (insertSpot e es) :=
  .insert h.1 (h.2.cons_new number activated) new

theorem raiseIn_activated (h : l.Activated now) (i : Screen) (o : Origin) (level layout : Nat) :
    EntriesActivated now (raiseIn i now o level layout l).1.created (raiseIn i now o level layout l).1.entries := by
  obtain ⟨order, activated⟩ := h
  unfold raiseIn
  split
  · rename_i e he
    exact closeChange_activated i
      (activated.refresh (SpotList.inOrder_iff.mp order).1 (SpotList.entryOf_eq_some he).1 level layout)
  · rename_i hn
    have new := SpotList.entryOf_eq_none hn
    dsimp only
    split
    · exact closeChange_activated i (activated.insertNew rfl rfl new)
    · split
      · exact activated
      · split
        · exact closeChange_activated i ((activated.sublist (List.dropLast_sublist _)).insertNew rfl rfl fun b hb =>
            new b (List.mem_of_mem_dropLast hb))
        · exact activated

theorem endIn_activated (h : l.Activated now) (i : Screen) (o : Origin) (lingerMs : Nat) :
    EntriesActivated now (endIn i now o lingerMs l).1.created (endIn i now o lingerMs l).1.entries := by
  unfold endIn
  split
  · exact h.2
  · split
    · exact closeChange_activated i (h.2.sublist List.filter_sublist)
    · exact closeChange_activated i (h.2.congr (map_ranked_of_forall fun x _ => by split <;> rfl))

theorem SpotMove.activated {m : SpotList} (v : SpotMove now l m) (h : l.Activated now) : m.Activated now := by
  refine ⟨v.inOrder h.1, ?_⟩
  cases v with
  | raised i o level layout => exact raiseIn_activated h ..
  | ended i o lingerMs => exact endIn_activated h ..
  | expired i => exact closeChange_activated i (h.2.sublist (List.tail_sublist _))
  | emptied => exact h.2.sublist (List.nil_sublist _)

end Moves

/-! ### The operations of the part -/

/-- From `s` to `t` the spotlight lists change only by moves at the standing time. -/
def SpotsMoved (s t : State) : Prop :=
  t.time = s.time ∧ ∀ i : Screen, Relation.ReflTransGen (SpotMove s.time) s.spots[i] t.spots[i]

theorem SpotsMoved.refl (s : State) : SpotsMoved s s := ⟨rfl, fun _ => .refl⟩

theorem SpotsMoved.trans {s t u : State} (h : SpotsMoved s t) (k : SpotsMoved t u) : SpotsMoved s u := by
  obtain ⟨ht, hm⟩ := h
  obtain ⟨kt, km⟩ := k
  rw [ht] at kt km
  exact ⟨kt, fun i => (hm i).trans (km i)⟩

theorem SpotsMoved.foldl {α : Type} {f : State → α → State} (h : ∀ s x, SpotsMoved s (f s x)) (l : List α) (s : State) :
    SpotsMoved s (l.foldl f s) :=
  List.foldlRecOn (motive := fun u : State => SpotsMoved s u) l f (.refl s) fun _ hu x _ => hu.trans (h _ x)

theorem SpotsMoved.of_same {s t : State} (spots : t.spots = s.spots) (time : t.time = s.time) : SpotsMoved s t :=
  ⟨time, fun _ => by rw [spots]⟩

theorem Effect.spotsMoved {ps : List Piece} {s t : State} (e : Effect ps s t)
    (hs : Piece.spots ∉ Piece.mem :: .ring :: ps := by decide) : SpotsMoved s t := .of_same (e.same .spots hs) e.time

theorem Touches.spotsMoved {ps : List Piece} {s t : State} (e : Touches ps s t)
    (hs : Piece.spots ∉ ps := by decide) (ht : Piece.time ∉ ps := by decide) : SpotsMoved s t :=
  .of_same (e.same .spots hs) (e.same .time ht)

theorem State.spotTo_spotsMoved {s : State} {i : Screen} {x : SpotList × List Report}
    (h : SpotMove s.time s.spots[i] x.1) : SpotsMoved s (s.spotTo i x) := by
  refine SpotsMoved.trans (t := s.setSpot i x.1) ⟨rfl, fun j => ?_⟩ (Effect.emitAll (s.setSpot i x.1) x.2).spotsMoved
  rw [State.setSpot_spots]
  rcases upd_getElem_cases s.spots i j x.1 with ⟨e, rfl⟩ | ⟨e, -⟩
  · rw [e]; exact .single h
  · rw [e]

theorem State.raiseOn_spotsMoved (s : State) (i : Screen) (o : Origin) (level layout : Nat) :
    SpotsMoved s (s.raiseOn i o level layout) := State.spotTo_spotsMoved (.raised i o level layout)

theorem State.endOn_spotsMoved (s : State) (i : Screen) (o : Origin) (lingerMs : Nat) :
    SpotsMoved s (s.endOn i o lingerMs) := State.spotTo_spotsMoved (.ended i o lingerMs)

theorem State.raiseOrigin_spotsMoved (s : State) (o : Origin) (q : SpotRequest) : SpotsMoved s (s.raiseOrigin o q) :=
  .foldl (fun s i => by
    split
    · exact s.raiseOn_spotsMoved ..
    · exact .refl s) _ s

theorem State.endOrigin_spotsMoved (s : State) (o : Origin) (lingerMs : Nat) : SpotsMoved s (s.endOrigin o lingerMs) :=
  .foldl (fun s i => s.endOn_spotsMoved i o lingerMs) _ s

theorem State.redescribeOn_spotsMoved (s : State) (o : Origin) (old new : SpotRequest) (i : Screen) :
    SpotsMoved s (s.redescribeOn o old new i) := by
  unfold State.redescribeOn
  dsimp only
  split
  · exact s.raiseOn_spotsMoved ..
  · split
    · exact s.endOn_spotsMoved ..
    · split
      · split
        · split
          · exact s.raiseOn_spotsMoved ..
          · exact .refl s
        · exact .refl s
      · exact .refl s

theorem State.redescribe_spotsMoved (s : State) (o : Origin) (old new : SpotRequest) :
    SpotsMoved s (s.redescribe o old new) := .foldl (fun s i => s.redescribeOn_spotsMoved o old new i) _ s

theorem State.lingerExpiry_spotsMoved (s : State) (i : Screen) : SpotsMoved s (s.lingerExpiry i) := by
  unfold State.lingerExpiry
  split
  · exact State.spotTo_spotsMoved (.expired i)
  · exact .refl s

theorem State.notice_spotsMoved (s : State) (o : Origin) (q : SpotRequest) (was is : Bool) :
    SpotsMoved s (s.notice o q was is) := by
  unfold State.notice
  split
  · exact s.raiseOrigin_spotsMoved ..
  · split
    · exact s.endOrigin_spotsMoved ..
    · exact .refl s

theorem State.sampleNotices_spotsMoved (s : State) (u : DoorUnit) : SpotsMoved s (s.sampleNotices u) :=
  .trans (.foldl (fun s _ => (s.notice_spotsMoved ..).trans (State.notice_spotsMoved ..)) _ s)
    (State.notice_spotsMoved ..)

theorem State.sampleLines_spotsMoved (s : State) : SpotsMoved s s.sampleLines := by
  unfold State.sampleLines
  have states := ((s.withDoorUnit_effect (s.doorUnit.sampled s.lines)).trans (State.sampleStates_effect _)).spotsMoved
  exact (states.trans (State.sampleNotices_spotsMoved _ s.doorUnit)).trans
    (State.sampleTriggers_effect _ s.doorUnit).spotsMoved

theorem State.sampleInstant_spotsMoved (s : State) : SpotsMoved s s.sampleInstant := by
  unfold State.sampleInstant
  split
  · exact (s.withDoorUnit_effect _).spotsMoved.trans (State.sampleLines_spotsMoved _)
  · exact .refl s

theorem State.debounceChanged_spotsMoved (s : State) : SpotsMoved s s.debounceChanged := by
  unfold State.debounceChanged
  split
  · exact (s.withDoorUnit_effect _).spotsMoved.trans (State.sampleLines_spotsMoved _)
  · exact .refl s

theorem State.setupDoors_spotsMoved (s : State) (old new : SetupRec) : SpotsMoved s (s.setupDoors old new) := by
  have redescribed : SpotsMoved s (if levelActive s.doorUnit.reverse.accepted
      then s.redescribe .reverse old.reverse new.reverse else s) := by
    split
    · exact s.redescribe_spotsMoved ..
    · exact .refl s
  unfold State.setupDoors
  dsimp only
  split
  · exact redescribed.trans (State.debounceChanged_spotsMoved _)
  · exact redescribed

theorem State.applySetup_spotsMoved (s : State) (new : SetupRec) : SpotsMoved s (s.applySetup new) :=
  .trans (.trans (t := { s with
      setup := new, pool := s.pool.regeometry new.slotBase new.slotUnits new.slotCount }) (.of_same rfl rfl)
    (State.setupDoors_spotsMoved _ s.setup new)) (.of_same rfl rfl)

theorem State.applyDoor_spotsMoved (s : State) (d : Door) (r : DoorRec) : SpotsMoved s (s.applyDoor d r) := by
  have stored := (s.setDoor_effect d r).spotsMoved
  have noticed : ∀ u : State, SpotsMoved s u → ∀ x k o q a b p w e f,
      SpotsMoved s (((u.setDoorState d x k).notice o q a b).notice p w e f) := fun u hu x k o q a b p w e f =>
    ((hu.trans (u.setDoorState_effect d x k).spotsMoved).trans (State.notice_spotsMoved ..)).trans
      (State.notice_spotsMoved ..)
  have redescribed : ∀ u : State, SpotsMoved s u → ∀ (b : Bool) o p q,
      SpotsMoved s (if b then u.redescribe o p q else u) := fun u hu b o p q => by
    split
    · exact hu.trans (u.redescribe_spotsMoved ..)
    · exact hu
  unfold State.applyDoor
  dsimp only
  split
  · exact noticed _ stored ..
  · split
    · exact noticed _ stored ..
    · exact redescribed _ (redescribed _ stored ..) ..

theorem State.applyLoad_spotsMoved (s : State) : SpotsMoved s s.applyLoad := by
  unfold State.applyLoad
  dsimp only
  split
  · exact .foldl (fun s _ => s.applySetup_spotsMoved _) _ s
  · exact .foldl (fun s _ => (s.applyCamera_effect _ _).spotsMoved) _ s
  · exact .foldl (fun s _ => (s.applyScreen_effect _ _).spotsMoved) _ s
  · exact .of_same rfl rfl
  · exact .of_same rfl rfl
  · exact .foldl (fun s _ => s.applyDoor_spotsMoved _ _) _ s

theorem State.idleSpotSet_spotsMoved (s : State) (screen layout level : Byte) :
    SpotsMoved s (s.idleSpotSet screen layout level) := by
  have finished : ∀ u : State, SpotsMoved s u → ∀ code result reason,
      SpotsMoved s (u.finishPlain code result reason) := fun u hu code result reason =>
    hu.trans (u.finishPlain_effect code result reason).spotsMoved
  unfold State.idleSpotSet
  split
  · exact finished _ (.refl s) ..
  · split
    · exact finished _ (.refl s) ..
    · dsimp only
      split <;> exact finished _ (s.raiseOn_spotsMoved ..) ..

theorem State.idleSpotClear_spotsMoved (s : State) (screen : Byte) : SpotsMoved s (s.idleSpotClear screen) := by
  unfold State.idleSpotClear
  split
  · exact (s.finishPlain_effect ..).spotsMoved
  · exact (s.endOn_spotsMoved ..).trans (State.finishPlain_effect ..).spotsMoved

theorem State.idleCommand_spotsMoved (s : State) (c : Command) : SpotsMoved s (s.idleCommand c) := by
  cases c with
  | spotSet i v l => exact s.idleSpotSet_spotsMoved i v l
  | spotClear i => exact s.idleSpotClear_spotsMoved i
  | load t f n => exact (s.idleLoad_effect t f n).spotsMoved
  | commit => exact (s.finishPlain_effect _ _ _).spotsMoved
  | abortClear => exact (s.finishPlain_effect _ _ _).spotsMoved
  | learn m => exact (s.idleLearn_effect m).spotsMoved
  | learnSuspend m => exact (s.idleLearnSuspend_effect m).spotsMoved
  | learnResume m => exact (s.idleLearnResume_effect m).spotsMoved
  | holdTake c n => exact (s.idleHoldTake_effect c n).spotsMoved
  | holdRelease i => exact (s.idleHoldRelease_effect i).spotsMoved
  | holdLock => exact s.idleHoldLock_effect.spotsMoved
  | snapshot => exact s.idleSnapshot_effect.spotsMoved
  | restart => exact .refl s
  | undefinedCode k => exact (s.finishPlain_effect _ _ _).spotsMoved

theorem State.spotsRestart_spotsMoved (s : State) : SpotsMoved s s.spotsRestart := by
  refine ⟨rfl, fun i => .single ?_⟩
  rw [show s.spotsRestart.spots[i] = { s.spots[i] with entries := [], counting := none } by
    simp [State.spotsRestart]]
  exact .emptied

theorem State.warmRestart_spotsMoved (s : State) (tag : Byte) : SpotsMoved s (s.warmRestart tag) := by
  unfold State.warmRestart State.restartBlocks
  have before := (((s.takeTag_effect tag).trans (State.discardStaging_effect _)).trans
    (State.cutApplying_effect _ s.engine.lastTag)).trans (State.setEngine_effect _
      { ((s.takeTag tag).discardStaging.cutApplying s.engine.lastTag).engine with state := .idle, pending := 0 })
  refine SpotsMoved.trans ?_ (((State.completeShort_effect _ _ _).trans ((State.withEpisodes_effect _ _).trans
      (State.finishPlain_effect _ _ _ _))).spotsMoved)
  refine SpotsMoved.trans ?_ (State.spotsRestart_spotsMoved _)
  exact (before.trans (((((State.slotsRestart_effect _).trans (State.cadenceRestart_effect _)).trans
    (State.lensRestart_effect _)).trans (State.withContexts_effect _ _)).trans
    (State.doorsRestart_effect _))).spotsMoved

theorem Offered.spotsMoved {s t : State} {c : Command} {tag : Byte} (o : Offered s c tag t) : SpotsMoved s t := by
  have taken := (s.takeTag_effect tag).spotsMoved
  cases o with
  | ignored => exact .refl s
  | restart => exact s.warmRestart_spotsMoved tag
  | idle => exact taken.trans (State.idleCommand_spotsMoved _ c)
  | cleared => exact taken.trans ((State.enter_effect _ _).trans (State.finishPlain_effect _ _ _ _)).spotsMoved
  | aborted => exact taken.trans (State.abortLoad_effect _ _ _).spotsMoved
  | invalid =>
    exact taken.trans (((State.discardStaging_effect _).trans (State.enter_effect _ _)).trans
      (State.finish_effect _ _ _ _ _ _)).spotsMoved
  | applied _ _ _ _ outcome => exact (taken.trans (State.applyLoad_spotsMoved _)).trans outcome.effect.spotsMoved

theorem Operation.spotsMoved {s t : State} (o : Operation s t) : SpotsMoved s t := by
  cases o with
  | nothing => exact .refl s
  | drop k tag a => exact (s.guardDrop_effect k tag a).spotsMoved
  | store a w => exact (s.setMem_touches _).spotsMoved
  | page n w => exact (s.pageWrite_touches n w).spotsMoved
  | consume w => exact (s.consumerBeat_touches w).spotsMoved
  | stage i w => exact (s.pageWrite_touches _ w).spotsMoved.trans (State.stageBeat_effect _ i w).spotsMoved
  | command d c tag => exact (s.pageWrite_touches 8 _).spotsMoved.trans (State.offer_cases _ c tag).spotsMoved
  | land c n w => exact (s.landingPhase_touches c n w).spotsMoved
  | frameStart i => exact (s.frameStart_effect i).spotsMoved
  | status n => exact (s.afterStatusRead_effect n).spotsMoved
  | stale c => exact (s.staleTimeout_effect c).spotsMoved
  | sample l => exact .trans (t := { s with lines := l }) (.of_same rfl rfl) (State.sampleInstant_spotsMoved _)
  | linger i => exact s.lingerExpiry_spotsMoved i
  | close k => exact (s.guardClose_effect k).spotsMoved
  | overtime => exact s.applyingOvertime_effect.spotsMoved

theorem SpotsMoved.inOrder {s t : State} (m : SpotsMoved s t) (h : ∀ i : Screen, s.spots[i].inOrder) (i : Screen) :
    t.spots[i].inOrder :=
  (m.2 i).rec (motive := fun l _ => l.inOrder) (h i) fun _ v hl => v.inOrder hl

theorem SpotsMoved.activated {s t : State} (m : SpotsMoved s t) (h : ∀ i : Screen, s.spots[i].Activated s.time)
    (i : Screen) : t.spots[i].Activated s.time :=
  (m.2 i).rec (motive := fun l _ => l.Activated s.time) (h i) fun _ v hl => v.activated hl

/-- Power-on leaves every list empty. -/
theorem State.powerOn_spots (s : State) (straps : BitVec 2) (i : Screen) : (s.powerOn straps).spots[i] = .empty := by
  simp [State.powerOn, State.reset]

theorem SpotList.empty_inOrder : SpotList.empty.inOrder :=
  ⟨Nat.zero_le _, List.nodup_nil, .nil, by simp [SpotList.governing, SpotList.empty]⟩

theorem SpotList.empty_inActivationOrder : SpotList.empty.inActivationOrder := by
  simp [SpotList.inActivationOrder, SpotList.empty]

theorem spots_inOrder_kept {s t : State} (hs : ∀ i : Screen, s.spots[i].inOrder) (h : step s = .next t) :
    ∀ i : Screen, t.spots[i].inOrder :=
  step_keeps (P := fun u : State => ∀ i : Screen, u.spots[i].inOrder) hs h (fun _ _ h => h) (fun _ _ _ h => h)
    (fun _ _ h => h) (fun _ _ _ h => h)
    (fun u straps _ i => by
      show (u.powerOn straps).spots[i].inOrder
      rw [u.powerOn_spots straps i]; exact SpotList.empty_inOrder)
    fun _ _ h o => o.spotsMoved.inOrder h

/-- The clock leaves the lists. -/
theorem State.tick_spots (s : State) : s.tick.spots = s.spots := by
  unfold State.tick
  split <;> rfl

/-- Since the clock leaves the lists, only an operation at the standing time can move an entry. -/
theorem spots_inActivationOrder_kept {s t : State} (hs : ∀ i : Screen, s.spots[i].Activated s.time)
    (h : step s = .next t) (i : Screen) : t.spots[i].inActivationOrder := by
  have still : ∀ u : State, u.spots = s.spots → u.spots[i].inActivationOrder := fun u hu => by
    rw [hu]; exact (SpotList.activated_iff.mp (hs i)).2.1
  rcases step_cases h with ⟨-, rfl⟩ | ⟨c, rest, -, he⟩
  · exact still _ s.tick_spots
  · rcases exec_cases he with rfl | ⟨straps, rfl⟩ | ⟨x, rfl⟩ | ⟨-, u, p, ho, rfl⟩
    · exact still _ rfl
    · rw [State.powerOn_spots]; exact SpotList.empty_inActivationOrder
    · exact still _ rfl
    · exact (SpotList.activated_iff.mp (ho.spotsMoved.activated hs i)).2.1

/-- Settles O55: the lists change only by raises, ends, expiries and restarts, and each of these is an insertion,
a removal or an update in place, which keeps R121's order; at the standing time the entries activated now are the
latest, so an insertion's place is the one by activation. -/
theorem spotlightListsStayInOrder : Obligations.SpotlightListsStayInOrder :=
  ⟨fun _ _ => spots_inOrder_kept, fun _ _ hs =>
    spots_inActivationOrder_kept fun i => SpotList.activated_iff.mpr (hs i)⟩

end Sys2Proof.Machine
end

section

/-! The Command Word rows and their words: which word a row spells, which row a word is, and that the two agree
(O15). -/

namespace Sys2Proof.Machine

set_option Elab.async false

/-! ### The fields of a word that a row spells -/

section Fields

variable (code tag a b c : Byte) (args : BitVec 48)

@[simp] theorem commandByte_commandWord_zero : commandByte (commandWord code tag args) 0 = code :=
  BitVec.extractLsb'_append_eq_right (a := args ++ tag) (b := code)

@[simp] theorem commandTag_commandWord : commandTag (commandWord code tag args) = tag :=
  (BitVec.extractLsb'_append_eq_of_le (xhi := args ++ tag) (xlo := code) (Nat.le_refl 8)).trans
    BitVec.extractLsb'_append_eq_right

/-- A field of the arguments in the word. -/
theorem extract_commandWord {start len : Nat} (h : 16 ≤ start) :
    (commandWord code tag args).extractLsb' start len = args.extractLsb' (start - 16) len := by
  refine (BitVec.extractLsb'_append_eq_of_le (xhi := args ++ tag) (xlo := code) (by omega)).trans ?_
  rw [BitVec.extractLsb'_append_eq_of_le (by omega)]
  rfl

theorem commandByte_commandWord {n : Nat} (h : 2 ≤ n) :
    commandByte (commandWord code tag args) n = args.extractLsb' (8 * n - 16) 8 :=
  extract_commandWord code tag args (by omega)

end Fields

section Arguments

variable (a b c : Byte)

theorem threeArgs_extract (spare : BitVec 24) :
    (threeArgs a b c spare).extractLsb' 0 8 = a ∧ (threeArgs a b c spare).extractLsb' 8 8 = b
      ∧ (threeArgs a b c spare).extractLsb' 16 8 = c ∧ (threeArgs a b c spare).extractLsb' 24 24 = spare := by
  have above : ∀ {start len : Nat}, 8 ≤ start →
      (threeArgs a b c spare).extractLsb' start len = (spare ++ c ++ b).extractLsb' (start - 8) len :=
    fun h => BitVec.extractLsb'_append_eq_of_le (xhi := spare ++ c ++ b) (xlo := a) h
  refine ⟨BitVec.extractLsb'_append_eq_right (a := spare ++ c ++ b) (b := a), ?_, ?_, ?_⟩
  · exact (above (by decide)).trans BitVec.extractLsb'_append_eq_right
  · exact ((above (by decide)).trans (BitVec.extractLsb'_append_eq_of_le (by decide))).trans
      BitVec.extractLsb'_append_eq_right
  · exact ((above (by decide)).trans (BitVec.extractLsb'_append_eq_of_le (by decide))).trans
      BitVec.extractLsb'_append_eq_left

theorem twoArgs_extract (spare : BitVec 32) :
    (twoArgs a b spare).extractLsb' 0 8 = a ∧ (twoArgs a b spare).extractLsb' 8 8 = b
      ∧ (twoArgs a b spare).extractLsb' 16 32 = spare := by
  have above : ∀ {start len : Nat}, 8 ≤ start →
      (twoArgs a b spare).extractLsb' start len = (spare ++ b).extractLsb' (start - 8) len :=
    fun h => BitVec.extractLsb'_append_eq_of_le (xhi := spare ++ b) (xlo := a) h
  exact ⟨BitVec.extractLsb'_append_eq_right (a := spare ++ b) (b := a),
    (above (by decide)).trans BitVec.extractLsb'_append_eq_right,
    (above (by decide)).trans BitVec.extractLsb'_append_eq_left⟩

theorem oneArg_extract (spare : BitVec 40) :
    (oneArg a spare).extractLsb' 0 8 = a ∧ (oneArg a spare).extractLsb' 8 40 = spare :=
  ⟨BitVec.extractLsb'_append_eq_right (a := spare) (b := a), BitVec.extractLsb'_append_eq_left (a := spare) (b := a)⟩

theorem maskArg_extract (mask : BitVec 16) (spare : BitVec 32) :
    (maskArg mask spare).extractLsb' 0 16 = mask ∧ (maskArg mask spare).extractLsb' 16 32 = spare :=
  ⟨BitVec.extractLsb'_append_eq_right (a := spare) (b := mask),
    BitVec.extractLsb'_append_eq_left (a := spare) (b := mask)⟩

end Arguments

/-! ### A word is spelt by its own fields -/

section Spelling

variable (d : Word)

theorem commandWord_of_extract : commandWord (commandByte d 0) (commandTag d) (d.extractLsb' 16 48) = d := by
  unfold commandWord commandTag commandByte
  rw [BitVec.extractLsb'_append_extractLsb'_eq_extractLsb' (by decide),
    BitVec.extractLsb'_append_extractLsb'_eq_extractLsb' (by decide)]
  exact BitVec.extractLsb'_eq_self

end Spelling

section ArgumentSpelling

variable (args : BitVec 48)

theorem threeArgs_of_extract :
    threeArgs (args.extractLsb' 0 8) (args.extractLsb' 8 8) (args.extractLsb' 16 8) (args.extractLsb' 24 24)
      = args := by
  unfold threeArgs
  rw [BitVec.extractLsb'_append_extractLsb'_eq_extractLsb' (by decide),
    BitVec.extractLsb'_append_extractLsb'_eq_extractLsb' (by decide),
    BitVec.extractLsb'_append_extractLsb'_eq_extractLsb' (by decide)]
  exact BitVec.extractLsb'_eq_self

theorem twoArgs_of_extract :
    twoArgs (args.extractLsb' 0 8) (args.extractLsb' 8 8) (args.extractLsb' 16 32) = args := by
  unfold twoArgs
  rw [BitVec.extractLsb'_append_extractLsb'_eq_extractLsb' (by decide),
    BitVec.extractLsb'_append_extractLsb'_eq_extractLsb' (by decide)]
  exact BitVec.extractLsb'_eq_self

theorem oneArg_of_extract : oneArg (args.extractLsb' 0 8) (args.extractLsb' 8 40) = args := by
  unfold oneArg
  rw [BitVec.extractLsb'_append_extractLsb'_eq_extractLsb' (by decide)]
  exact BitVec.extractLsb'_eq_self

theorem maskArg_of_extract : maskArg (args.extractLsb' 0 16) (args.extractLsb' 16 32) = args := by
  unfold maskArg
  rw [BitVec.extractLsb'_append_extractLsb'_eq_extractLsb' (by decide)]
  exact BitVec.extractLsb'_eq_self

end ArgumentSpelling

/-! ### Decoding -/

/-- The command of a row's word, code by code. -/
theorem decodeCommand_commandWord (code tag : Byte) (args : BitVec 48) :
    decodeCommand (commandWord code tag args) =
      if code = 0x01#8 then .load (args.extractLsb' 0 8) (args.extractLsb' 8 8) (args.extractLsb' 16 8)
      else if code = 0x02#8 then .commit
      else if code = 0x03#8 then .abortClear
      else if code = 0x10#8 then .learn (args.extractLsb' 0 16)
      else if code = 0x11#8 then .learnSuspend (args.extractLsb' 0 16)
      else if code = 0x12#8 then .learnResume (args.extractLsb' 0 16)
      else if code = 0x20#8 then .spotSet (args.extractLsb' 0 8) (args.extractLsb' 8 8) (args.extractLsb' 16 8)
      else if code = 0x21#8 then .spotClear (args.extractLsb' 0 8)
      else if code = 0x30#8 then .holdTake (args.extractLsb' 0 8) (args.extractLsb' 8 8)
      else if code = 0x31#8 then .holdRelease (args.extractLsb' 0 8)
      else if code = 0x32#8 then .holdLock
      else if code = 0x40#8 then .snapshot
      else if code = 0x50#8 then .restart
      else .undefinedCode code := by
  unfold decodeCommand
  simp only [commandByte_commandWord_zero, commandByte_commandWord code tag args (Nat.le_refl 2),
    commandByte_commandWord code tag args (show 2 ≤ 3 by decide),
    commandByte_commandWord code tag args (show 2 ≤ 4 by decide), commandMask,
    extract_commandWord code tag args (show 16 ≤ 16 by decide)]

theorem decodeCommand_of_not_defined {code : Byte} (h : codeDefined code = false) (tag : Byte) (args : BitVec 48) :
    decodeCommand (commandWord code tag args) = .undefinedCode code := by
  rw [decodeCommand_commandWord]
  simp only [codeDefined, List.contains_eq_mem, List.mem_cons, List.not_mem_nil, or_false, decide_eq_false_iff_not,
    not_or] at h
  simp only [h, if_false]

/-- The row of a word, by the command that it spells. -/
theorem commandRow_commandWord {i : Instr} {r : Requester} {d : Word} (hw : i.wellFormed = true)
    (h : i.commandWord? = some (r, d)) : commandRow r d = i := by
  cases i with
  | undefinedCode q code tag spare =>
    cases h
    unfold commandRow
    rw [decodeCommand_of_not_defined (by simpa [Instr.wellFormed] using hw)]
    simp [extract_commandWord]
  | load q tag a b c spare | spotSet q tag a b c spare =>
    cases h
    unfold commandRow
    obtain ⟨ha, hb, hc, hs⟩ := threeArgs_extract a b c spare
    simp [decodeCommand_commandWord, extract_commandWord, ha, hb, hc, hs]
  | learn q tag mask spare | learnSuspend q tag mask spare | learnResume q tag mask spare =>
    cases h
    unfold commandRow
    obtain ⟨hm, hs⟩ := maskArg_extract mask spare
    simp [decodeCommand_commandWord, extract_commandWord, hm, hs]
  | spotClear q tag a spare | holdRelease q tag a spare =>
    cases h
    unfold commandRow
    obtain ⟨ha, hs⟩ := oneArg_extract a spare
    simp [decodeCommand_commandWord, extract_commandWord, ha, hs]
  | holdTake q tag a b spare =>
    cases h
    unfold commandRow
    obtain ⟨ha, hb, hs⟩ := twoArgs_extract a b spare
    simp [decodeCommand_commandWord, extract_commandWord, ha, hb, hs]
  | commit q tag spare | abortClear q tag spare | holdLock q tag spare | snapshot q tag spare | restart q tag spare =>
    cases h
    simp [commandRow, decodeCommand_commandWord, extract_commandWord]
  | _ => cases h

/-! ### Encoding -/

/-- The code bytes that commands use (11.3). -/
theorem codeDefined_iff {code : Byte} : codeDefined code = true ↔
    code ∈ [0x01#8, 0x02#8, 0x03#8, 0x10#8, 0x11#8, 0x12#8, 0x20#8, 0x21#8, 0x30#8, 0x31#8, 0x32#8, 0x40#8, 0x50#8] :=
  List.contains_iff_mem

/-- The row of a spelt word spells the word again, and is well formed. -/
theorem commandRow_commandWord_spells (r : Requester) (code tag : Byte) (args : BitVec 48) :
    (commandRow r (commandWord code tag args)).commandWord? = some (r, commandWord code tag args)
      ∧ (commandRow r (commandWord code tag args)).wellFormed = true := by
  cases hc : codeDefined code with
  | false =>
    simp [commandRow, decodeCommand_of_not_defined hc, extract_commandWord, Instr.commandWord?, Instr.wellFormed, hc]
  | true =>
    have h := codeDefined_iff.mp hc
    simp only [List.mem_cons, List.not_mem_nil, or_false] at h
    rcases h with rfl | rfl | rfl | rfl | rfl | rfl | rfl | rfl | rfl | rfl | rfl | rfl | rfl <;>
      simp [commandRow, decodeCommand_commandWord, extract_commandWord, Instr.commandWord?, Instr.wellFormed,
        threeArgs_of_extract, twoArgs_of_extract, oneArg_of_extract, maskArg_of_extract]

theorem commandRow_spells (r : Requester) (d : Word) :
    (commandRow r d).commandWord? = some (r, d) ∧ (commandRow r d).wellFormed = true := by
  have h := commandRow_commandWord_spells r (commandByte d 0) (commandTag d) (d.extractLsb' 16 48)
  rwa [commandWord_of_extract] at h

/-- Settles O15: the fields of a spelt word are read back from it, and the row of a word spells the fields that
were read. -/
theorem commandWordsRoundTrip : Obligations.CommandWordsRoundTrip :=
  ⟨fun _ _ _ hw h => commandRow_commandWord hw h, commandRow_spells⟩

end Sys2Proof.Machine
end

section

/-! The Frame Port: the regions of the address plan, what a row does while the part runs, and that a beat's row has
the meaning of the routed beat (O14). -/

namespace Sys2Proof.Machine

set_option Elab.async false

/-! ### Running -/

theorem whileRunning_of_running {s : State} (h : s.isRunning) (f : State → State) :
    whileRunning s f = .next (f s) := by
  unfold whileRunning
  rw [h]

theorem whileRunning_congr {s : State} {f g : State → State} (h : f s = g s) :
    whileRunning s f = whileRunning s g := by
  unfold whileRunning
  rw [h]

/-! ### Regions -/

theorem State.pageBase_fits (s : State) : s.pageBase + Config.pageBytes ≤ Config.memoryBytes := by
  unfold State.pageBase pageBaseOf
  split_ifs <;> decide

theorem State.pageBase_mod (s : State) : s.pageBase % 8 = 0 := by
  unfold State.pageBase pageBaseOf
  split_ifs <;> rfl

/-- The region of a byte address, with where it lies (R193). -/
inductive RegionAt (s : State) (a : Nat) : Region → Prop where
  | page (here : s.inPage a) : RegionAt s a (.controlPage (BitVec.ofNat 9 ((a - s.pageBase) / 8)))
  | slotArea (below : a < 0x20000000) (page : ¬s.inPage a) (area : s.pool.inArea a = true) : RegionAt s a .slotArea
  | plain (below : a < 0x20000000) (page : ¬s.inPage a) (area : s.pool.inArea a = false) : RegionAt s a .plain
  | landing (above : 0x20000000 ≤ a) (below : a < 0x30000000) :
      RegionAt s a (.landing (Fin.ofNat 16 ((a - 0x20000000) / 0x01000000))
        (BitVec.ofNat 21 ((a - 0x20000000) % 0x01000000 / 8)))
  | screen (above : 0x30000000 ≤ a) (below : a < 0x34000000) :
      RegionAt s a (.screen (Fin.ofNat 4 ((a - 0x30000000) / 0x01000000))
        (BitVec.ofNat 21 ((a - 0x30000000) % 0x01000000 / 8)))
  | unmapped (above : 0x34000000 ≤ a) : RegionAt s a .unmapped

theorem State.regionOf_cases (s : State) (a : Nat) : RegionAt s a (s.regionOf a) := by
  unfold State.regionOf
  split
  · rename_i below
    split
    · exact .page ‹_›
    · rename_i page
      split
      · exact .slotArea below page ‹_›
      · exact .plain below page (Bool.eq_false_of_not_eq_true ‹_›)
  · rename_i above
    have above := Nat.not_lt.mp above
    split
    · exact .landing above ‹_›
    · rename_i beyond
      split
      · exact .screen (Nat.not_lt.mp beyond) ‹_›
      · rename_i outside
        exact .unmapped (Nat.not_lt.mp outside)

theorem State.inPage_lt {s : State} {a : Nat} (h : s.inPage a) : a < 0x20000000 :=
  Nat.lt_of_lt_of_le h.2 s.pageBase_fits

section Regions

variable {s : State} {a : Nat}

theorem State.regionOf_of_inPage (h : s.inPage a) :
    s.regionOf a = .controlPage (BitVec.ofNat 9 ((a - s.pageBase) / 8)) := by
  have lt := State.inPage_lt h
  have hr := s.regionOf_cases a
  generalize s.regionOf a = g at hr
  cases hr with
  | page => rfl
  | slotArea _ page | plain _ page => exact absurd h page
  | landing | screen | unmapped => omega

theorem State.regionOf_slotArea (below : a < 0x20000000) (page : ¬s.inPage a) (area : s.pool.inArea a = true) :
    s.regionOf a = .slotArea := by
  have hr := s.regionOf_cases a
  generalize s.regionOf a = g at hr
  cases hr with
  | page here => exact absurd here page
  | slotArea => rfl
  | plain _ _ off => rw [area] at off; cases off
  | landing | screen | unmapped => omega

theorem State.regionOf_plain (below : a < 0x20000000) (page : ¬s.inPage a) (area : s.pool.inArea a = false) :
    s.regionOf a = .plain := by
  have hr := s.regionOf_cases a
  generalize s.regionOf a = g at hr
  cases hr with
  | page here => exact absurd here page
  | slotArea _ _ on => rw [area] at on; cases on
  | plain => rfl
  | landing | screen | unmapped => omega

theorem State.regionOf_landing_iff (aligned : a % 8 = 0) (c : Camera) (word : BitVec 21) :
    s.regionOf a = .landing c word ↔ a = 0x20000000 + c.val * 0x01000000 + 8 * word.toNat := by
  have hc := c.isLt
  have hw := word.isLt
  have hr := s.regionOf_cases a
  generalize s.regionOf a = g at hr
  cases hr with
  | page here => exact ⟨fun h => by (cases h), fun h => absurd (State.inPage_lt here) (by omega)⟩
  | slotArea | plain | screen | unmapped => exact ⟨fun h => by (cases h), by omega⟩
  | landing =>
    simp only [Region.landing.injEq, Fin.ext_iff, BitVec.toNat_eq, Fin.val_ofNat, BitVec.toNat_ofNat]
    omega

theorem State.regionOf_screen_iff (aligned : a % 8 = 0) (i : Screen) (word : BitVec 21) :
    s.regionOf a = .screen i word ↔ a = 0x30000000 + i.val * 0x01000000 + 8 * word.toNat := by
  have hi := i.isLt
  have hw := word.isLt
  have hr := s.regionOf_cases a
  generalize s.regionOf a = g at hr
  cases hr with
  | page here => exact ⟨fun h => by (cases h), fun h => absurd (State.inPage_lt here) (by omega)⟩
  | slotArea | plain | landing | unmapped => exact ⟨fun h => by (cases h), by omega⟩
  | screen =>
    simp only [Region.screen.injEq, Fin.ext_iff, BitVec.toNat_eq, Fin.val_ofNat, BitVec.toNat_ofNat]
    omega

theorem State.regionOf_unmapped_iff : s.regionOf a = .unmapped ↔ 0x34000000 ≤ a := by
  have hr := s.regionOf_cases a
  generalize s.regionOf a = g at hr
  cases hr with
  | page here => exact ⟨fun h => by (cases h), fun h => absurd (State.inPage_lt here) (by omega)⟩
  | slotArea | plain | landing | screen => exact ⟨fun h => by (cases h), by omega⟩
  | unmapped above => exact iff_of_true rfl above

/-- The number of a control page word. -/
theorem State.pageWord_toNat (h : s.inPage a) :
    (BitVec.ofNat 9 ((a - s.pageBase) / 8)).toNat = (a - s.pageBase) / 8 := by
  obtain ⟨-, below⟩ := h
  rw [BitVec.toNat_ofNat, Nat.mod_eq_of_lt]
  unfold Config.pageBytes at below
  omega

end Regions

theorem beatAddr_le (a : Nat) : beatAddr a ≤ a ∧ a < beatAddr a + 8 := by unfold beatAddr; omega

/-- The beats of a 29-bit address lie in frame memory. -/
theorem beatAddr_lt (addr : BitVec 29) : beatAddr addr.toNat < Config.memoryBytes :=
  Nat.lt_of_le_of_lt (beatAddr_le _).1 addr.isLt

/-- Frame memory ends at a whole word, so the byte address of a beat there is one of 29 bits. -/
theorem toNat_ofNat_29 {a : Nat} (h : beatAddr a < Config.memoryBytes) : (BitVec.ofNat 29 a).toNat = a := by
  rw [BitVec.toNat_ofNat, Nat.mod_eq_of_lt]
  unfold beatAddr Config.memoryBytes at h
  omega

/-! ### The row of a beat -/

/-- A Command Word row is a full write of the word that it spells. -/
theorem exec_of_commandWord? {i : Instr} {r : Requester} {d : Word} (hw : i.wellFormed = true)
    (h : i.commandWord? = some (r, d)) (s : State) :
    exec i s = commandWrite r d (decodeCommand d) (commandTag d) s := by
  cases i with
  | undefinedCode q code tag spare =>
    cases h
    rw [commandTag_commandWord]
    rfl
  | load q tag a b c spare | spotSet q tag a b c spare =>
    cases h
    obtain ⟨ha, hb, hc, -⟩ := threeArgs_extract a b c spare
    simp only [decodeCommand_commandWord, ha, hb, hc, commandTag_commandWord, BitVec.ofNat_eq_ofNat, reduceIte,
      BitVec.reduceEq]
    rfl
  | learn q tag mask spare | learnSuspend q tag mask spare | learnResume q tag mask spare =>
    cases h
    obtain ⟨hm, -⟩ := maskArg_extract mask spare
    simp only [decodeCommand_commandWord, hm, commandTag_commandWord, BitVec.ofNat_eq_ofNat, reduceIte,
      BitVec.reduceEq]
    rfl
  | spotClear q tag a spare | holdRelease q tag a spare =>
    cases h
    obtain ⟨ha, -⟩ := oneArg_extract a spare
    simp only [decodeCommand_commandWord, ha, commandTag_commandWord, BitVec.ofNat_eq_ofNat, reduceIte,
      BitVec.reduceEq]
    rfl
  | holdTake q tag a b spare =>
    cases h
    obtain ⟨ha, hb, -⟩ := twoArgs_extract a b spare
    simp only [decodeCommand_commandWord, ha, hb, commandTag_commandWord, BitVec.ofNat_eq_ofNat, reduceIte,
      BitVec.reduceEq]
    rfl
  | commit q tag spare | abortClear q tag spare | holdLock q tag spare | snapshot q tag spare | restart q tag spare =>
    cases h
    simp only [decodeCommand_commandWord, commandTag_commandWord, BitVec.ofNat_eq_ofNat, reduceIte, BitVec.reduceEq]
    rfl
  | _ => cases h

theorem exec_commandRow (r : Requester) (d : Word) (s : State) :
    exec (commandRow r d) s = commandWrite r d (decodeCommand d) (commandTag d) s :=
  exec_of_commandWord? (commandRow_spells r d).2 (commandRow_spells r d).1 s

section Rows

variable (s : State) (r : Requester)

/-! What the Frame Port rows of the control page do (R152). -/

theorem exec_stagingWrite (word : BitVec 8) (w : WriteData) :
    exec (.stagingWrite r word w) s = whileRunning s fun s =>
      (s.asControl r (256 + word.toNat) fun s => s.stagingBeat word.toFin w).completeWrite r := rfl

theorem exec_consumerIndex (w : WriteData) :
    exec (.consumerIndex r w) s = whileRunning s fun s =>
      (s.asControl r 16 fun s => s.consumerBeat w).completeWrite r := rfl

theorem exec_controlPageWrite (word : BitVec 9) (w : WriteData) :
    exec (.controlPageWrite r word w) s = whileRunning s fun s =>
      (s.asControl r word.toNat fun s => s.controlBeat word.toNat w).completeWrite r := rfl

end Rows

/-- The control page beat of a full Command Word. -/
theorem State.controlBeat_command (s : State) {w : WriteData} (full : isFull w = true) :
    s.controlBeat 8 w = s.commandBeat w.data (decodeCommand w.data) (commandTag w.data) := by
  simp [State.controlBeat, full]

theorem State.controlBeat_consumer (s : State) (w : WriteData) : s.controlBeat 16 w = s.consumerBeat w := by
  simp [State.controlBeat]

theorem State.controlBeat_staging (s : State) (n : Fin 256) (w : WriteData) :
    s.controlBeat (256 + n.val) w = s.stagingBeat n w := by
  have := n.isLt
  unfold State.controlBeat
  rw [if_neg (by omega), if_neg (by omega), if_neg (by omega), dif_pos (by omega)]
  simp

/-- A control page beat under its row. -/
theorem exec_pageRow (r : Requester) (word : BitVec 9) (w : WriteData) (s : State) :
    exec (pageRow r word w) s
      = whileRunning s fun s => (s.asControl r word.toNat fun s => s.controlBeat word.toNat w).completeWrite r := by
  unfold pageRow
  split
  · rename_i h
    obtain ⟨rfl, full⟩ := h
    rw [exec_commandRow]
    simp only [BitVec.reduceToNat, State.controlBeat_command _ full]
    rfl
  · split
    · rename_i h
      subst h
      rw [exec_consumerIndex]
      simp only [BitVec.reduceToNat, State.controlBeat_consumer]
    · split
      · rename_i hs
        have number : word.toNat = 256 + (word.setWidth 8).toFin.val := by
          have := word.isLt
          rw [BitVec.val_toFin, BitVec.toNat_setWidth]
          omega
        rw [exec_stagingWrite, number]
        simp only [State.controlBeat_staging]
        rfl
      · exact exec_controlPageWrite ..

theorem State.portWrite_of_region {s : State} {a : Nat} {g : Region} (h : s.regionOf (beatAddr a) = g)
    (r : Requester) (w : WriteData) : s.portWrite r a w = (s.writeRegion r (beatAddr a) w g).completeWrite r := by
  unfold State.portWrite
  rw [h]

theorem State.portRead_of_region {s : State} {a : Nat} {g : Region} (h : s.regionOf (beatAddr a) = g)
    (r : Requester) : s.portRead r a = s.readRegion r (beatAddr a) g := by
  unfold State.portRead
  rw [h]

/-- A write beat's row has the meaning of the routed beat (R193). -/
theorem exec_writeRow (s : State) (r : Requester) (a : BitVec 32) (w : WriteData) :
    exec (s.writeRow r a.toNat w) s = whileRunning s fun s => s.portWrite r a.toNat w := by
  have aligned := beatAddr_mod a.toNat
  have at29 : ∀ {u : State}, beatAddr a.toNat < 0x20000000 →
      exec (.plainWriteBeat r (BitVec.ofNat 29 a.toNat) w) u = whileRunning u fun u => u.portWrite r a.toNat w :=
    fun h => by
      show whileRunning _ (fun u => u.portWrite r (BitVec.ofNat 29 a.toNat).toNat w) = _
      rw [toNat_ofNat_29 h]
  have hr := s.regionOf_cases (beatAddr a.toNat)
  unfold State.writeRow
  generalize hg : s.regionOf (beatAddr a.toNat) = g at hr
  cases hr with
  | page here =>
    rw [exec_pageRow]
    refine whileRunning_congr ?_
    rw [State.portWrite_of_region hg]
    rfl
  | slotArea below | plain below => exact at29 below
  | landing =>
    exact whileRunning_congr (f := fun s => (s.landingBeat r.tag _ _ w).completeWrite r)
      (State.portWrite_of_region hg r w).symm
  | screen =>
    have address := (s.regionOf_screen_iff aligned _ _).mp hg
    refine whileRunning_congr (f := fun s => (s.guardDrop .screenWrite r.tag (screenAddr _ _)).completeWrite r) ?_
    rw [State.portWrite_of_region hg]
    exact congrArg (fun x => (s.guardDrop .screenWrite r.tag (BitVec.ofNat 32 x)).completeWrite r) address.symm
  | unmapped =>
    show whileRunning _ (fun u => u.portWrite r (BitVec.ofNat 32 a.toNat).toNat w) = _
    rw [BitVec.ofNat_toNat, BitVec.setWidth_eq]

/-- A read beat's row has the meaning of the routed beat (R193). -/
theorem exec_readRow (s : State) (r : Requester) (a : BitVec 32) :
    exec (s.readRow r a.toNat) s = whileRunning s fun s => s.portRead r a.toNat := by
  have at29 : ∀ {u : State}, beatAddr a.toNat < 0x20000000 →
      exec (.plainReadBeat r (BitVec.ofNat 29 a.toNat)) u = whileRunning u fun u => u.portRead r a.toNat :=
    fun h => by
      show whileRunning _ (fun u => u.portRead r (BitVec.ofNat 29 a.toNat).toNat) = _
      rw [toNat_ofNat_29 h]
  have at32 : ∀ {u : State},
      exec (.zeroWordRead r (BitVec.ofNat 32 a.toNat)) u = whileRunning u fun u => u.portRead r a.toNat := by
    intro u
    show whileRunning _ (fun u => u.portRead r (BitVec.ofNat 32 a.toNat).toNat) = _
    rw [BitVec.ofNat_toNat, BitVec.setWidth_eq]
  have hr := s.regionOf_cases (beatAddr a.toNat)
  unfold State.readRow
  generalize hg : s.regionOf (beatAddr a.toNat) = g at hr
  cases hr with
  | page here =>
    dsimp only
    split
    · rename_i hw
      refine whileRunning_congr (f := fun s => s.statusBeat r _) ?_
      rw [State.portRead_of_region hg, State.readRegion, dif_pos hw]
    · exact at29 (State.inPage_lt here)
  | slotArea below | plain below => exact at29 below
  | landing | unmapped => exact at32
  | screen =>
    exact whileRunning_congr (f := fun s => s.screenBeat r _ _) (State.portRead_of_region hg r).symm

theorem SlotPool.inArea_iff {p : SlotPool} {a : Nat} :
    p.inArea a = true ↔ p.base ≤ a ∧ a < p.base + p.slots.length * (p.units * 65536) := decide_eq_true_iff

/-- Settles O14: the regions case by case along the routing, and the rows by the region of the beat. -/
theorem rowsAreTheRoutedBeats : Obligations.RowsAreTheRoutedBeats :=
  ⟨fun r a w s => ⟨exec_writeRow s r a w, exec_readRow s r a⟩,
    fun s _ _ aligned => ⟨State.regionOf_of_inPage, State.regionOf_slotArea, State.regionOf_plain,
      s.regionOf_landing_iff aligned, s.regionOf_screen_iff aligned, State.regionOf_unmapped_iff⟩,
    fun _ _ _ => ⟨rfl, rfl, SlotPool.inArea_iff⟩⟩

end Sys2Proof.Machine
end

section

/-! The rows of the Frame Port and of the control page while the part runs: what is stored, returned, dropped
(O8 to O11, O17, O18), and the guard episodes' close (O13). -/

namespace Sys2Proof.Machine

set_option Elab.async false

/-! ### Answers at the port -/

theorem State.completeWrite_touches (s : State) (r : Requester) : Touches [.port] s (s.completeWrite r) := by
  intro p hp
  cases p <;> first | rfl | exact absurd hp (by decide)

theorem State.returnWord_touches (s : State) (r : Requester) (w : Word) : Touches [.port] s (s.returnWord r w) := by
  intro p hp
  cases p <;> first | rfl | exact absurd hp (by decide)

/-- An operation that leaves the port is completed. -/
theorem completed_of_port {s u : State} (r : Requester) (h : u.port = s.port) : Completed s (u.completeWrite r) r := by
  unfold Completed State.completeWrite
  rw [h]
  exact ⟨rfl, rfl⟩

theorem returned_of_port {s u : State} (r : Requester) (w : Word) (h : u.port = s.port) :
    Returned s (u.returnWord r w) r w := by
  unfold Returned State.returnWord
  rw [h]

theorem Touches.completeWrite {ps qs : List Piece} {s u : State} (h : Touches ps s u) (r : Requester)
    (sub : ps ++ [.port] ⊆ qs) : Touches qs s (u.completeWrite r) :=
  (h.trans (u.completeWrite_touches r)).mono sub

theorem Touches.returnWord {ps qs : List Piece} {s u : State} (h : Touches ps s u) (r : Requester) (w : Word)
    (sub : ps ++ [.port] ⊆ qs) : Touches qs s (u.returnWord r w) :=
  (h.trans (u.returnWord_touches r w)).mono sub

theorem State.guardDrop_touches (s : State) (k : GuardKind) (tag : Tag) (a : BitVec 32) :
    Touches [.episodes] s (s.guardDrop k tag a) := by
  intro p hp
  cases p <;> first | rfl | exact absurd hp (by decide)

/-- A drop under its guard kind, completed. -/
theorem dropped_guardDrop (s : State) (r : Requester) (k : GuardKind) (a : BitVec 32) :
    Dropped s ((s.guardDrop k r.tag a).completeWrite r) r k a :=
  ⟨s.guardDrop_episode_self k r.tag a, fun _ h => s.guardDrop_episode_of_ne r.tag a h,
    completed_of_port r rfl, (s.guardDrop_touches k r.tag a).completeWrite r (by decide)⟩

/-! ### The rows while the part runs -/

section Running

variable {s : State} (running : s.isRunning) (r : Requester)
include running

theorem exec_plainWriteBeat (addr : BitVec 29) (w : WriteData) :
    exec (.plainWriteBeat r addr w) s = .next (s.portWrite r addr.toNat w) :=
  whileRunning_of_running running fun s => s.portWrite r addr.toNat w

theorem exec_plainReadBeat (addr : BitVec 29) :
    exec (.plainReadBeat r addr) s = .next (s.portRead r addr.toNat) :=
  whileRunning_of_running running fun s => s.portRead r addr.toNat

theorem exec_zeroWordRead (addr : BitVec 32) :
    exec (.zeroWordRead r addr) s = .next (s.portRead r addr.toNat) :=
  whileRunning_of_running running fun s => s.portRead r addr.toNat

theorem exec_screenWrite (i : Screen) (word : BitVec 21) (w : WriteData) :
    exec (.screenWrite r i word w) s
      = .next ((s.guardDrop .screenWrite r.tag (screenAddr i word.toNat)).completeWrite r) :=
  whileRunning_of_running running fun s => (s.guardDrop .screenWrite r.tag (screenAddr i word.toNat)).completeWrite r

theorem exec_unmappedWrite (addr : BitVec 32) (w : WriteData) :
    exec (.unmappedWrite r addr w) s = .next (s.portWrite r addr.toNat w) :=
  whileRunning_of_running running fun s => s.portWrite r addr.toNat w

theorem exec_landingWrite (c : Camera) (word : BitVec 21) (w : WriteData) :
    exec (.landingWrite r c word w) s = .next ((s.landingBeat r.tag c word.toNat w).completeWrite r) :=
  whileRunning_of_running running fun s => (s.landingBeat r.tag c word.toNat w).completeWrite r

theorem exec_screenRead (i : Screen) (word : BitVec 21) :
    exec (.screenRead r i word) s = .next (s.screenBeat r i word.toNat) :=
  whileRunning_of_running running fun s => s.screenBeat r i word.toNat

theorem exec_statusWindowRead (word : Fin 4) :
    exec (.statusWindowRead r word) s = .next (s.statusBeat r word) :=
  whileRunning_of_running running fun s => s.statusBeat r word

theorem exec_staleTimeout (c : Camera) : exec (.staleTimeout c) s = .next (s.staleTimeout c) :=
  whileRunning_of_running running fun s => s.staleTimeout c

theorem exec_sampleInstant (opens alerts : BitVec 12) (reverse : Bool) :
    exec (.sampleInstant opens alerts reverse) s
      = .next (State.sampleInstant { s with lines := ⟨opens, alerts, reverse⟩ }) :=
  whileRunning_of_running running fun s => State.sampleInstant { s with lines := ⟨opens, alerts, reverse⟩ }

theorem exec_lingerExpiry (i : Screen) : exec (.lingerExpiry i) s = .next (s.lingerExpiry i) :=
  whileRunning_of_running running fun s => s.lingerExpiry i

theorem exec_guardEpisodeClose (k : GuardKind) :
    exec (.guardEpisodeClose k) s = .next (if s.guardDue k then s.guardClose k else s) :=
  whileRunning_of_running running fun s => if s.guardDue k then s.guardClose k else s

theorem exec_applyingOvertime : exec .applyingOvertime s = .next s.applyingOvertime :=
  whileRunning_of_running running fun s => s.applyingOvertime

section Control

variable {r} (role : s.roleOf r.tag = .control)
include role

omit running in
theorem State.asControl_of_control (n : Nat) (f : State → State) : s.asControl r n f = f s := if_pos role

/-- A Command Word row of a CONTROL tag: its word is stored and offered. -/
theorem exec_commandWord {i : Instr} {d : Word} (hw : i.wellFormed = true) (h : i.commandWord? = some (r, d)) :
    exec i s = .next ((s.commandBeat d (decodeCommand d) (commandTag d)).completeWrite r) := by
  rw [exec_of_commandWord? hw h, commandWrite, whileRunning_of_running running, State.asControl_of_control role]

theorem exec_controlPageWrite_control (word : BitVec 9) (w : WriteData) :
    exec (.controlPageWrite r word w) s = .next ((s.controlBeat word.toNat w).completeWrite r) := by
  rw [exec_controlPageWrite, whileRunning_of_running running, State.asControl_of_control role]

theorem exec_consumerIndex_control (w : WriteData) :
    exec (.consumerIndex r w) s = .next ((s.consumerBeat w).completeWrite r) := by
  rw [exec_consumerIndex, whileRunning_of_running running, State.asControl_of_control role]

theorem exec_stagingWrite_control (word : BitVec 8) (w : WriteData) :
    exec (.stagingWrite r word w) s = .next ((s.stagingBeat word.toFin w).completeWrite r) := by
  rw [exec_stagingWrite, whileRunning_of_running running, State.asControl_of_control role]

end Control

end Running

/-! ### The machine -/

/-- Settles O1: `step` by the queue's front. -/
theorem stepRunsTheFrontCommand : Obligations.StepRunsTheFrontCommand := fun s c rest h => by
  unfold step
  rw [h]

/-- Settles O5: the release is the model's `powerOn`, and the straps choose the page by R192. -/
theorem powerOnResetFromAnyState : Obligations.PowerOnResetFromAnyState := fun straps s => by
  refine ⟨s.powerOn straps, rfl, rfl, ?_, ?_, ?_, ?_⟩ <;> rintro rfl <;> rfl

/-! ### Plain window, slot area and unmapped space -/

/-- Settles O8: the beat's region is the plain window. -/
theorem plainWriteStores : Obligations.PlainWriteStores := fun r addr w s running wf page area => by
  refine ⟨_, exec_plainWriteBeat running r addr w, ?_⟩
  rw [State.portWrite_of_region (State.regionOf_plain (beatAddr_lt addr) page area)]
  exact ⟨stored_of_writeWord wf rfl, completed_of_port r rfl, (s.setMem_touches _).completeWrite r (by decide)⟩

/-- A byte of an aligned word of frame memory. -/
theorem byteOf_readWord_beatAddr (m : Memory) (addr : BitVec 29) {j : Nat} (h : j < 8) :
    byteOf (m.readWord (beatAddr addr.toNat)) j = m.read (beatAddr addr.toNat + j) := by
  have below := beatAddr_lt addr
  have aligned := beatAddr_mod addr.toNat
  rw [byteOf_readWord _ _ _ h, physical_of_lt]
  unfold Config.memoryBytes at below ⊢
  omega

/-- A plain read beat off the Status Window returns the word of frame memory. -/
theorem State.portRead_memory {s : State} {addr : BitVec 29}
    (h : s.inPage (beatAddr addr.toNat) → 32 ≤ beatAddr addr.toNat - s.pageBase) (r : Requester) :
    s.portRead r addr.toNat = s.memoryBeat r (beatAddr addr.toNat) := by
  have below := beatAddr_lt addr
  have hr := s.regionOf_cases (beatAddr addr.toNat)
  generalize hg : s.regionOf (beatAddr addr.toNat) = g at hr
  rw [State.portRead_of_region hg]
  cases hr with
  | page here =>
    have number := State.pageWord_toNat here
    have far := h here
    exact dif_neg (by omega)
  | slotArea | plain => rfl
  | landing above | screen above | unmapped above =>
    unfold Config.memoryBytes at below
    omega

theorem State.portRead_zero {s : State} {addr : BitVec 32} (h : zeroWordAddress addr = true) (r : Requester) :
    s.portRead r addr.toNat = s.returnWord r 0 := by
  have hz : (0x20000000 ≤ addr.toNat ∧ addr.toNat < 0x30000000) ∨ 0x34000000 ≤ addr.toNat :=
    (Bool.or_eq_true_iff.mp h).imp of_decide_eq_true of_decide_eq_true
  have hb : beatAddr addr.toNat = addr.toNat / 8 * 8 := rfl
  have hr := s.regionOf_cases (beatAddr addr.toNat)
  generalize hg : s.regionOf (beatAddr addr.toNat) = g at hr
  rw [State.portRead_of_region hg]
  cases hr with
  | page here =>
    have := State.inPage_lt here
    omega
  | slotArea below | plain below => omega
  | screen above below => omega
  | landing | unmapped => rfl

/-- Settles O9: the region of a plain read is frame memory, that of a zero word read is a landing window or
unmapped space. -/
theorem readsReturnMemoryOrZero : Obligations.ReadsReturnMemoryOrZero := by
  refine ⟨fun r addr s running far => ?_, fun r addr s running zero => ?_⟩
  · refine ⟨_, s.mem.readWord (beatAddr addr.toNat), exec_plainReadBeat running r addr, ?_⟩
    rw [State.portRead_memory far]
    exact ⟨returned_of_port r _ rfl, fun j hj => byteOf_readWord_beatAddr _ addr hj,
      s.returnWord_touches r _⟩
  · refine ⟨_, exec_zeroWordRead running r addr, ?_⟩
    rw [State.portRead_zero zero]
    exact ⟨returned_of_port r 0 rfl, s.returnWord_touches r 0⟩

theorem State.landingBeat_dropped {s : State} {tag : Tag} {c : Camera} {n : Nat} {w : WriteData} :
    (s.roleOf tag ≠ .capture → s.landingBeat tag c n w = s.guardDrop .landingRole tag (landingAddr c n))
      ∧ (s.roleOf tag = .capture → s.cameras[c].enable = false →
          s.landingBeat tag c n w = s.guardDrop .landingDisabled tag (landingAddr c n))
      ∧ (s.roleOf tag = .capture → s.cameras[c].enable = true → s.cameras[c].frameWords ≤ n →
          s.landingBeat tag c n w = s.guardDrop .landingRange tag (landingAddr c n)) := by
  unfold State.landingBeat
  refine ⟨fun h => if_pos h, fun h off => ?_, fun h on far => ?_⟩
  · rw [if_neg (not_not.mpr h), if_pos (by rw [off]; rfl)]
  · rw [if_neg (not_not.mpr h), if_neg (by rw [on]; decide), if_pos far]

/-- Settles O10: slot area and unmapped space by the beat's region, a screen window by its row, and the checks of a
landing write in their order. -/
theorem guardedRegionsDropWrites : Obligations.GuardedRegionsDropWrites := by
  refine ⟨⟨fun r addr w s running page area => ?_, fun r i word w s running => ?_,
    fun r addr w s running above => ?_⟩, fun r c word w s running => ?_⟩
  · refine ⟨_, exec_plainWriteBeat running r addr w, ?_⟩
    rw [State.portWrite_of_region (State.regionOf_slotArea (beatAddr_lt addr) page area)]
    exact dropped_guardDrop ..
  · exact ⟨_, exec_screenWrite running r i word w, dropped_guardDrop ..⟩
  · refine ⟨_, exec_unmappedWrite running r addr w, ?_⟩
    have beyond : 0x34000000 ≤ beatAddr addr.toNat := by unfold beatAddr; omega
    rw [State.portWrite_of_region (State.regionOf_unmapped_iff.mpr beyond)]
    exact dropped_guardDrop ..
  · obtain ⟨role, disabled, range⟩ := s.landingBeat_dropped (tag := r.tag) (c := c) (n := word.toNat) (w := w)
    have drop : ∀ k, s.landingBeat r.tag c word.toNat w = s.guardDrop k r.tag (landingAddr c word.toNat) →
        ∃ t, exec (.landingWrite r c word w) s = .next t ∧ Dropped s t r k (landingAddr c word.toNat) := fun k h => by
      refine ⟨_, exec_landingWrite running r c word w, ?_⟩
      rw [h]
      exact dropped_guardDrop ..
    exact ⟨fun h => drop _ (role h), fun h off => drop _ (disabled h off), fun h on far => drop _ (range h on far)⟩

/-! ### The control page -/

/-- What a control page write row does, for any role. -/
theorem exec_of_pageWord? {c : Instr} {r : Requester} {word : Nat} (h : c.pageWord? = some (r, word)) (s : State) :
    ∃ f : State → State, exec c s = whileRunning s fun s => (s.asControl r word f).completeWrite r := by
  cases c <;> cases h <;> exact ⟨_, rfl⟩

/-- Settles O11: every control page write row passes through `asControl`. -/
theorem controlPageNeedsControl : Obligations.ControlPageNeedsControl := fun c r word s hc running role => by
  obtain ⟨f, hf⟩ := exec_of_pageWord? hc s
  refine ⟨_, hf.trans (whileRunning_of_running running _), ?_⟩
  rw [State.asControl, if_neg role]
  exact dropped_guardDrop ..

/-- A control page beat of a plain page word. -/
theorem State.controlBeat_plain {word : BitVec 9} {w : WriteData} (h : plainPageWord word w) (s : State) :
    s.controlBeat word.toNat w = if word.toNat < 4 then s else s.pageWrite word.toNat w := by
  obtain ⟨below, not16, not8⟩ := h
  have n16 : word.toNat ≠ 16 := fun e => not16 (BitVec.eq_of_toNat_eq e)
  unfold State.controlBeat
  split
  · rfl
  · split
    · rename_i e8
      have part : ¬isFull w = true := fun full => not8 ⟨BitVec.eq_of_toNat_eq e8, of_decide_eq_true full⟩
      rw [if_neg part, e8]
    · rw [dif_neg (by omega)]

/-- Settles O17: a plain page word is dropped below word 4 and stored above. -/
theorem controlPageWriteStores : Obligations.ControlPageWriteStores := fun r word w s running wf role plain => by
  refine ⟨_, exec_controlPageWrite_control running role word w, ?_⟩
  rw [State.controlBeat_plain plain]
  split
  · exact ⟨completed_of_port r rfl, (Touches.refl [] s).completeWrite r (by decide), fun _ => rfl, fun h => by omega⟩
  · exact ⟨completed_of_port r rfl, (s.pageWrite_touches _ w).completeWrite r (by decide), fun h => by omega,
      fun _ => stored_of_writeWord wf rfl⟩

theorem ReportRing.consume_eq (g : ReportRing) (w : WriteData) :
    g.consume w = if w.enables.getLsbD 0 = true ∧ w.enables.getLsbD 1 = true ∧ w.data.toNat % 65536 < g.capacity
      then { g with consumer := w.data.toNat % 65536 } else g := by
  unfold ReportRing.consume
  rw [BitVec.extractLsb'_toNat, Nat.shiftRight_zero]

/-- Settles O18: the word is stored, and the index by `ReportRing.consume`. -/
theorem consumerIndexWrite : Obligations.ConsumerIndexWrite := fun r w s running wf role => by
  refine ⟨_, exec_consumerIndex_control running role w, ?_⟩
  refine ⟨completed_of_port r rfl, (s.consumerBeat_touches w).completeWrite r (by decide),
    stored_of_writeWord wf rfl, fun h0 h1 h2 => ?_, fun h => ?_⟩
  · exact (ReportRing.consume_eq s.ring w).trans (if_pos ⟨h0, h1, h2⟩)
  · refine (ReportRing.consume_eq s.ring w).trans (if_neg fun ⟨h0, h1, h2⟩ => ?_)
    rcases h with h | h | h
    · rw [h] at h0; cases h0
    · rw [h] at h1; cases h1
    · omega

/-! ### Guard episodes -/

theorem State.guardDue_iff {s : State} {k : GuardKind} :
    s.guardDue k = true ↔ ∃ e, s.episode k = some e ∧ 10000 ≤ elapsed e.lastDrop s.time := by
  unfold State.guardDue
  cases s.episode k with
  | none => simp
  | some e => exact ⟨fun h => ⟨e, rfl, of_decide_eq_true h⟩, by rintro ⟨_, he, h⟩; cases he; exact decide_eq_true h⟩

theorem State.guardClose_of_some {s : State} {k : GuardKind} {e : Episode} (h : s.episode k = some e) :
    s.guardClose k = (s.emit (.guard k e)).setEpisode (guardIndex k) none := by
  unfold State.guardClose
  rw [h]

/-- Settles O13: the close is carried out exactly when the episode has been quiet long enough. -/
theorem guardEpisodeCloses : Obligations.GuardEpisodeCloses := fun k s running => by
  refine ⟨fun e he quiet => ?_, fun early => ?_⟩
  · refine ⟨_, exec_guardEpisodeClose running k, ?_⟩
    have frame := s.guardClose_effect k
    rw [if_pos (State.guardDue_iff.mpr ⟨e, he, quiet⟩)]
    refine ⟨?_, fun k' hk => ?_, ?_, frame.touches.mono (by decide)⟩ <;> rw [State.guardClose_of_some he]
    · exact State.episode_setEpisode_self ..
    · exact State.episode_setEpisode_of_ne _ _ hk
    · exact ⟨rfl, rfl⟩
  · refine (exec_guardEpisodeClose running k).trans (congrArg _ (if_neg fun due => ?_))
    obtain ⟨e, he, quiet⟩ := State.guardDue_iff.mp due
    exact absurd (early e he) (by omega)

end Sys2Proof.Machine
end

section

/-! Reports taken in their order, and what a taken Command Word leaves: the word stored, the reports of its blocks,
its COMMAND_DONE, and the engine (O21, O24, O25, O29). -/

namespace Sys2Proof.Machine

set_option Elab.async false

/-! ### Reports in order -/

/-- From `s` to `t` frame memory and the report ring change by exactly the reports `rs`, at the standing time. -/
def Logged (rs : List Report) (s t : State) : Prop :=
  t.mem = (s.emitAll rs).mem ∧ t.ring = (s.emitAll rs).ring ∧ t.time = s.time

theorem Logged.refl (s : State) : Logged [] s s := ⟨rfl, rfl, rfl⟩

theorem Logged.emit (s : State) (r : Report) : Logged [r] s (s.emit r) := ⟨rfl, rfl, rfl⟩

theorem Logged.emitAll (s : State) (rs : List Report) : Logged rs s (s.emitAll rs) := ⟨rfl, rfl, s.emitAll_time rs⟩

/-- A change of other pieces than memory, ring and time takes no report. -/
theorem Touches.logged {ps : List Piece} {s t : State} (h : Touches ps s t) (hm : Piece.mem ∉ ps) (hr : Piece.ring ∉ ps)
    (ht : Piece.time ∉ ps) : Logged [] s t := ⟨h .mem hm, h .ring hr, h .time ht⟩

theorem Logged.trans {rs qs : List Report} {s t u : State} (h : Logged rs s t) (k : Logged qs t u) :
    Logged (rs ++ qs) s u := by
  obtain ⟨hm, hr, ht⟩ := h
  obtain ⟨km, kr, kt⟩ := k
  have same := State.emitAll_congr (s := s.emitAll rs) qs hm hr (ht.trans (s.emitAll_time rs).symm)
  rw [Logged, State.emitAll_append, km, kr, kt]
  exact ⟨same.1, same.2, ht⟩

/-- Reports that an operation takes for each entry of a list. -/
theorem Logged.foldl {α : Type} {f : State → α → State} {reports : α → List Report} (l : List α) (s : State)
    (h : ∀ u x, x ∈ l → Logged (reports x) u (f u x)) : Logged (l.flatMap reports) s (l.foldl f s) := by
  induction l generalizing s with
  | nil => exact .refl s
  | cons x l ih =>
    exact (h s x (List.mem_cons_self ..)).trans (ih _ fun u y hy => h u y (List.mem_cons_of_mem _ hy))

/-- The ring after reports depends on the ring before alone. -/
theorem State.emitAll_ring_congr {s t : State} (rs : List Report) (h : t.ring = s.ring) :
    (t.emitAll rs).ring = (s.emitAll rs).ring := by
  induction rs generalizing s t with
  | nil => exact h
  | cons r rs ih => exact ih (by rw [State.emit_ring, State.emit_ring, h])

/-- Reports taken after frame memory was set to `m`. -/
theorem Logged.reported {rs : List Report} {s t : State} {m : Memory} (h : Logged rs (s.setMem m) t) :
    Reported s m rs t := ⟨h.1, h.2.1.trans (State.emitAll_ring_congr rs rfl)⟩

theorem Logged.reported_self {rs : List Report} {s t : State} (h : Logged rs s t) : Reported s s.mem rs t :=
  ⟨h.1, h.2.1⟩

/-! ### Results -/

theorem State.setEngine_logged (s : State) (e : Engine) : Logged [] s (s.setEngine e) := ⟨rfl, rfl, rfl⟩

theorem State.finish_logged (s : State) (code : Byte) (result : Result) (reason : Reason) (table : Byte)
    (index : BitVec 16) : Logged [.commandDone code s.engine.lastTag result reason table index] s
      (s.finish code result reason table index) :=
  (s.setEngine_logged _).trans (Logged.emit _ _)

/-- The memory after a full write of the Command Word, off that word. -/
theorem State.commandMem_read (s : State) (d : Word) {a : Nat} (h : outside (s.pageAddr 8) 8 a) :
    (s.commandMem d).read a = s.mem.read a := by
  refine Memory.read_writeWord_of_ne fun j hj _ e => h ?_
  have fits := s.pageBase_fits
  unfold State.pageAddr Config.pageBytes at *
  rw [physical_of_lt (by omega)] at e
  omega

/-- A command's word, the reports of its blocks, and then its result. -/
theorem answered_of_logged {s u : State} {d : Word} {rs : List Report} {e : Engine} (r : Requester)
    (inRange : s.ring.inRange) (engine : u.engine = e) (port : u.port = s.port)
    (log : Logged (rs ++ [.commandDone (commandByte d 0) e.lastTag e.result e.reason e.table e.index])
      (s.pageWrite 8 ⟨0xFF, d⟩) u) : Answered s (u.completeWrite r) r d rs e := by
  refine ⟨engine, log.reported, completed_of_port r port, fun a off away => ?_⟩
  refine Eq.trans ?_ (s.commandMem_read d off)
  show u.mem.read a = _
  rw [log.1]
  exact State.emitAll_read_of_outsideRing (s := s.pageWrite 8 ⟨0xFF, d⟩) _ inRange away

/-- A command that ends with its result recorded. -/
theorem answered_of_finish {s u : State} {d : Word} {tag : Byte} {rs : List Report} (r : Requester)
    (inRange : s.ring.inRange) (log : Logged rs (s.pageWrite 8 ⟨0xFF, d⟩) u) (taken : u.engine.lastTag = tag)
    (port : u.port = s.port) (result : Result) (reason : Reason) (table : Byte) (index : BitVec 16) :
    Answered s ((u.finish (commandByte d 0) result reason table index).completeWrite r) r d rs
      { u.engine with lastTag := tag, result, reason, table, index } := by
  subst taken
  exact answered_of_logged r inRange (u.finish_engine ..) (((u.finish_effect ..).touches .port (by decide)).trans port)
    (log.trans (u.finish_logged ..))

/-! ### Offering a command -/

section Offer

variable {s : State} {c : Command} (tag : Byte)

theorem State.offer_idle (h : s.engine.state = .idle) (hc : c ≠ .restart) :
    s.offer c tag = (s.takeTag tag).idleCommand c := by
  unfold State.offer
  rw [if_neg hc, h]

theorem State.offer_staging (h : s.engine.state = .staging) (hr : c ≠ .restart) (hc : c ≠ .commit) :
    s.offer c tag = (s.takeTag tag).abortLoad (commandCode c) .otherCommand := by
  unfold State.offer
  rw [if_neg hr, h]
  exact if_neg hc

theorem State.offer_commit (h : s.engine.state = .staging) : s.offer .commit tag = (s.takeTag tag).stagingCommit := by
  unfold State.offer
  rw [if_neg (by decide), h]
  exact if_pos rfl

theorem State.offer_ignored (hr : c ≠ .restart)
    (h : s.engine.state = .applying ∨ s.engine.state = .aborted ∧ c ≠ .abortClear) : s.offer c tag = s := by
  unfold State.offer
  rw [if_neg hr]
  rcases h with h | ⟨h, hc⟩ <;> rw [h]
  exact if_neg hc

theorem State.offer_abortClear (h : s.engine.state = .aborted) :
    s.offer .abortClear tag = ((s.takeTag tag).enter .idle).finishPlain 0x03 .done .none := by
  unfold State.offer
  rw [if_neg (by decide), h]
  exact if_pos rfl

theorem State.offer_restart : s.offer .restart tag = s.warmRestart tag := if_pos rfl

end Offer

/-! ### Codes -/

/-- A word with code byte `code` is spelt with it. -/
theorem exists_commandWord {d : Word} {code : Byte} (h : commandByte d 0 = code) :
    ∃ tag args, d = commandWord code tag args :=
  ⟨commandTag d, d.extractLsb' 16 48, by rw [← h, commandWord_of_extract]⟩

theorem commandCode_decodeCommand (d : Word) : commandCode (decodeCommand d) = commandByte d 0 := by
  obtain ⟨tag, args, h⟩ := exists_commandWord (rfl : commandByte d 0 = commandByte d 0)
  generalize commandByte d 0 = code at h ⊢
  subst h
  cases hc : codeDefined code with
  | false => rw [decodeCommand_of_not_defined hc]; rfl
  | true =>
    have h := codeDefined_iff.mp hc
    simp only [List.mem_cons, List.not_mem_nil, or_false] at h
    rcases h with rfl | rfl | rfl | rfl | rfl | rfl | rfl | rfl | rfl | rfl | rfl | rfl | rfl <;>
      simp [decodeCommand_commandWord, commandCode]

theorem decodeCommand_eq_commit_iff {d : Word} : decodeCommand d = .commit ↔ commandByte d 0 = 0x02 := by
  refine ⟨fun h => by rw [← commandCode_decodeCommand, h]; rfl, fun h => ?_⟩
  obtain ⟨tag, args, rfl⟩ := exists_commandWord h
  simp [decodeCommand_commandWord]

theorem decodeCommand_eq_abortClear_iff {d : Word} : decodeCommand d = .abortClear ↔ commandByte d 0 = 0x03 := by
  refine ⟨fun h => by rw [← commandCode_decodeCommand, h]; rfl, fun h => ?_⟩
  obtain ⟨tag, args, rfl⟩ := exists_commandWord h
  simp [decodeCommand_commandWord]

theorem decodeCommand_eq_restart_iff {d : Word} : decodeCommand d = .restart ↔ commandByte d 0 = 0x50 := by
  refine ⟨fun h => by rw [← commandCode_decodeCommand, h]; rfl, fun h => ?_⟩
  obtain ⟨tag, args, rfl⟩ := exists_commandWord h
  simp [decodeCommand_commandWord]

/-! ### Outside IDLE -/

theorem State.commandBeat_touches (s : State) (d : Word) (c : Command) (tag : Byte) {ps : List Piece}
    (h : Command.pieces c ⊆ ps) (hm : .mem ∈ ps) : Touches ps s (s.commandBeat d c tag) :=
  ((s.pageWrite_touches 8 _).mono (by simpa using hm)).seq ((State.offer_touches _ c tag).mono h)

/-- A load aborted by a command word. -/
theorem State.abortLoad_answered {s : State} {d : Word} {tag : Byte} (r : Requester) (inRange : s.ring.inRange)
    (reason : Reason) :
    Answered s ((((s.pageWrite 8 ⟨0xFF, d⟩).takeTag tag).abortLoad (commandByte d 0) reason).completeWrite r) r d []
      { s.engine.ended tag .aborted reason (b8 s.engine.load.table.code) (BitVec.ofNat 16 s.engine.load.first) with
        state := .aborted, staged := 0, buffer := Vector.replicate 256 0 } :=
  answered_of_finish r inRange
    (((s.pageWrite 8 ⟨0xFF, d⟩).setEngine_logged _).trans
      ((State.setEngine_logged _ _).trans (State.setEngine_logged _ _)))
    rfl rfl .aborted reason _ _

theorem State.abortLoad_touches (s : State) (code tag : Byte) (reason : Reason) (w : WriteData) (r : Requester) :
    Touches [.mem, .ring, .engine, .port] s
      ((((s.pageWrite 8 w).takeTag tag).abortLoad code reason).completeWrite r) :=
  (((s.pageWrite_touches 8 w).trans ((State.takeTag_effect _ tag).trans
    (State.abortLoad_effect _ code reason)).touches)).completeWrite r (by decide)

/-- Settles O24: in STAGING the load is aborted, and the other states leave the word in memory alone. -/
theorem commandsOutsideIdle : Obligations.CommandsOutsideIdle := by
  refine ⟨fun c r d s hw hc running role staging inRange not2 not50 => ?_,
    fun c r d s hw hc running wf role not50 state => ?_⟩
  · have run := exec_commandWord running role hw hc
    have offered : s.commandBeat d (decodeCommand d) (commandTag d)
        = ((s.pageWrite 8 ⟨0xFF, d⟩).takeTag (commandTag d)).abortLoad (commandByte d 0) .otherCommand := by
      rw [← commandCode_decodeCommand]
      exact State.offer_staging _ staging (mt decodeCommand_eq_restart_iff.mp not50)
        (mt decodeCommand_eq_commit_iff.mp not2)
    rw [offered] at run
    exact ⟨_, run, s.abortLoad_touches _ _ _ _ r, State.abortLoad_answered r inRange .otherCommand⟩
  · have run := exec_commandWord running role hw hc
    have offered : s.commandBeat d (decodeCommand d) (commandTag d) = s.pageWrite 8 ⟨0xFF, d⟩ :=
      State.offer_ignored _ (mt decodeCommand_eq_restart_iff.mp not50)
        (state.imp_right fun ⟨h, not3⟩ => ⟨h, mt decodeCommand_eq_abortClear_iff.mp not3⟩)
    rw [offered] at run
    exact ⟨_, run, completed_of_port r rfl, stored_of_writeWord wf rfl,
      (s.pageWrite_touches 8 _).completeWrite r (by decide)⟩

end Sys2Proof.Machine
end

section

/-! Commands that the Command Engine takes in IDLE and answers itself: LOAD, ABORT_CLEAR, an undefined code and the
learning commands (O21, O25, O26); the staging area (O19) and the end of the APPLYING wait (O29). -/

namespace Sys2Proof.Machine

set_option Elab.async false

/-! ### Taking a command in IDLE -/

/-- The part with a Command Word stored and its tag taken (R154). -/
def State.taken (s : State) (d : Word) (tag : Byte) : State := (s.pageWrite 8 ⟨0xFF, d⟩).takeTag tag

theorem State.taken_touches (s : State) (d : Word) (tag : Byte) : Touches [.mem, .engine] s (s.taken d tag) := by
  intro p hp
  cases p <;> first | rfl | exact absurd hp (by decide)

@[simp] theorem State.taken_engine (s : State) (d : Word) (tag : Byte) :
    (s.taken d tag).engine = { s.engine with lastTag := tag } := rfl

theorem State.taken_logged (s : State) (d : Word) (tag : Byte) :
    Logged [] (s.pageWrite 8 ⟨0xFF, d⟩) (s.taken d tag) := State.setEngine_logged _ _

/-- A command of a CONTROL tag that the engine takes in IDLE. -/
theorem commandWrite_idle {s : State} {r : Requester} (running : s.isRunning) (role : s.roleOf r.tag = .control)
    (idle : s.engine.state = .idle) {c : Command} (hc : c ≠ .restart) (d : Word) (tag : Byte) :
    commandWrite r d c tag s = .next (((s.taken d tag).idleCommand c).completeWrite r) := by
  rw [commandWrite, whileRunning_of_running running, State.asControl_of_control role, State.commandBeat,
    State.offer_idle (s := s.pageWrite 8 ⟨0xFF, d⟩) tag idle hc]
  rfl

/-- A command that is answered from what its block `u` left. -/
theorem State.finish_touches {s u : State} {ps : List Piece} {d : Word} {tag : Byte} (h : Effect ps (s.taken d tag) u)
    (code : Byte) (result : Result) (reason : Reason) (table : Byte) (index : BitVec 16) (r : Requester)
    (qs : List Piece) (sub : [.mem, .engine] ++ (.mem :: .ring :: (ps ++ [.engine])) ++ [.port] ⊆ qs) :
    Touches qs s ((u.finish code result reason table index).completeWrite r) :=
  ((s.taken_touches d tag).trans (h.trans (u.finish_effect ..)).touches).completeWrite r sub

section Idle

variable {s : State} {d : Word} {tag code : Byte} {result : Result} {reason : Reason} {table : Byte}
  {index : BitVec 16}

/-- A command that ends with nothing else done. -/
theorem finish_taken (r : Requester) (inRange : s.ring.inRange) (hd : commandByte d 0 = code) :
    Touches [.mem, .ring, .engine, .port] s
        (((s.taken d tag).finish code result reason table index).completeWrite r)
      ∧ Answered s (((s.taken d tag).finish code result reason table index).completeWrite r) r d []
        (s.engine.ended tag result reason table index) := by
  subst hd
  exact ⟨State.finish_touches (.refl [] _) _ result reason table index r _ (by decide),
    answered_of_finish r inRange (s.taken_logged d tag) rfl rfl result reason table index⟩

/-- A command that ends with a new engine state and nothing else done. -/
theorem finish_setEngine (r : Requester) (inRange : s.ring.inRange) (hd : commandByte d 0 = code) (e : Engine) :
    Touches [.mem, .ring, .engine, .port] s
        ((((s.taken d tag).setEngine { e with lastTag := tag }).finish code result reason table index).completeWrite r)
      ∧ Answered s
        ((((s.taken d tag).setEngine { e with lastTag := tag }).finish code result reason table index).completeWrite r)
        r d [] (e.ended tag result reason table index) := by
  subst hd
  exact ⟨State.finish_touches (State.setEngine_effect _ _) _ result reason table index r _ (by decide),
    answered_of_finish r inRange ((s.taken_logged d tag).trans (State.setEngine_logged _ _)) rfl rfl
      result reason table index⟩

end Idle

/-! ### ABORT_CLEAR and undefined codes -/

/-- Settles O25: the three cases by the engine state. -/
theorem abortClearAndUndefinedCode : Obligations.AbortClearAndUndefinedCode := by
  refine ⟨fun r tag spare s running role inRange state => ?_,
    fun r code tag spare s running role inRange idle hcode => ?_⟩
  · have byte : commandByte (commandWord 0x03 tag spare) 0 = 0x03 := commandByte_commandWord_zero ..
    rcases state with idle | aborted
    · have run : exec (.abortClear r tag spare) s = .next
          (((s.taken (commandWord 0x03 tag spare) tag).finish 0x03 .done .none 0 0).completeWrite r) :=
        commandWrite_idle running role idle (by decide) _ tag
      have stays : { s.engine.ended tag .done .none 0 0 with state := .idle } = s.engine.ended tag .done .none 0 0 := by
        rw [← idle]
        rfl
      rw [stays]
      exact ⟨_, run, finish_taken r inRange byte⟩
    · have run : exec (.abortClear r tag spare) s = .next ((((s.taken (commandWord 0x03 tag spare) tag).setEngine
          { s.engine with state := .idle, lastTag := tag }).finish 0x03 .done .none 0 0).completeWrite r) := by
        show commandWrite r _ .abortClear tag s = _
        rw [commandWrite, whileRunning_of_running running, State.asControl_of_control role, State.commandBeat,
          State.offer_abortClear (s := s.pageWrite 8 _) tag aborted]
        rfl
      exact ⟨_, run, finish_setEngine r inRange byte { s.engine with state := .idle }⟩
  · have byte : commandByte (commandWord code tag spare) 0 = code := commandByte_commandWord_zero ..
    have run : exec (.undefinedCode r code tag spare) s = .next
        (((s.taken (commandWord code tag spare) tag).finish code .refused .badCode 0 0).completeWrite r) := by
      show commandWrite r _ (decodeCommand _) tag s = _
      rw [decodeCommand_of_not_defined hcode]
      exact commandWrite_idle running role idle (by simp) _ tag
    exact ⟨_, run, finish_taken r inRange byte⟩

/-! ### LOAD -/

theorem tableOfCode_of_code {T : TableId} {b : Byte} (h : T.code = b.toNat) : tableOfCode b = some T := by
  have hb : b = BitVec.ofNat 8 T.code := by rw [h, BitVec.ofNat_toNat, BitVec.setWidth_eq]
  subst hb
  cases T <;> rfl

theorem tableOfCode_none {b : Byte} (h : 6 ≤ b.toNat) : tableOfCode b = none := by
  have ne : ∀ n < 6, b ≠ BitVec.ofNat 8 n := fun n hn e => by
    rw [e, BitVec.toNat_ofNat] at h
    omega
  unfold tableOfCode
  rw [if_neg (ne 0 (by decide)), if_neg (ne 1 (by decide)), if_neg (ne 2 (by decide)), if_neg (ne 3 (by decide)),
    if_neg (ne 4 (by decide)), if_neg (ne 5 (by decide))]

theorem State.idleLoad_of_none {table : Byte} (h : tableOfCode table = none) (s : State) (first count : Byte) :
    s.idleLoad table first count
      = (s.setEngine { s.engine with state := .aborted }).finish 0x01 .aborted .badTable table (first.setWidth 16) := by
  unfold State.idleLoad
  rw [h]
  rfl

section Load

variable {table : Byte} {T : TableId} (h : tableOfCode table = some T) (s : State) {first count : Byte}
include h

theorem State.idleLoad_bad (bad : count.toNat = 0 ∨ 32 < count.toNat ∨ T.records < first.toNat + count.toNat) :
    s.idleLoad table first count
      = (s.setEngine { s.engine with state := .aborted }).finish 0x01 .aborted .badCount table (first.setWidth 16) := by
  unfold State.idleLoad
  rw [h]
  exact if_pos (bad.imp_left fun zero => BitVec.eq_of_toNat_eq zero)

theorem State.idleLoad_opens (one : 1 ≤ count.toNat) (most : count.toNat ≤ 32)
    (fits : first.toNat + count.toNat ≤ T.records) :
    s.idleLoad table first count = (s.setEngine { s.engine with
        state := .staging, load := ⟨T, first.toNat, count.toNat⟩, staged := 0,
        buffer := Vector.replicate 256 0 }).finish
      0x01 .done .none (b8 T.code) (BitVec.ofNat 16 first.toNat) := by
  unfold State.idleLoad
  rw [h]
  refine if_neg ?_
  rintro (zero | many | beyond)
  · rw [zero] at one
    exact absurd one (by decide)
  · omega
  · omega

end Load

/-- Settles O21: the table code names no table, or the run is bad, or staging opens. -/
theorem loadOpensStaging : Obligations.LoadOpensStaging :=
  fun r tag table first count spare s running role idle inRange => by
  intro d
  have byte : commandByte d 0 = 0x01 := commandByte_commandWord_zero ..
  have run : exec (.load r tag table first count spare) s
      = .next (((s.taken d tag).idleLoad table first count).completeWrite r) :=
    commandWrite_idle running role idle (by simp) d tag
  refine ⟨_, run, ?_, fun beyond => ?_, fun T hT => ⟨fun bad => ?_, fun one most fits => ?_⟩⟩
  · exact ((s.taken_touches d tag).trans (State.idleLoad_effect _ table first count).touches).completeWrite r
      (by decide)
  · rw [State.idleLoad_of_none (tableOfCode_none beyond)]
    exact (finish_setEngine r inRange byte { s.engine with state := .aborted }).2
  · rw [State.idleLoad_bad (tableOfCode_of_code hT) _ bad]
    exact (finish_setEngine r inRange byte { s.engine with state := .aborted }).2
  · have code : b8 T.code = table := by rw [hT, b8, BitVec.ofNat_toNat, BitVec.setWidth_eq]
    have index : BitVec.ofNat 16 first.toNat = first.setWidth 16 := by rw [BitVec.ofNat_toNat]
    rw [State.idleLoad_opens (tableOfCode_of_code hT) _ one most fits, code, index]
    exact (finish_setEngine r inRange byte { s.engine with
      state := .staging, load := ⟨T, first.toNat, count.toNat⟩, staged := 0, buffer := Vector.replicate 256 0 }).2

end Sys2Proof.Machine
end

section

/-! The learning commands (O26), the staging area (O19) and the end of the APPLYING wait (O29). -/

namespace Sys2Proof.Machine

set_option Elab.async false

/-! ### Passing a learning command to the cameras of a mask -/

theorem mem_camerasOf {mask : BitVec 16} {c : Camera} : c ∈ camerasOf mask ↔ mask.getLsbD c.val = true := by
  simp [camerasOf]

theorem camerasOf_nodup (mask : BitVec 16) : (camerasOf mask).Nodup := (List.nodup_finRange 16).filter _

/-- The lowest camera of a mask comes first. -/
theorem head?_camerasOf {mask : BitVec 16} {c : Camera} (hc : mask.getLsbD c.val = true)
    (lowest : ∀ d : Camera, mask.getLsbD d.val = true → c ≤ d) : (camerasOf mask).head? = some c := by
  have sorted : (camerasOf mask).Pairwise (· < ·) := (List.pairwise_lt_finRange 16).filter _
  have mem := mem_camerasOf.mpr hc
  cases h : camerasOf mask with
  | nil => rw [h] at mem; cases mem
  | cons d l =>
    rw [h] at mem sorted
    have hd : mask.getLsbD d.val = true := mem_camerasOf.mp (by rw [h]; exact List.mem_cons_self ..)
    rcases List.mem_cons.mp mem with rfl | later
    · rfl
    · exact absurd (List.rel_of_pairwise_cons sorted later) (Fin.not_lt.mpr (lowest d hd))

theorem camerasOf_zero : camerasOf 0 = [] := by
  simp [camerasOf]

section Each

variable (f : CameraRec → LensRec → LensRec × Option Reason)

/-- One camera of a mask takes or refuses the command. -/
def learnOne (x : State × List (Option Reason)) (c : Camera) : State × List (Option Reason) :=
  (x.1.setLens c (f x.1.cameras[c] x.1.lens[c]).1, x.2 ++ [(f x.1.cameras[c] x.1.lens[c]).2])

/-- The lens records after a command has been passed to the cameras of a list. -/
def learnedLenses (s : State) (l : List Camera) (v : Vector LensRec 16) : Vector LensRec 16 :=
  Vector.ofFn fun c : Fin 16 => if c ∈ l then (f s.cameras[c] v[c]).1 else v[c]

theorem learnedLenses_getElem (s : State) (l : List Camera) (v : Vector LensRec 16) (c : Camera) :
    (learnedLenses f s l v)[c] = if c ∈ l then (f s.cameras[c] v[c]).1 else v[c] := by
  simp [learnedLenses]

theorem foldl_learnOne (s : State) {l : List Camera} (nodup : l.Nodup) (v : Vector LensRec 16)
    (answers : List (Option Reason)) :
    l.foldl (learnOne f) ({ s with lens := v }, answers)
      = ({ s with lens := learnedLenses f s l v }, answers ++ l.map fun c => (f s.cameras[c] v[c]).2) := by
  induction l generalizing v answers with
  | nil =>
    have same : learnedLenses f s [] v = v := Vector.ext fun i hi => by simp [learnedLenses]
    rw [same, List.map_nil, List.append_nil]
    rfl
  | cons c l ih =>
    obtain ⟨new, rest⟩ := List.nodup_cons.mp nodup
    rw [List.foldl_cons, show learnOne f ({ s with lens := v }, answers) c
      = ({ s with lens := upd v c (f s.cameras[c] v[c]).1 }, answers ++ [(f s.cameras[c] v[c]).2]) from rfl, ih rest]
    have other : ∀ d ∈ l, (upd v c (f s.cameras[c] v[c]).1)[d] = v[d] := fun d hd =>
      upd_getElem_of_ne _ _ fun e => new (e ▸ hd)
    have lenses : learnedLenses f s l (upd v c (f s.cameras[c] v[c]).1) = learnedLenses f s (c :: l) v := by
      refine Vector.ext fun i hi => ?_
      have here : ∀ w : Vector LensRec 16, w[i] = w[(⟨i, hi⟩ : Camera)] := fun _ => rfl
      rw [here, here, learnedLenses_getElem, learnedLenses_getElem]
      by_cases hl : (⟨i, hi⟩ : Camera) ∈ l
      · rw [if_pos hl, if_pos (List.mem_cons_of_mem _ hl), other _ hl]
      · rw [if_neg hl]
        rcases upd_getElem_cases v c ⟨i, hi⟩ (f s.cameras[c] v[c]).1 with ⟨e, rfl⟩ | ⟨e, hd⟩
        · rw [e, if_pos (List.mem_cons_self ..)]
        · rw [e, if_neg fun h => (List.mem_cons.mp h).elim hd hl]
    rw [lenses, List.map_cons, List.append_assoc, List.singleton_append]
    congr 3
    exact List.map_congr_left fun d hd => by rw [other d hd]

/-- What a learning command does to each camera of the mask, and what they answer. -/
theorem State.learnEach_eq (s : State) (mask : BitVec 16) :
    s.learnEach f mask = ({ s with lens := learnedLenses f s (camerasOf mask) s.lens },
      (camerasOf mask).map fun c => (f s.cameras[c] s.lens[c]).2) :=
  foldl_learnOne f s (camerasOf_nodup mask) s.lens []

end Each

/-! ### Results of a learning command -/

section Finish

variable (s : State) (code : Byte) {answers : List (Option Reason)}

theorem State.finishLearn_done (h : none ∈ answers) : s.finishLearn code answers = s.finish code .done .none 0 0 :=
  if_pos (List.contains_iff_mem.mpr h)

theorem State.finishLearn_refused (h : none ∉ answers) {reason : Reason} (first : answers.head? = some (some reason)) :
    s.finishLearn code answers = s.finish code .refused reason 0 0 := by
  unfold State.finishLearn
  rw [if_neg (mt List.contains_iff_mem.mp h), first]
  rfl

theorem State.finishLearn_nil : s.finishLearn code [] = s.finish code .refused .badArg 0 0 := rfl

end Finish

/-- The result and reason of a learning command by the answers of the cameras of its mask (R171). -/
theorem learning_answered {s : State} {r : Requester} {d : Word} {tag code : Byte} {mask : BitVec 16}
    {f : CameraRec → LensRec → LensRec × Option Reason} (inRange : s.ring.inRange) (hd : commandByte d 0 = code)
    {t : State}
    (ht : t = (((s.taken d tag).learnEach f mask).1.finishLearn code
      ((s.taken d tag).learnEach f mask).2).completeWrite r) :
    Touches [.lens, .mem, .ring, .engine, .port] s t
      ∧ (∀ c : Camera, t.lens[c] =
          if mask.getLsbD c.val = true then (f s.cameras[c] s.lens[c]).1 else s.lens[c])
      ∧ ((∃ c : Camera, mask.getLsbD c.val = true ∧ (f s.cameras[c] s.lens[c]).2 = none) →
          Answered s t r d [] (s.engine.ended tag .done .none 0 0))
      ∧ (∀ (c : Camera) (reason : Reason),
          (∀ c' : Camera, mask.getLsbD c'.val = true → (f s.cameras[c'] s.lens[c']).2 ≠ none) →
          mask.getLsbD c.val = true → (∀ c' : Camera, mask.getLsbD c'.val = true → c ≤ c') →
          (f s.cameras[c] s.lens[c]).2 = some reason →
            Answered s t r d [] (s.engine.ended tag .refused reason 0 0))
      ∧ (mask = 0 → Answered s t r d [] (s.engine.ended tag .refused .badArg 0 0)) := by
  subst hd
  rw [State.learnEach_eq] at ht
  have answers : ∀ {x : Option Reason}, x ∈ (camerasOf mask).map (fun c => (f s.cameras[c] s.lens[c]).2) ↔
      ∃ c : Camera, mask.getLsbD c.val = true ∧ (f s.cameras[c] s.lens[c]).2 = x := by
    simp only [List.mem_map, mem_camerasOf, implies_true]
  have lenses : Touches [.lens] (s.taken d tag)
      { s.taken d tag with lens := learnedLenses f (s.taken d tag) (camerasOf mask) (s.taken d tag).lens } := by
    intro p hp
    cases p <;> first | rfl | exact absurd hp (by decide)
  generalize hu : ({ s.taken d tag with
    lens := learnedLenses f (s.taken d tag) (camerasOf mask) (s.taken d tag).lens } : State) = u at ht lenses
  have ended : ∀ result reason, t = (u.finish (commandByte d 0) result reason 0 0).completeWrite r →
      Answered s t r d [] (s.engine.ended tag result reason 0 0) := fun result reason h => by
    have engine : u.engine = (s.taken d tag).engine := lenses.same .engine
    rw [h]
    have answered := answered_of_finish (tag := tag) r inRange
      ((s.taken_logged d tag).trans (lenses.logged (by decide) (by decide) (by decide))) (by rw [engine]; rfl)
      (lenses.same .port) result reason 0 0
    rw [engine] at answered
    exact answered
  refine ⟨?_, fun c => ?_, fun takes => ?_, fun c reason none hc lowest refuses => ?_, fun empty => ?_⟩
  · rw [ht]
    exact ((s.taken_touches d tag).trans (lenses.trans (u.finishLearn_effect ..).touches)).completeWrite r (by decide)
  · have kept : t.lens = u.lens := by
      rw [ht]
      exact (u.finishLearn_effect ..).same .lens
    rw [kept, ← hu]
    exact (learnedLenses_getElem ..).trans (if_congr mem_camerasOf rfl rfl)
  · exact ended _ _ (ht.trans (congrArg (State.completeWrite · r) (u.finishLearn_done _ (answers.mpr takes))))
  · refine ended _ _ (ht.trans (congrArg (State.completeWrite · r) (u.finishLearn_refused _ (fun h => ?_) ?_)))
    · obtain ⟨c', hc', h'⟩ := answers.mp h
      exact none c' hc' h'
    · rw [List.head?_map, head?_camerasOf hc lowest]
      exact congrArg some refuses
  · subst empty
    rw [camerasOf_zero] at ht
    exact ended _ _ ht

theorem learnStart_takes {r : CameraRec} (l : LensRec) (on : r.enable = true) (lens : r.lensOn = true) :
    learnStart r l =
      ({ l with learn := .running, sums := Vector.replicate 48 0, learned := 0, candidates := 0 }, none) := by
  unfold learnStart
  rw [on, lens]
  rfl

theorem learnStart_refuses {r : CameraRec} (l : LensRec) (h : ¬(r.enable = true ∧ r.lensOn = true)) :
    learnStart r l = (l, some (if r.enable then .lensOff else .cameraOff)) := by
  unfold learnStart
  cases on : r.enable with
  | false => rfl
  | true =>
    have off : r.lensOn = false := Bool.eq_false_of_not_eq_true fun lens => h ⟨on, lens⟩
    rw [off]
    rfl

/-- LEARN_RESUME and LEARN_SUSPEND at one camera. -/
def learnSwitch (resume : Bool) (l : LensRec) : LensRec × Option Reason :=
  if resume then learnContinue l else learnPause l

theorem LensRec.withLearn_self {l : LensRec} {x : LearnActivity} (h : l.learn = x) : { l with learn := x } = l := by
  subst h
  rfl

theorem learnSwitch_takes (resume : Bool) {l : LensRec} (h : l.learn ≠ .idle) :
    learnSwitch resume l = ({ l with learn := if resume then .running else .suspended }, none) := by
  unfold learnSwitch learnContinue learnPause
  cases hl : l.learn with
  | idle => exact absurd hl h
  | running =>
    cases resume
    · rfl
    · exact congrArg (·, none) (LensRec.withLearn_self hl).symm
  | suspended =>
    cases resume
    · exact congrArg (·, none) (LensRec.withLearn_self hl).symm
    · rfl

theorem learnSwitch_refuses (resume : Bool) {l : LensRec} (h : l.learn = .idle) :
    learnSwitch resume l = (l, some .notLearning) := by
  unfold learnSwitch learnContinue learnPause
  rw [h]
  cases resume <;> rfl

/-- LEARN in IDLE. -/
theorem learn_in_idle (r : Requester) (tag : Byte) (mask : BitVec 16) (spare : BitVec 32) (s : State)
    (running : s.isRunning) (role : s.roleOf r.tag = .control) (idle : s.engine.state = .idle)
    (inRange : s.ring.inRange) :
    let d := commandWord 0x10 tag (maskArg mask spare)
    let takes := fun c : Camera =>
      mask.getLsbD c.val = true ∧ s.cameras[c].enable = true ∧ s.cameras[c].lensOn = true
    ∃ t, exec (.learn r tag mask spare) s = .next t ∧ Touches [.lens, .mem, .ring, .engine, .port] s t
      ∧ (∀ c : Camera, (takes c → t.lens[c] = { s.lens[c] with
              learn := .running, sums := Vector.replicate 48 0, learned := 0, candidates := 0 })
          ∧ (¬takes c → t.lens[c] = s.lens[c]))
      ∧ ((∃ c, takes c) → Answered s t r d [] (s.engine.ended tag .done .none 0 0))
      ∧ (∀ c : Camera, (∀ c', ¬takes c') → mask.getLsbD c.val = true →
          (∀ c' : Camera, mask.getLsbD c'.val = true → c ≤ c') →
            Answered s t r d []
              (s.engine.ended tag .refused (if s.cameras[c].enable then .lensOff else .cameraOff) 0 0))
      ∧ (mask = 0 → Answered s t r d [] (s.engine.ended tag .refused .badArg 0 0)) := by
  intro d takes
  obtain ⟨touches, lens, done, refused, empty⟩ :=
    learning_answered (f := learnStart) (code := 0x10) inRange (commandByte_commandWord_zero ..) (mask := mask) rfl
  refine ⟨_, commandWrite_idle running role idle (c := .learn mask) (by simp) d tag, touches, fun c => ?_, ?_, ?_,
    empty⟩
  · refine ⟨fun ⟨hm, on, hl⟩ => ?_, fun h => ?_⟩
    · exact (lens c).trans (by rw [if_pos hm, learnStart_takes _ on hl])
    · refine (lens c).trans ?_
      split
      · rename_i hm
        rw [learnStart_refuses _ fun both => h ⟨hm, both⟩]
      · rfl
  · rintro ⟨c, hm, on, hl⟩
    exact done ⟨c, hm, by rw [learnStart_takes _ on hl]⟩
  · intro c none hm lowest
    have refuses : ∀ c' : Camera, mask.getLsbD c'.val = true → learnStart s.cameras[c'] s.lens[c']
        = (s.lens[c'], some (if s.cameras[c'].enable then .lensOff else .cameraOff)) := fun c' hm' =>
      learnStart_refuses _ fun both => none c' ⟨hm', both⟩
    refine refused c _ (fun c' hm' => ?_) hm lowest (congrArg Prod.snd (refuses c hm))
    rw [refuses c' hm']
    exact Option.some_ne_none _

/-- LEARN_SUSPEND and LEARN_RESUME in IDLE. -/
theorem learnSwitch_in_idle (resume : Bool) (r : Requester) (tag : Byte) (mask : BitVec 16) (spare : BitVec 32)
    (s : State) (running : s.isRunning) (role : s.roleOf r.tag = .control) (idle : s.engine.state = .idle)
    (inRange : s.ring.inRange) :
    let d := commandWord (if resume then 0x12 else 0x11) tag (maskArg mask spare)
    let takes := fun c : Camera => mask.getLsbD c.val = true ∧ s.lens[c].learn ≠ .idle
    ∃ t, exec (if resume then .learnResume r tag mask spare else .learnSuspend r tag mask spare) s = .next t
      ∧ Touches [.lens, .mem, .ring, .engine, .port] s t
      ∧ (∀ c : Camera,
          (takes c → t.lens[c] = { s.lens[c] with learn := if resume then .running else .suspended })
            ∧ (¬takes c → t.lens[c] = s.lens[c]))
      ∧ ((∃ c, takes c) → Answered s t r d [] (s.engine.ended tag .done .none 0 0))
      ∧ ((∀ c, ¬takes c) → mask ≠ 0 → Answered s t r d [] (s.engine.ended tag .refused .notLearning 0 0))
      ∧ (mask = 0 → Answered s t r d [] (s.engine.ended tag .refused .badArg 0 0)) := by
  intro d takes
  have run : exec (if resume then .learnResume r tag mask spare else .learnSuspend r tag mask spare) s
      = .next ((((s.taken d tag).learnEach (fun _ => learnSwitch resume) mask).1.finishLearn
        (if resume then 0x12 else 0x11) ((s.taken d tag).learnEach (fun _ => learnSwitch resume) mask).2).completeWrite
          r) := by
    cases resume
    · exact commandWrite_idle running role idle (c := .learnSuspend mask) (by simp) d tag
    · exact commandWrite_idle running role idle (c := .learnResume mask) (by simp) d tag
  obtain ⟨touches, lens, done, refused, empty⟩ := learning_answered (f := fun _ => learnSwitch resume)
    (code := if resume then 0x12 else 0x11) inRange (commandByte_commandWord_zero ..) (mask := mask) rfl
  have refuses : ∀ c : Camera, mask.getLsbD c.val = true → ¬takes c →
      learnSwitch resume s.lens[c] = (s.lens[c], some .notLearning) := fun c hm h =>
    learnSwitch_refuses resume (Decidable.not_not.mp fun active => h ⟨hm, active⟩)
  refine ⟨_, run, touches, fun c => ⟨fun ⟨hm, active⟩ => ?_, fun h => ?_⟩, ?_, fun none some => ?_, empty⟩
  · exact (lens c).trans (by rw [if_pos hm, learnSwitch_takes resume active])
  · refine (lens c).trans ?_
    split
    · rw [refuses c ‹_› h]
    · rfl
  · rintro ⟨c, hm, active⟩
    exact done ⟨c, hm, by rw [learnSwitch_takes resume active]⟩
  · have occupied : camerasOf mask ≠ [] := fun e => some (BitVec.eq_of_getLsbD_eq fun i hi => by
      have out : (⟨i, hi⟩ : Camera) ∉ camerasOf mask := by rw [e]; exact List.not_mem_nil
      rw [mem_camerasOf] at out
      simpa using out)
    obtain ⟨c, later, hl⟩ := List.exists_cons_of_ne_nil occupied
    have hm : mask.getLsbD c.val = true := mem_camerasOf.mp (by rw [hl]; exact List.mem_cons_self ..)
    have sorted : (camerasOf mask).Pairwise (· < ·) := (List.pairwise_lt_finRange 16).filter _
    refine refused c .notLearning (fun c' hm' => ?_) hm (fun c' hm' => ?_) (congrArg Prod.snd (refuses c hm (none c)))
    · rw [refuses c' hm' (none c')]
      exact Option.some_ne_none _
    · have mem := mem_camerasOf.mpr hm'
      rw [hl] at mem sorted
      rcases List.mem_cons.mp mem with rfl | h
      · exact Fin.le_refl _
      · exact (List.rel_of_pairwise_cons sorted h).le

/-- Settles O26: each camera's answer decides. -/
theorem learningCommands : Obligations.LearningCommands := ⟨learn_in_idle, learnSwitch_in_idle⟩

/-! ### The staging area -/

theorem State.stagingBeat_outside {s : State} (h : s.engine.state ≠ .staging) (n : Fin 256) (w : WriteData) :
    s.stagingBeat n w = s.pageWrite (256 + n.val) w := if_neg h

theorem State.stagingBeat_staging {s : State} (h : s.engine.state = .staging) (n : Fin 256) (w : WriteData) :
    s.stagingBeat n w = (s.pageWrite (256 + n.val) w).stageBeat n w := if_pos h

/-- A staging beat of another engine state is stored and no more. -/
theorem State.abortLoad_staging {s : State} (r : Requester) (m : Memory) (reason : Reason) :
    let t := ((s.setMem m).abortLoad 0xFF reason).completeWrite r
    let e := s.engine
    t.engine = { e with state := .aborted, staged := 0, buffer := Vector.replicate 256 0, result := .aborted,
                        reason := reason, table := b8 e.load.table.code, index := BitVec.ofNat 16 e.load.first }
      ∧ Reported s m [.commandDone 0xFF e.lastTag .aborted reason (b8 e.load.table.code)
          (BitVec.ofNat 16 e.load.first)] t
      ∧ Touches [.mem, .ring, .engine, .port] s t := by
  intro t e
  refine ⟨(s.setMem m).abortLoad_engine 0xFF reason, ?_, ?_⟩
  · have log : Logged _ (s.setMem m) ((s.setMem m).abortLoad 0xFF reason) :=
      ((State.setEngine_logged _ _).trans (State.setEngine_logged _ _)).trans (State.finish_logged _ _ _ _ _ _)
    exact log.reported
  · exact ((s.setMem_touches m).trans (State.abortLoad_effect _ 0xFF reason).touches).completeWrite r (by decide)

theorem State.abortLoad_port (s : State) (code : Byte) (reason : Reason) :
    (s.abortLoad code reason).port = s.port := (s.abortLoad_effect code reason).same .port

section Stage

variable {s : State} {n : Fin 256} {w : WriteData}

theorem State.stageBeat_outOfRange (h : s.engine.load.count ≤ n.val / 8) :
    s.stageBeat n w = s.abortLoad 0xFF .outOfRange := if_pos h

theorem State.stageBeat_overcount (within : n.val / 8 < s.engine.load.count)
    (h : s.engine.load.count * 8 ≤ s.engine.staged) : s.stageBeat n w = s.abortLoad 0xFF .overcount :=
  (if_neg (Nat.not_le.mpr within)).trans (if_pos (Nat.lt_succ_of_le h))

theorem State.stageBeat_merges (within : n.val / 8 < s.engine.load.count)
    (h : s.engine.staged < s.engine.load.count * 8) :
    s.stageBeat n w = s.setEngine { s.engine with
      staged := s.engine.staged + 1, buffer := upd s.engine.buffer n (mergeWord (s.engine.buffer.get n) w) } :=
  (if_neg (Nat.not_le.mpr within)).trans (if_neg (by omega))

end Stage

theorem State.setEngine_touches (s : State) (e : Engine) : Touches [.engine] s (s.setEngine e) := by
  intro p hp
  cases p <;> first | rfl | exact absurd hp (by decide)

/-- Settles O19: outside STAGING the word is stored; in STAGING the checks of R158 in their order. -/
theorem stagingWriteMergesOrAborts : Obligations.StagingWriteMergesOrAborts :=
  fun r word w s running wf role => by
  intro e stored aborted
  have run := exec_stagingWrite_control running role word w
  by_cases staging : e.state = .staging
  · rw [State.stagingBeat_staging staging] at run
    by_cases range : e.load.count ≤ word.toNat / 8
    · rw [State.stageBeat_outOfRange (s := s.pageWrite _ w) range] at run
      exact ⟨_, run, completed_of_port r (State.abortLoad_port ..), fun h => absurd staging h,
        fun _ _ => State.abortLoad_staging r stored .outOfRange, fun _ h => absurd range (Nat.not_le.mpr h),
        fun _ h => absurd range (Nat.not_le.mpr h)⟩
    · have within := Nat.not_le.mp range
      by_cases full : e.load.count * 8 ≤ e.staged
      · rw [State.stageBeat_overcount (s := s.pageWrite _ w) within full] at run
        exact ⟨_, run, completed_of_port r (State.abortLoad_port ..), fun h => absurd staging h,
          fun _ h => absurd h range, fun _ _ _ => State.abortLoad_staging r stored .overcount,
          fun _ _ h => absurd full (Nat.not_le.mpr h)⟩
      · have room := Nat.not_le.mp full
        rw [State.stageBeat_merges (s := s.pageWrite _ w) within room] at run
        refine ⟨_, run, completed_of_port r rfl, fun h => absurd staging h, fun _ h => absurd h range,
          fun _ _ h => absurd h full,
          fun _ _ _ => ⟨stored_of_writeWord wf rfl, ?_, rfl, fun j hj => ?_, fun i hi => ?_⟩⟩
        · exact ((s.setMem_touches stored).trans (State.setEngine_touches _ _)).completeWrite r (by decide)
        · exact (congrArg (byteOf · j) (upd_get_self ..)).trans (byteOf_mergeBytes _ j hj)
        · exact upd_get_of_ne _ _ hi
  · rw [State.stagingBeat_outside staging] at run
    refine ⟨_, run, completed_of_port r rfl, fun _ => ⟨stored_of_writeWord wf rfl,
      (s.pageWrite_touches _ w).completeWrite r (by decide)⟩, fun h => absurd h staging, fun h => absurd h staging,
      fun h => absurd h staging⟩

/-! ### The APPLYING wait -/

theorem State.applyingDue_iff {s : State} :
    s.applyingDue = true ↔ s.engine.state = .applying ∧ 250000 ≤ elapsed s.engine.waitStart s.time := by
  unfold State.applyingDue
  rw [Bool.and_eq_true]
  exact and_congr ⟨of_decide_eq_true, decide_eq_true⟩ ⟨of_decide_eq_true, decide_eq_true⟩

/-- Settles O29: the wait ends by time exactly when it is due. -/
theorem applyingEndsOvertime : Obligations.ApplyingEndsOvertime := fun s running => by
  intro e
  have run := exec_applyingOvertime running
  unfold State.applyingOvertime at run
  refine ⟨fun applying long => ?_, fun early => ?_⟩
  · rw [if_pos (State.applyingDue_iff.mpr ⟨applying, long⟩)] at run
    have log : Logged _ s (s.endApplying .overtime) :=
      (State.setEngine_logged _ _).trans (State.finish_logged _ _ _ _ _ _)
    exact ⟨_, run, (s.endApplying_effect .overtime).touches.mono (by decide), s.endApplying_engine .overtime,
      log.reported_self⟩
  · rw [if_neg fun due => ?_] at run
    · exact run
    · obtain ⟨applying, long⟩ := State.applyingDue_iff.mp due
      exact early.elim (fun h => h applying) (fun h => absurd long (Nat.not_le.mpr h))

end Sys2Proof.Machine
end

section
/-! The clock, the reset line and the power-on values (O2, O3, O4, O6). -/

namespace Sys2Proof.Machine

set_option Elab.async false

/-! ### One microsecond -/

theorem CadenceRec.timing_iff {r : CadenceRec} : r.timing = true ↔ r.state = .acquiring ∨ r.state = .locked := by
  unfold CadenceRec.timing
  rw [Bool.or_eq_true]
  exact or_congr decide_eq_true_iff decide_eq_true_iff

theorem State.staleDue_iff {s : State} {c : Camera} :
    s.staleDue c = true ↔ (s.cadence[c].state = .acquiring ∨ s.cadence[c].state = .locked)
      ∧ 3 * s.cameras[c].period ≤ elapsed s.cadence[c].staleRef s.time := by
  unfold State.staleDue
  rw [Bool.and_eq_true]
  exact and_congr CadenceRec.timing_iff ⟨of_decide_eq_true, decide_eq_true⟩

theorem State.sampleDue_iff {s : State} :
    s.sampleDue = true ↔ s.setup.debounce ≤ elapsed s.doorUnit.lastSample s.time :=
  ⟨of_decide_eq_true, decide_eq_true⟩

theorem SpotList.expired_iff {l : SpotList} {t : Time} :
    l.expired t = true ↔ ∃ t0 e, l.counting = some t0 ∧ l.entries.head? = some e ∧ e.active = false
      ∧ e.linger ≤ elapsed t0 t := by
  unfold SpotList.expired SpotList.governing
  cases l.counting with
  | none => simp
  | some t0 =>
    cases l.entries.head? with
    | none => simp
    | some e => simp

theorem mem_guardKinds (k : GuardKind) : k ∈ guardKinds := by cases k <;> decide

/-- A singleton list that waits on a condition. -/
theorem mem_if_singleton {α : Type} {p : Prop} [Decidable p] {a b : α} :
    a ∈ (if p then [b] else []) ↔ a = b ∧ p := by
  split
  · simp [*]
  · simp [*]

/-- The commands of a filtered list of names. -/
theorem mem_map_filter {α β : Type} {f : α → β} {p : α → Bool} {l : List α} (all : ∀ a, a ∈ l) {b : β} :
    b ∈ (l.filter p).map f ↔ ∃ a, b = f a ∧ p a = true := by
  rw [List.mem_map]
  exact exists_congr fun a => by
    rw [List.mem_filter]
    exact ⟨fun ⟨h, e⟩ => ⟨e.symm, h.2⟩, fun ⟨e, h⟩ => ⟨⟨all a, h⟩, e.symm⟩⟩

theorem State.mem_dueEvents {s : State} {c : Instr} :
    c ∈ s.dueEvents ↔ (∃ n : Camera, c = .staleTimeout n ∧ s.staleDue n = true)
      ∨ (c = .applyingOvertime ∧ s.applyingDue = true)
      ∨ (∃ i : Screen, c = .lingerExpiry i ∧ s.spots[i].expired s.time = true)
      ∨ (∃ k, c = .guardEpisodeClose k ∧ s.guardDue k = true)
      ∨ (c = .sampleInstant s.lines.opens s.lines.alerts s.lines.reverse ∧ s.sampleDue = true) := by
  unfold State.dueEvents
  rw [List.mem_append, List.mem_append, List.mem_append, List.mem_append, mem_map_filter List.mem_finRange,
    mem_map_filter List.mem_finRange, mem_map_filter mem_guardKinds, mem_if_singleton, mem_if_singleton, or_assoc,
    or_assoc, or_assoc]

theorem step_of_idle {s : State} (h : s.pending = []) : step s = .next s.tick := by
  unfold step
  rw [h]

/-- The part after one running microsecond. -/
theorem State.tick_of_running {s : State} (running : s.isRunning) :
    s.tick = { s with time := s.time + 1, pending := s.pending ++ { s with time := s.time + 1 }.dueEvents } := by
  unfold State.tick
  rw [show s.condition = .running from running]

theorem elapsed_eq_mod (t0 t : Time) : elapsed t0 t = (t.toNat + 2 ^ 32 - t0.toNat) % 2 ^ 32 := by
  unfold elapsed
  have := t0.isLt
  rw [BitVec.toNat_sub]
  congr 1
  omega

/-- Settles O2. -/
theorem idleStepIsOneMicrosecond : Obligations.IdleStepIsOneMicrosecond := by
  refine ⟨fun s idle => ⟨fun still => ?_, fun left low => ?_, fun running => ?_⟩, elapsed_eq_mod⟩
  · rw [step_of_idle idle]
    unfold State.tick
    rcases still with h | h <;> rw [h]
  · rw [step_of_idle idle]
    unfold State.tick
    rw [low]
  · refine ⟨_, step_of_idle idle, ?_⟩
    rw [State.tick_of_running running, idle]
    refine ⟨rfl, fun p hp => ?_, fun c => ?_⟩
    · cases p <;> first | rfl | exact absurd (by decide) hp
    · rw [List.nil_append]
      refine (State.mem_dueEvents (s := { s with time := s.time + 1 })).trans ?_
      simp only [State.staleDue_iff, State.applyingDue_iff, SpotList.expired_iff, State.guardDue_iff,
        State.sampleDue_iff]
      refine or_congr Iff.rfl (or_congr Iff.rfl (or_congr ?_ (or_congr ?_ Iff.rfl)))
      · exact exists_congr fun i => by
          constructor
          · rintro ⟨rfl, t0, e, h⟩; exact ⟨t0, e, rfl, h⟩
          · rintro ⟨t0, e, rfl, h⟩; exact ⟨rfl, t0, e, h⟩
      · exact exists_congr fun k => by
          constructor
          · rintro ⟨rfl, e, h⟩; exact ⟨e, rfl, h⟩
          · rintro ⟨e, rfl, h⟩; exact ⟨rfl, e, h⟩

end Sys2Proof.Machine
end

section
/-! The power-on values and the reset line (O3, O4, O6). -/

namespace Sys2Proof.Machine

set_option Elab.async false

/-! ### The power-on values -/

section powerOn

variable (s : State) (straps : BitVec 2)

@[simp] theorem State.powerOn_cameras (c : Camera) : (s.powerOn straps).cameras[c] = .powerOn := by
  simp [State.powerOn, State.reset]

@[simp] theorem State.powerOn_rings (c : Camera) : (s.powerOn straps).rings[c] = .powerOn := by
  simp [State.powerOn, State.reset]

@[simp] theorem State.powerOn_cadence (c : Camera) : (s.powerOn straps).cadence[c] = .powerOn := by
  simp [State.powerOn, State.reset]

@[simp] theorem State.powerOn_lens (c : Camera) : (s.powerOn straps).lens[c] = .powerOn := by
  simp [State.powerOn, State.reset]

@[simp] theorem State.powerOn_doors (d : Door) : (s.powerOn straps).doors[d] = .powerOn := by
  simp [State.powerOn, State.reset]

@[simp] theorem State.powerOn_screens (i : Screen) : (s.powerOn straps).screens[i] = .powerOn := by
  simp [State.powerOn, State.reset]

@[simp] theorem State.powerOn_contexts (i : Screen) : (s.powerOn straps).contexts[i] = none := by
  simp [State.powerOn, State.reset]

@[simp] theorem State.powerOn_layouts (l : Fin 32) : (s.powerOn straps).layouts[l] = .powerOn := by
  simp [State.powerOn, State.reset]

@[simp] theorem State.powerOn_panes (p : Fin 224) : (s.powerOn straps).panes[p] = .powerOn := by
  simp [State.powerOn, State.reset]

@[simp] theorem State.powerOn_hold (h : HoldId) : (s.powerOn straps).holds.table.get h = none := by
  simp [State.powerOn, State.reset, HoldUnit.powerOn, Vector.get_eq_getElem]

@[simp] theorem State.powerOn_episode (k : GuardKind) : (s.powerOn straps).episode k = none := by
  simp [State.powerOn, State.reset, State.episode, Vector.get_eq_getElem]

@[simp] theorem State.powerOn_slot (i : Nat) : (s.powerOn straps).slot i = .fresh := rfl

end powerOn

/-- The reset state is a release with the straps unconnected. -/
theorem State.reset_eq_powerOn : State.reset = State.reset.powerOn 0 := rfl

theorem LensRec.powerOn_inRange : LensRec.powerOn.inRange := by
  simp [LensRec.inRange, LensRec.powerOn, Vector.get_eq_getElem, Config.learnFrames, Config.learnLimit]

theorem LensRec.powerOn_verdictFresh : LensRec.powerOn.verdictFresh := by
  simp [LensRec.verdictFresh, LensRec.powerOn, Vector.get_eq_getElem]

theorem LensRec.powerOn_noRun : LensRec.powerOn.noRun := by
  simp [LensRec.noRun, LensRec.powerOn, Vector.get_eq_getElem]

theorem State.lensFigures_powerOn (s : State) (straps : BitVec 2) (c : Camera) :
    (s.powerOn straps).lensFigures c := by
  unfold State.lensFigures
  rw [State.powerOn_lens, State.powerOn_cameras, State.powerOn_rings]
  simp [LensRec.powerOn, CameraRec.powerOn, Vector.get_eq_getElem]

theorem State.poolLaws_powerOn (s : State) (straps : BitVec 2) : (s.powerOn straps).poolLaws := by
  have empty : (s.powerOn straps).pool.slots = [] := rfl
  unfold State.poolLaws
  simp only [State.powerOn_rings, State.powerOn_cameras, empty]
  simp [RingRec.powerOn, CameraRec.powerOn, RingRec.members]

theorem State.latchCount_powerOn (s : State) (straps : BitVec 2) (i : Nat) : (s.powerOn straps).latchCount i = 0 := by
  unfold State.latchCount
  simp only [State.powerOn_contexts]
  exact congrFun List.countP_false _

theorem State.slotLaws_powerOn (s : State) (straps : BitVec 2) : (s.powerOn straps).slotLaws := by
  have empty : (s.powerOn straps).pool.slots = [] := rfl
  unfold State.slotLaws
  simp only [State.powerOn_rings, State.powerOn_hold, empty, State.latchCount_powerOn, State.powerOn_slot]
  simp [RingRec.powerOn, SlotRec.fresh]

/-- Settles O3: every vector of the reset state repeats one power-on value. -/
theorem resetHoldsThePowerOnValues : Obligations.ResetHoldsThePowerOnValues := by
  unfold Obligations.ResetHoldsThePowerOnValues
  intro s
  have hs : s = s.powerOn 0 := State.reset_eq_powerOn
  have lens : ∀ c : Camera, s.lens[c] = .powerOn := s.powerOn_lens 0
  refine ⟨rfl, rfl, rfl, ?_, rfl, rfl, rfl, fun c => ⟨s.powerOn_cameras 0 c, ?_, s.powerOn_rings 0 c⟩,
    s.powerOn_cadence 0, fun c => ?_,
    fun i => ⟨s.powerOn_screens 0 i, s.powerOn_contexts 0 i, congrArg SpotList.entries (s.powerOn_spots 0 i)⟩,
    s.powerOn_layouts 0, s.powerOn_panes 0, fun d => ⟨s.powerOn_doors 0 d, ?_, ?_, ?_⟩, rfl, s.powerOn_hold 0, rfl,
    rfl, rfl, rfl, rfl, rfl, rfl, rfl, rfl, rfl, ?_, rfl, s.powerOn_episode 0, fun t => ?_, rfl⟩
  · unfold State.holdCount
    rw [hs]
    simp
  · unfold State.starved
    rw [hs, State.powerOn_cameras]
    rfl
  · rw [lens]
    exact ⟨rfl, rfl, rfl, rfl, rfl, rfl, rfl, LensRec.powerOn_verdictFresh, LensRec.powerOn_noRun⟩
  · simp [s, State.reset, DoorUnit.powerOn, Vector.get_eq_getElem]
  · simp [s, State.reset, DoorUnit.powerOn, Vector.get_eq_getElem, Debouncer.unknown]
  · simp [s, State.reset, DoorUnit.powerOn, Vector.get_eq_getElem, Debouncer.unknown]
  · simp [s, State.reset, Engine.powerOn, Vector.get_eq_getElem]
  · revert t
    decide

/-- Settles O4. -/
theorem resetMeetsTheInvariants : Obligations.ResetMeetsTheInvariants := by
  unfold Obligations.ResetMeetsTheInvariants
  intro s
  have spots : ∀ i : Screen, s.spots[i] = .empty := s.powerOn_spots 0
  have ⟨holds, doors⟩ : s.holdLaws := s.holdLaws_powerOn 0
  refine ⟨rfl, rfl, ⟨fun h => (by cases h), by decide⟩, fun i => ?_, s.cadenceLaws_powerOn 0,
    fun c => ⟨?_, s.lensFigures_powerOn 0 c⟩, holds, doors, s.poolLaws_powerOn 0, s.slotLaws_powerOn 0,
    s.regionsApart_powerOn 0⟩
  · rw [spots]
    exact ⟨SpotList.empty_inOrder, SpotList.empty_inActivationOrder, fun a ha => absurd ha List.not_mem_nil⟩
  · rw [show s.lens[c] = .powerOn from s.powerOn_lens 0 c]
    exact LensRec.powerOn_inRange

/-! ### The reset line -/

theorem notBeat_eq_tag (c : Instr) : notBeat c = c.tag?.isNone := by cases c <;> rfl

/-- A command that is not of the reset line takes place while the part runs. -/
theorem exec_eq_whileRunning {c : Instr} (h : c.isReset = false) : ∃ f, ∀ s, exec c s = whileRunning s f := by
  cases c with
  | powerOnReset => cases h
  | resetNFall => cases h
  | _ => exact ⟨_, fun _ => rfl⟩

theorem whileRunning_of_low {s : State} (h : s.condition.low = true) (f : State → State) :
    whileRunning s f = .next s := by
  unfold whileRunning
  revert h
  cases s.condition <;> intro h <;> first | rfl | cases h

theorem whileRunning_of_undefined {s : State} (h : s.condition = .undefinedState) (f : State → State) :
    whileRunning s f = .fault .undefinedPart := by
  unfold whileRunning
  rw [h]

theorem State.attn_of_low {s : State} (h : s.condition.low = true) : s.attn = false := by
  unfold State.attn
  revert h
  cases s.condition <;> intro h <;> first | rfl | cases h

/-- The state that a fall of RESET_N leaves is low. -/
theorem fallCondition_low (low : Nat) (refclk : Bool) :
    (if 10 ≤ low ∧ refclk = true then Condition.heldInReset else .lowPulse low).low = true := by
  split <;> rfl

theorem State.arrive_of_low {s : State} {q : Request} (h : s.lineAtBack.low = true) : s.arrive q = s := by
  unfold State.arrive
  simp [h]

/-- The command at the back of the queue is the last to act on the reset line. -/
theorem State.lineAtBack_of_getLast {s : State} {c : Instr} (h : s.pending.getLast? = some c) :
    ∃ x : ResetLine, s.lineAtBack = x.after c := by
  obtain ⟨front, hf⟩ := List.getLast?_eq_some_iff.mp h
  unfold State.lineAtBack
  rw [hf, List.foldl_append]
  exact ⟨_, rfl⟩

/-- Settles O6. -/
theorem resetLineFallsAndHolds : Obligations.ResetLineFallsAndHolds := by
  refine ⟨fun low refclk s => ⟨_, rfl, rfl, State.attn_of_low (fallCondition_low low refclk), rfl, fun p hp => ?_⟩,
    fun c s notReset => ?_, fun low refclk s => ?_, fun s q => ⟨fun idle low => ?_, fun low refclk last => ?_,
      fun straps last => ?_⟩⟩
  · cases p <;> first | rfl | exact absurd (by decide) hp
  · obtain ⟨f, hf⟩ := exec_eq_whileRunning notReset
    refine ⟨fun low => ⟨?_, State.attn_of_low low⟩, fun undefined => ?_⟩ <;> rw [hf]
    · exact whileRunning_of_low low f
    · exact whileRunning_of_undefined undefined f
  · refine ⟨fun p hp => ?_, ?_, fun q => State.arrive_of_low (s.resetFalls_low low refclk), fun beats => ?_⟩
    · cases p <;> first | rfl | exact absurd (by decide) hp
    · exact congrArg (· ++ _) (List.filter_congr fun c _ => notBeat_eq_tag c)
    · have abandoned : s.pending.filter notBeat = [] := List.filter_eq_nil_iff.mpr fun c hc => by
        rw [notBeat_eq_tag, Option.isNone_iff_eq_none, ← Option.not_isSome_iff_eq_none]
        exact not_not.mpr (beats c hc)
      refine ⟨{ s with
        condition := if 10 ≤ low ∧ refclk = true then .heldInReset else .lowPulse low
        port := ⟨none, none⟩, pending := [] }, ?_, fallCondition_low low refclk, rfl,
        fun p hp => ?_⟩
      · unfold step
        rw [State.resetFalls_pending, abandoned]
        rfl
      · cases p <;> first | rfl | exact absurd (by decide) hp
  · refine State.arrive_of_low ?_
    unfold State.lineAtBack
    rw [idle]
    exact low
  · obtain ⟨x, hx⟩ := State.lineAtBack_of_getLast last
    exact State.arrive_of_low (by rw [hx]; rfl)
  · obtain ⟨x, hx⟩ := State.lineAtBack_of_getLast last
    unfold State.arrive
    rw [hx]
    rfl

end Sys2Proof.Machine
end

section
/-! The slot records, the choice of a landing target, the free pool and pins (O44, O45, O46). -/

namespace Sys2Proof.Machine

set_option Elab.async false

/-! ### Slot records -/

theorem State.slot_eq_getElem {s : State} {i : Nat} (h : i < s.pool.slots.length) : s.slot i = s.pool.slots[i] := by
  simp [State.slot, h]

/-- Beyond the slot table a slot reads as a free one. -/
theorem State.slot_of_le {s : State} {i : Nat} (h : s.pool.slots.length ≤ i) : s.slot i = .fresh := by
  simp [State.slot, h]

theorem State.slot_congr {s t : State} (h : t.pool = s.pool) (i : Nat) : t.slot i = s.slot i := by
  unfold State.slot
  rw [h]

theorem State.slot_setSlot_self (s : State) {i : Nat} (r : SlotRec) (h : i < s.pool.slots.length) :
    (s.setSlot i r).slot i = r := by
  simp [State.slot, h]

theorem State.slot_setSlot_of_ne (s : State) {i k : Nat} (r : SlotRec) (h : k ≠ i) :
    (s.setSlot i r).slot k = s.slot k := by
  simp [State.slot, h.symm]

@[simp] theorem State.setSlot_length (s : State) (i : Nat) (r : SlotRec) :
    (s.setSlot i r).pool.slots.length = s.pool.slots.length := by simp

theorem State.setSlot_setSlot (s : State) (i : Nat) (r r' : SlotRec) :
    (s.setSlot i r).setSlot i r' = s.setSlot i r' := by
  simp [State.setSlot]

@[simp] theorem State.slot_setRing (s : State) (c : Camera) (r : RingRec) (i : Nat) :
    (s.setRing c r).slot i = s.slot i := rfl

theorem State.setSlot_setRing (s : State) (c : Camera) (r : RingRec) (i : Nat) (x : SlotRec) :
    (s.setRing c r).setSlot i x = (s.setSlot i x).setRing c r := rfl

theorem State.setSlot_touches (s : State) (i : Nat) (r : SlotRec) : Touches [.pool] s (s.setSlot i r) := by
  intro p hp
  cases p <;> first | rfl | exact absurd (by decide) hp

/-! ### The landing target -/

theorem targetChoice_of_empty {pins : Nat → Nat} {g : RingRec} {i : Nat} {rest : List Nat} (h : g.empty = i :: rest) :
    targetChoice pins g = some (i, { g with empty := rest, filling := some i }) := by
  unfold targetChoice
  rw [h]

/-- Without an EMPTY member the choice goes through the READY members but the newest. -/
theorem targetChoice_of_full {pins : Nat → Nat} {g : RingRec} (h : g.empty = []) :
    targetChoice pins g = (g.ready.dropLast.find? fun i => pins i = 0).map fun i =>
      (i, { g with ready := g.ready.erase i, filling := some i }) := by
  unfold targetChoice
  rw [h]
  dsimp only
  cases g.ready.dropLast.find? fun i => pins i = 0 <;> rfl

/-- Erasing a member from a ring's READY part leaves the members before and behind it. -/
theorem erase_middle {α : Type} [DecidableEq α] {older newer : List α} {i : α} (h : (older ++ i :: newer).Nodup) :
    (older ++ i :: newer).erase i = older ++ newer := by
  rw [List.erase_append_right, List.erase_cons_head]
  exact fun hi => (List.nodup_append.mp h).2.2 i hi i (List.mem_cons_self ..) rfl

theorem targetChoice_of_ready {pins : Nat → Nat} {g : RingRec} {older newer : List Nat} {i newest : Nat}
    (empty : g.empty = []) (ready : g.ready = older ++ i :: newer ++ [newest]) (nodup : g.ready.Nodup)
    (pinned : ∀ k ∈ older, pins k ≠ 0) (free : pins i = 0) :
    targetChoice pins g = some (i, { g with ready := older ++ newer ++ [newest], filling := some i }) := by
  have found : (older ++ i :: newer).find? (fun i => decide (pins i = 0)) = some i :=
    List.find?_eq_some_iff_append.mpr ⟨by simpa using free, older, newer, rfl, fun k hk => by simpa using pinned k hk⟩
  rw [targetChoice_of_full empty, ready, List.dropLast_concat, found]
  rw [ready, List.append_assoc] at nodup
  have erased := erase_middle (older := older) (newer := newer ++ [newest]) nodup
  rw [Option.map_some, List.append_assoc, List.cons_append, erased, List.append_assoc]

theorem targetChoice_none {pins : Nat → Nat} {g : RingRec} (empty : g.empty = [])
    (pinned : ∀ k ∈ g.ready.dropLast, pins k ≠ 0) : targetChoice pins g = none := by
  rw [targetChoice_of_full empty, List.find?_eq_none.mpr fun k hk => by simpa using pinned k hk]
  rfl

/-- Settles O44. -/
theorem landingTargetChoice : Obligations.LandingTargetChoice := fun pins g =>
  ⟨fun _ _ => targetChoice_of_empty, fun _ _ _ _ => targetChoice_of_ready, fun older newest empty ready pinned => by
    refine targetChoice_none empty fun k hk => pinned k ?_
    rcases ready with h | ⟨h, -⟩
    · rwa [h, List.dropLast_concat] at hk
    · rw [h] at hk
      exact absurd hk List.not_mem_nil⟩

/-! ### The free pool -/

theorem lowestFree_eq_findIdx? (l : List SlotRec) (j : Nat) :
    lowestFree l j = (l.findIdx? fun r => decide (r.disp = .free)).map (· + j) := by
  induction l generalizing j with
  | nil => rfl
  | cons r rest ih =>
    unfold lowestFree
    rw [List.findIdx?_cons]
    split
    · rename_i free
      simp [free]
    · rename_i taken
      simp only [taken, decide_false, Bool.false_eq_true, if_false, ih, Option.map_map]
      congr 1
      funext n
      simp only [Function.comp_apply]
      omega

theorem State.lowestFree_eq (s : State) :
    s.lowestFree = s.pool.slots.findIdx? fun r => decide (r.disp = .free) := by
  unfold State.lowestFree
  rw [lowestFree_eq_findIdx?]
  simp

theorem State.lowestFree_eq_some_iff {s : State} {i : Nat} :
    s.lowestFree = some i ↔ i < s.pool.slots.length ∧ (s.slot i).disp = .free
      ∧ ∀ k, k < i → (s.slot k).disp ≠ .free := by
  rw [State.lowestFree_eq, List.findIdx?_eq_some_iff_getElem]
  constructor
  · rintro ⟨hi, free, first⟩
    rw [State.slot_eq_getElem hi]
    refine ⟨hi, of_decide_eq_true free, fun k hk => ?_⟩
    rw [State.slot_eq_getElem (hk.trans hi)]
    exact fun h => first k hk (decide_eq_true h)
  · rintro ⟨hi, free, first⟩
    rw [State.slot_eq_getElem hi] at free
    refine ⟨hi, decide_eq_true free, fun k hk h => first k hk ?_⟩
    rw [State.slot_eq_getElem (hk.trans hi)]
    exact of_decide_eq_true h

theorem State.lowestFree_eq_none_iff {s : State} :
    s.lowestFree = none ↔ ∀ i, i < s.pool.slots.length → (s.slot i).disp ≠ .free := by
  rw [State.lowestFree_eq, List.findIdx?_eq_none_iff, List.forall_mem_iff_forall_getElem]
  refine forall_congr' fun i => forall_congr' fun hi => ?_
  rw [State.slot_eq_getElem hi]
  exact decide_eq_false_iff_not

theorem State.freeCount_eq_zero_iff {s : State} : s.freeCount = 0 ↔ s.lowestFree = none := by
  unfold State.freeCount
  rw [State.lowestFree_eq, List.findIdx?_eq_none_iff, List.countP_eq_zero]
  exact forall_congr' fun r => imp_congr_right fun _ => Bool.not_eq_true _ ▸ Iff.rfl

/-- Taking a free slot makes the free count one less. -/
theorem State.freeCount_setSlot {s : State} {i : Nat} {r : SlotRec} (hi : i < s.pool.slots.length)
    (free : (s.slot i).disp = .free) (taken : r.disp ≠ .free) : (s.setSlot i r).freeCount + 1 = s.freeCount := by
  rw [State.slot_eq_getElem hi] at free
  have some : 0 < s.pool.slots.countP fun r => decide (r.disp = .free) :=
    List.countP_pos_iff.mpr ⟨_, List.getElem_mem hi, by simpa using free⟩
  unfold State.freeCount
  rw [State.setSlot_pool, List.countP_set hi]
  simp only [free, taken, decide_true, decide_false, if_true]
  simp
  omega

theorem State.claimSlot_eq_some_iff {s t : State} {c : Camera} {i : Nat} :
    s.claimSlot c = some (i, t) ↔ s.lowestFree = some i ∧ t = s.setSlot i ⟨.ring c .empty, 0, none⟩ := by
  unfold State.claimSlot
  cases s.lowestFree with
  | none => simp
  | some j =>
    simp only [Option.some.injEq, Prod.mk.injEq]
    exact ⟨fun ⟨hj, ht⟩ => ⟨hj, hj ▸ ht.symm⟩, fun ⟨hj, ht⟩ => ⟨hj, hj ▸ ht.symm⟩⟩

/-- Settles O45. -/
theorem lowestFreeSlotIsTaken : Obligations.LowestFreeSlotIsTaken := fun s =>
  ⟨fun _ => State.lowestFree_eq_some_iff, State.lowestFree_eq_none_iff, State.freeCount_eq_zero_iff.symm,
    fun c i t claim => by
      obtain ⟨lowest, rfl⟩ := State.claimSlot_eq_some_iff.mp claim
      obtain ⟨hi, free, -⟩ := State.lowestFree_eq_some_iff.mp lowest
      exact ⟨lowest, State.freeCount_setSlot hi free (by simp), s.slot_setSlot_self _ hi,
        fun k hk => s.slot_setSlot_of_ne _ hk⟩⟩

/-! ### Pins -/

theorem State.pin_of_newest {s : State} {c : Camera} {i : Nat} (on : s.cameras[c].enable = true)
    (newest : s.rings[c].newest = some i) :
    s.pin c = (s.setSlot i { s.slot i with pins := (s.slot i).pins + 1 }, some i) := by
  unfold State.pin
  rw [on, newest]

theorem State.pin_none {s : State} {c : Camera} (h : s.cameras[c].enable = false ∨ s.rings[c].newest = none) :
    s.pin c = (s, none) := by
  unfold State.pin
  rcases h with h | h
  · rw [h]
  · rw [h]
    cases s.cameras[c].enable <;> rfl

theorem State.unpin_of_zero {s : State} {i : Nat} (h : (s.slot i).pins = 0) : s.unpin i = s := if_pos h

theorem State.unpin_of_many {s : State} {i : Nat} (h : 1 < (s.slot i).pins) :
    s.unpin i = s.setSlot i { s.slot i with pins := (s.slot i).pins - 1 } := by
  unfold State.unpin
  rw [if_neg (by omega)]
  exact if_neg (by omega)

/-- The last pin goes: the count reads 0, and R20's cases follow. -/
theorem State.unpin_of_one {s : State} {i : Nat} (h : (s.slot i).pins = 1) :
    s.unpin i = (s.setSlot i { s.slot i with pins := 0 }).unpinned i := by
  unfold State.unpin
  rw [if_neg (by omega)]
  dsimp only
  rw [if_pos h, h]

theorem State.unpinned_retiring {s : State} {i : Nat} (h : (s.slot i).disp = .retiring) :
    s.unpinned i = s.setSlot i .fresh := by
  unfold State.unpinned
  rw [h]

theorem State.unpinned_held {s : State} {i : Nat} {k : HoldId} (h : (s.slot i).disp = .held k) : s.unpinned i = s := by
  unfold State.unpinned
  rw [h]

theorem State.unpinned_ready {s : State} {i : Nat} {c : Camera} (h : (s.slot i).disp = .ring c .ready) :
    s.unpinned i = if s.starved c ∧ s.rings[c].newest ≠ some i then s.endStarved c else s := by
  unfold State.unpinned
  rw [h]

theorem State.starved_iff {s : State} {c : Camera} :
    s.starved c = true ↔ s.cameras[c].enable = true ∧ s.rings[c].filling = none := by
  unfold State.starved
  rw [Bool.and_eq_true, Option.isNone_iff_eq_none]

theorem State.endStarved_of_choice {s : State} {c : Camera} {i : Nat} {g : RingRec}
    (h : targetChoice (fun i => (s.slot i).pins) s.rings[c] = some (i, g)) :
    s.endStarved c = ((s.setRing c g).setSlot i ⟨.ring c .filling, (s.slot i).pins, none⟩).emit (.starved c false) := by
  unfold State.endStarved State.takeTarget
  rw [h]

/-- Settles O46: a pin, and the unpin by the count it finds and, from 1, by the slot's disposition. -/
theorem pinsAndUnpins : Obligations.PinsAndUnpins := fun s => by
  refine ⟨fun c i on newest hi => ?_, fun c none => ?_, fun i hi => ⟨State.unpin_of_zero, State.unpin_of_many,
    fun one retiring => ?_, fun h one held => ?_, fun c one ready calm => ?_,
    fun c older newer newest one ready on starved full order nodup pinned => ?_⟩⟩
  · rw [State.pin_of_newest on newest]
    exact ⟨rfl, s.slot_setSlot_self _ hi, fun k hk => s.slot_setSlot_of_ne _ hk, s.setSlot_touches _ _⟩
  · refine State.pin_none (none.imp_right fun h => ?_)
    unfold RingRec.newest
    rw [h]
    rfl
  all_goals
    have after := s.slot_setSlot_self { s.slot i with pins := 0 } hi
    rw [State.unpin_of_one one]
  · rw [State.unpinned_retiring (by rw [after]; exact retiring), State.setSlot_setSlot]
    rfl
  · exact State.unpinned_held (k := h) (by rw [after]; exact held)
  · rw [State.unpinned_ready (c := c) (by rw [after]; exact ready), if_neg]
    rintro ⟨starved, other⟩
    obtain ⟨on, missing⟩ := State.starved_iff.mp starved
    rcases calm with off | filling | newest
    · exact absurd (on.symm.trans off) (by decide)
    · exact filling missing
    · exact other newest
  · rw [State.unpinned_ready (c := c) (by rw [after]; exact ready), if_pos]
    · have others : ∀ k ∈ older, ((s.setSlot i { s.slot i with pins := 0 }).slot k).pins ≠ 0 := fun k hk => by
        rw [s.slot_setSlot_of_ne]
        · exact pinned k hk
        · rintro rfl
          rw [order, List.append_assoc] at nodup
          exact (List.nodup_append.mp nodup).2.2 k hk k (by simp) rfl
      have choice := targetChoice_of_ready (g := (s.setSlot i { s.slot i with pins := 0 }).rings[c])
        (pins := fun k => ((s.setSlot i { s.slot i with pins := 0 }).slot k).pins) full order nodup others
        (congrArg SlotRec.pins after)
      rw [State.endStarved_of_choice choice, after,
        State.setSlot_setRing, State.setSlot_setSlot, State.setSlot_setRing]
      rfl
    · refine ⟨State.starved_iff.mpr ⟨on, starved⟩, fun newestIs => ?_⟩
      have isNewest : s.rings[c].newest = some newest := by
        unfold RingRec.newest
        rw [order, List.getLast?_concat]
      have : i = newest := Option.some.inj (newestIs.symm.trans isNewest)
      rw [order] at nodup
      exact (List.nodup_append.mp nodup).2.2 i (by simp) newest (by simp) this

end Sys2Proof.Machine
end

section
/-! The judgement of an arrival and the stale timeout (O47, O48). -/

namespace Sys2Proof.Machine

set_option Elab.async false

section judgement

variable {c : Camera} {period : Nat} {t p : Time} {r : CadenceRec}

/-! ### The judgement -/

/-- The judgement leaves the signature's part of the record. -/
theorem judgeArrival_signature (c : Camera) (period : Nat) (t : Time) (r : CadenceRec) :
    (judgeArrival c period t r).1.prevSig = r.prevSig ∧ (judgeArrival c period t r).1.run = r.run
      ∧ (judgeArrival c period t r).1.frozen = r.frozen := by
  unfold judgeArrival
  split
  · exact ⟨rfl, rfl, rfl⟩
  · split
    · exact ⟨rfl, rfl, rfl⟩
    · split <;> [split <;> exact ⟨rfl, rfl, rfl⟩; exact ⟨rfl, rfl, rfl⟩]
  · split
    · exact ⟨rfl, rfl, rfl⟩
    · split <;> [split <;> exact ⟨rfl, rfl, rfl⟩; exact ⟨rfl, rfl, rfl⟩]
  · exact ⟨rfl, rfl, rfl⟩

theorem judgeArrival_first (first : r.previous = none) (h : r.state ≠ .stale) :
    (judgeArrival c period t r).1 = r := by
  have none : arrivalInterval r t = none := by
    unfold arrivalInterval
    rw [first]
    rfl
  unfold judgeArrival
  rw [none]
  cases hs : r.state <;> first | rfl | exact absurd hs h

theorem judgeArrival_stale (h : r.state = .stale) : judgeArrival c period t r =
    ({ r with state := .acquiring, good := 0, slip := 0 }, [.cadence c .stale .acquiring .resume none]) := by
  unfold judgeArrival
  rw [h]

/-- An interval in ACQUIRING (R31). -/
theorem judgeArrival_acquiring (h : r.state = .acquiring) (hp : r.previous = some p) : judgeArrival c period t r =
    if deviation (elapsed p t) period ≤ period / 16 then
      if r.good + 1 = 4 then
        ({ r with state := .locked, good := 0, slip := 0 },
          [.cadence c .acquiring .locked .lock (some (elapsed p t))])
      else ({ r with good := r.good + 1 }, [])
    else ({ r with good := 0 }, []) := by
  have interval : arrivalInterval r t = some (elapsed p t) := by
    unfold arrivalInterval
    rw [hp]
    rfl
  unfold judgeArrival
  rw [h, interval]

/-- An interval in LOCKED (R32). -/
theorem judgeArrival_locked (h : r.state = .locked) (hp : r.previous = some p) : judgeArrival c period t r =
    if period / 8 < deviation (elapsed p t) period then
      if r.slip + 1 = 3 then
        ({ r with state := .acquiring, good := 0, slip := 0 },
          [.cadence c .locked .acquiring .slip (some (elapsed p t))])
      else ({ r with slip := r.slip + 1 }, [])
    else ({ r with slip := 0 }, []) := by
  have interval : arrivalInterval r t = some (elapsed p t) := by
    unfold arrivalInterval
    rw [hp]
    rfl
  unfold judgeArrival
  rw [h, interval]

/-! ### The signature -/

/-- The comparison leaves all but the signature's part of the record, and keeps the signature. -/
theorem compareSignature_fields (c : Camera) (sig : BitVec 16) (r : CadenceRec) :
    (compareSignature c sig r).1 = { r with
      prevSig := some sig, run := (compareSignature c sig r).1.run,
      frozen := (compareSignature c sig r).1.frozen } := by
  unfold compareSignature
  split
  · rfl
  · split
    · dsimp only
      split <;> rfl
    · rfl

theorem compareSignature_first {sig : BitVec 16} (h : r.prevSig = none) :
    compareSignature c sig r = ({ r with run := 0, prevSig := some sig }, []) := by
  unfold compareSignature
  rw [h]

theorem compareSignature_equal {sig : BitVec 16} (h : r.prevSig = some sig) :
    compareSignature c sig r =
      if min (r.run + 1) 8 = 8 ∧ r.frozen = false then
        ({ r with run := min (r.run + 1) 8, frozen := true, prevSig := some sig },
          [.frozen c true .signature (some sig)])
      else ({ r with run := min (r.run + 1) 8, prevSig := some sig }, []) := by
  unfold compareSignature
  rw [h]
  exact if_pos rfl

theorem compareSignature_changed {sig q : BitVec 16} (h : r.prevSig = some q) (hq : q ≠ sig) :
    compareSignature c sig r =
      ({ r with run := 0, frozen := false, prevSig := some sig },
        if r.frozen then [.frozen c false .signature (some sig)] else []) := by
  unfold compareSignature
  rw [h]
  exact if_neg hq

/-! ### An arrival -/

/-- The record that the signature comparison of an arrival finds. -/
def judgedRecord (c : Camera) (period : Nat) (t : Time) (r : CadenceRec) : CadenceRec :=
  { (judgeArrival c period t r).1 with previous := some t, staleRef := t, sigAcc := none }

theorem arrivalOf_eq (c : Camera) (period : Nat) (t : Time) (r : CadenceRec) :
    arrivalOf c period t r =
      ((compareSignature c (r.sigAcc.getD 0) (judgedRecord c period t r)).1,
        (judgeArrival c period t r).2 ++ (compareSignature c (r.sigAcc.getD 0) (judgedRecord c period t r)).2) := rfl

/-- What an arrival leaves outside the run of equal signatures. -/
theorem arrivalOf_record (c : Camera) (period : Nat) (t : Time) (r : CadenceRec) :
    (arrivalOf c period t r).1 = { judgedRecord c period t r with
      prevSig := some (r.sigAcc.getD 0), run := (arrivalOf c period t r).1.run,
      frozen := (arrivalOf c period t r).1.frozen } :=
  compareSignature_fields c _ _

/-- State and counts after an arrival are the judgement's. -/
theorem arrivalOf_judged (c : Camera) (period : Nat) (t : Time) (r : CadenceRec) :
    ((arrivalOf c period t r).1.state, (arrivalOf c period t r).1.good, (arrivalOf c period t r).1.slip)
      = ((judgeArrival c period t r).1.state, (judgeArrival c period t r).1.good,
        (judgeArrival c period t r).1.slip) := by
  rw [arrivalOf_record]
  rfl

/-- The judgement's report stands first. -/
theorem arrivalOf_head {x : Report} (h : (judgeArrival c period t r).2 = [x]) :
    (arrivalOf c period t r).2.head? = some x := by
  rw [arrivalOf_eq, h]
  rfl

/-- The FROZEN report stands last. -/
theorem arrivalOf_getLast {x : Report}
    (h : (compareSignature c (r.sigAcc.getD 0) (judgedRecord c period t r)).2 = [x]) :
    (arrivalOf c period t r).2.getLast? = some x := by
  rw [arrivalOf_eq, h]
  exact List.getLast?_concat

end judgement

/-- Settles O47: the judgement by the state and the interval, then the comparison by the previous signature. -/
theorem arrivalIsJudged : Obligations.ArrivalIsJudged := fun c period t r => by
  intro x dev
  have judged := arrivalOf_judged c period t r
  have record := arrivalOf_record c period t r
  obtain ⟨hsig, hrun, hfrozen⟩ := judgeArrival_signature c period t r
  refine ⟨by rw [record]; rfl, by rw [record]; rfl, by rw [record]; rfl, by rw [record], fun first moving => ?_,
    fun stale => ?_, fun p hp acquiring => ⟨fun wide => ?_, fun close few => ?_, fun close full => ?_⟩,
    fun p hp locked => ⟨fun close => ?_, fun wide few => ?_, fun wide full => ?_⟩, fun first => ?_,
    fun p hp same => ?_, fun p hp changed => ?_⟩
  · rw [judgeArrival_first first moving] at judged
    exact judged
  · have judge := judgeArrival_stale (c := c) (period := period) (t := t) stale
    exact ⟨judged.trans (by rw [judge]), arrivalOf_head (by rw [judge])⟩
  · have judge := judgeArrival_acquiring (c := c) (period := period) (t := t) acquiring hp
    rw [if_neg (show ¬deviation (elapsed p t) period ≤ period / 16 from Nat.not_le.mpr wide)] at judge
    exact judged.trans (by rw [judge, acquiring])
  · have judge := judgeArrival_acquiring (c := c) (period := period) (t := t) acquiring hp
    rw [if_pos (show deviation (elapsed p t) period ≤ period / 16 from close), if_neg (by omega)] at judge
    exact judged.trans (by rw [judge, acquiring])
  · have judge := judgeArrival_acquiring (c := c) (period := period) (t := t) acquiring hp
    rw [if_pos (show deviation (elapsed p t) period ≤ period / 16 from close), if_pos (by omega)] at judge
    exact ⟨judged.trans (by rw [judge]), arrivalOf_head (by rw [judge])⟩
  · have judge := judgeArrival_locked (c := c) (period := period) (t := t) locked hp
    rw [if_neg (show ¬period / 8 < deviation (elapsed p t) period from Nat.not_lt.mpr close)] at judge
    exact judged.trans (by rw [judge, locked])
  · have judge := judgeArrival_locked (c := c) (period := period) (t := t) locked hp
    rw [if_pos (show period / 8 < deviation (elapsed p t) period from wide), if_neg (by omega)] at judge
    exact judged.trans (by rw [judge, locked])
  · have judge := judgeArrival_locked (c := c) (period := period) (t := t) locked hp
    rw [if_pos (show period / 8 < deviation (elapsed p t) period from wide), if_pos (by omega)] at judge
    exact ⟨judged.trans (by rw [judge]), arrivalOf_head (by rw [judge])⟩
  · have compare := compareSignature_first (c := c) (r := judgedRecord c period t r) (sig := r.sigAcc.getD 0)
      (hsig.trans first)
    exact ⟨congrArg (fun y => y.1.run) compare, .trans (congrArg (fun y => y.1.frozen) compare) hfrozen⟩
  · have compare := compareSignature_equal (c := c) (r := judgedRecord c period t r) (sig := r.sigAcc.getD 0)
      (hsig.trans (same ▸ hp))
    rw [show (judgedRecord c period t r).run = r.run from hrun,
      show (judgedRecord c period t r).frozen = r.frozen from hfrozen] at compare
    split at compare
    · rename_i full
      obtain ⟨full, thawed⟩ := full
      refine ⟨congrArg (fun y => y.1.run) compare, ?_, fun _ _ => arrivalOf_getLast (by rw [compare, same])⟩
      rw [show x.1.frozen = true from congrArg (fun y => y.1.frozen) compare]
      exact ⟨fun _ => .inr (by omega), fun _ => rfl⟩
    · rename_i short
      refine ⟨congrArg (fun y => y.1.run) compare, ?_, fun thawed long => absurd ⟨by omega, thawed⟩ short⟩
      rw [show x.1.frozen = r.frozen from congrArg (fun y => y.1.frozen) compare]
      refine ⟨.inl, fun h => h.elim id fun long => ?_⟩
      rw [← Bool.not_eq_false]
      exact fun thawed => short ⟨by omega, thawed⟩
  · have compare := compareSignature_changed (c := c) (r := judgedRecord c period t r) (hsig.trans hp) changed
    refine ⟨congrArg (fun y => y.1.run) compare, congrArg (fun y => y.1.frozen) compare, fun frozen =>
      arrivalOf_getLast ?_⟩
    rw [compare, show (judgedRecord c period t r).frozen = true from hfrozen.trans frozen]
    rfl

/-! ### The stale timeout -/

theorem State.cadenceTo_logged (s : State) (c : Camera) (x : CadenceRec × List Report) :
    Logged x.2 s (s.cadenceTo c x) :=
  Logged.trans (rs := []) (t := s.setCadence c x.1) ⟨rfl, rfl, rfl⟩ (.emitAll _ x.2)

theorem State.cadenceTo_cadence (s : State) (c : Camera) (x : CadenceRec × List Report) :
    (s.cadenceTo c x).cadence = upd s.cadence c x.1 := State.emitAll_cadence ..

/-- Settles O48. -/
theorem staleTimeoutRunsOut : Obligations.StaleTimeoutRunsOut := fun c s running => by
  intro r due
  have run := exec_staleTimeout running c
  unfold State.staleTimeout at run
  refine ⟨fun h => ?_, fun h => ?_⟩
  · rw [if_pos (State.staleDue_iff.mpr h)] at run
    refine ⟨_, run, (s.cadenceTo_effect c _).touches.mono (by decide), ?_, fun c' hc => ?_,
      (s.cadenceTo_logged c _).reported_self⟩ <;> rw [State.cadenceTo_cadence]
    · exact upd_getElem_self ..
    · exact upd_getElem_of_ne _ _ hc
  · rw [if_neg fun k => h (State.staleDue_iff.mp k)] at run
    exact run

end Sys2Proof.Machine
end

section
/-! What each row touches (O7), what a GENERAL tag can do (O16), and the Status Window (O20). -/

namespace Sys2Proof.Machine

set_option Elab.async false

/-! ### The pieces of a row -/

theorem Touches.whileRunning {ps : List Piece} {s t : State} {f : State → State} (h : whileRunning s f = .next t)
    (k : Touches ps s (f s)) : Touches ps s t := by
  rcases whileRunning_cases h with rfl | ⟨-, rfl⟩
  · exact .refl ps t
  · exact k

theorem Touches.asControl {ps : List Piece} {s : State} {f : State → State} (r : Requester) (n : Nat)
    (h : Touches ps s (f s)) : Touches (.episodes :: ps) s (s.asControl r n f) :=
  .ite (fun _ => h.mono (List.subset_cons_self ..)) fun _ => (s.guardDrop_touches _ _ _).mono (by simp)

/-- A Command Word row changes its command's pieces, the port and, dropped, a guard episode. -/
theorem commandWrite_touches {r : Requester} {d : Word} {c : Command} {tag : Byte} {s t : State}
    (h : commandWrite r d c tag s = .next t) {ps : List Piece}
    (sub : (.episodes :: Command.pieces c) ++ [.port] ⊆ ps) (mem : .mem ∈ Command.pieces c) : Touches ps s t :=
  .whileRunning (f := fun s => (s.asControl r 8 fun s => s.commandBeat d c tag).completeWrite r) h
    ((Touches.asControl r 8 (f := fun s => s.commandBeat d c tag)
      (s.commandBeat_touches d c tag (List.Subset.refl _) mem)).completeWrite r sub)

theorem State.portWrite_plain_touches (s : State) (r : Requester) (addr : BitVec 29) (w : WriteData)
    (page : ¬s.inPage (beatAddr addr.toNat)) : Touches [.mem, .episodes, .port] s (s.portWrite r addr.toNat w) := by
  cases area : s.pool.inArea (beatAddr addr.toNat) with
  | true =>
    rw [State.portWrite_of_region (State.regionOf_slotArea (beatAddr_lt addr) page area)]
    exact (s.guardDrop_touches _ _ _).completeWrite r (by decide)
  | false =>
    rw [State.portWrite_of_region (State.regionOf_plain (beatAddr_lt addr) page area)]
    exact (s.setMem_touches _).completeWrite r (by decide)

theorem State.portWrite_unmapped (s : State) (r : Requester) {addr : BitVec 32} (w : WriteData)
    (h : unmappedAddress addr = true) : s.portWrite r addr.toNat w =
      (s.guardDrop .unmapped r.tag (BitVec.ofNat 32 (beatAddr addr.toNat))).completeWrite r := by
  have above : 0x34000000 ≤ addr.toNat := of_decide_eq_true h
  have beyond : 0x34000000 ≤ beatAddr addr.toNat := by unfold beatAddr; omega
  exact State.portWrite_of_region (State.regionOf_unmapped_iff.mpr beyond) r w

theorem State.screenBeat_touches (s : State) (r : Requester) (i : Screen) (n : Nat) :
    Touches [.mem, .ring, .pool, .rings, .contexts, .engine, .port] s (s.screenBeat r i n) := by
  unfold State.screenBeat
  refine Touches.returnWord (ps := [.mem, .ring, .pool, .rings, .contexts, .engine]) ?_ r _ (by decide)
  exact .ite (fun _ => (s.frameStart_effect i).touches.mono (by decide)) fun _ => .refl _ s

theorem State.statusBeat_touches (s : State) (r : Requester) (n : Fin 4) :
    Touches [.engine, .port] s (s.statusBeat r n) :=
  Touches.returnWord (.ite (fun _ => s.setEngine_touches _) fun _ => .refl _ s) r _ (by decide)

theorem State.powerOn_touches (s : State) (straps : BitVec 2) :
    Touches [.condition, .straps, .port, .time, .setup, .cameras, .doors, .screens, .layouts, .panes, .pool, .rings,
      .cadence, .lens, .contexts, .doorUnit, .spots, .holds, .engine, .ring, .episodes] s (s.powerOn straps) := by
  intro p hp
  cases p <;> first | rfl | exact absurd (by decide) hp

theorem State.fall_touches (s : State) (x : Condition) :
    Touches [.condition, .port] s { s with condition := x, port := ⟨none, none⟩ } := by
  intro p hp
  cases p <;> first | rfl | exact absurd (by decide) hp

/-- A command not of the reset line is carried out by a running part, or leaves the part as it is. -/
theorem exec_same_or_running {c : Instr} {s t : State} (notReset : c.isReset = false) (h : exec c s = .next t) :
    t = s ∨ s.isRunning := by
  obtain ⟨f, hf⟩ := exec_eq_whileRunning notReset
  rw [hf] at h
  exact (whileRunning_cases h).imp_right And.left

/-- Each row of the running part runs one operation of its block, and its beat is answered. -/
theorem row_touches {c : Instr} {s t : State} (running : s.isRunning) (own : c.ownRow s)
    (notReset : c.isReset = false) (h : exec c s = .next t) : Touches c.pieces s t := by
  cases c with
  | powerOnReset => cases notReset
  | resetNFall => cases notReset
  | plainWriteBeat r addr w =>
    cases (exec_plainWriteBeat running r addr w).symm.trans h
    exact s.portWrite_plain_touches r addr w own
  | plainReadBeat r addr =>
    cases (exec_plainReadBeat running r addr).symm.trans h
    rw [State.portRead_memory (own _ rfl)]
    exact s.returnWord_touches r _
  | zeroWordRead r addr =>
    cases (exec_zeroWordRead running r addr).symm.trans h
    rw [State.portRead_zero own]
    exact s.returnWord_touches r 0
  | screenWrite r i n w =>
    cases (exec_screenWrite running r i n w).symm.trans h
    exact (s.guardDrop_touches _ _ _).completeWrite r (List.Subset.refl _)
  | unmappedWrite r addr w =>
    cases (exec_unmappedWrite running r addr w).symm.trans h
    rw [s.portWrite_unmapped r w own]
    exact (s.guardDrop_touches _ _ _).completeWrite r (List.Subset.refl _)
  | landingWrite r c n w =>
    cases (exec_landingWrite running r c n w).symm.trans h
    exact (s.landingBeat_touches _ _ _ _).completeWrite r (by simp only [Instr.pieces]; decide)
  | screenRead r i n =>
    cases (exec_screenRead running r i n).symm.trans h
    exact s.screenBeat_touches r i _
  | statusWindowRead r n =>
    cases (exec_statusWindowRead running r n).symm.trans h
    exact s.statusBeat_touches r n
  | controlPageWrite r n w =>
    rw [exec_controlPageWrite, whileRunning_of_running running] at h
    cases h
    refine Touches.completeWrite (ps := [.episodes, .mem]) (.asControl r _ ?_) r (by simp only [Instr.pieces]; decide)
    rw [State.controlBeat_plain own]
    exact .ite (fun _ => .refl _ s) fun _ => s.pageWrite_touches _ w
  | consumerIndex r w =>
    rw [exec_consumerIndex, whileRunning_of_running running] at h
    cases h
    exact (Touches.asControl r _ (s.consumerBeat_touches w)).completeWrite r (by simp only [Instr.pieces]; decide)
  | stagingWrite r n w =>
    rw [exec_stagingWrite, whileRunning_of_running running] at h
    cases h
    exact (Touches.asControl r _ (s.stagingBeat_touches _ w)).completeWrite r (by simp only [Instr.pieces]; decide)
  | load | commit | abortClear | learn | learnSuspend | learnResume | spotSet | spotClear | holdTake | holdRelease
  | holdLock | snapshot | restart =>
    exact commandWrite_touches h (by simp only [Command.pieces, Instr.pieces]; decide)
      (by simp only [Command.pieces]; decide)
  | undefinedCode r code tag spare =>
    have undefined : decodeCommand (commandWord code tag spare) = .undefinedCode code :=
      decodeCommand_of_not_defined own tag spare
    refine commandWrite_touches h ?_ ?_ <;> rw [undefined] <;> simp only [Command.pieces, Instr.pieces] <;> decide
  | staleTimeout c =>
    cases (exec_staleTimeout running c).symm.trans h
    exact (s.staleTimeout_effect c).touches.mono (by simp only [Instr.pieces]; decide)
  | sampleInstant opens alerts rev =>
    cases (exec_sampleInstant running opens alerts rev).symm.trans h
    have lines : Touches [.lines] s { s with lines := ⟨opens, alerts, rev⟩ } := fun p hp => by
      cases p <;> first | rfl | exact absurd (by decide) hp
    exact (lines.trans (State.sampleInstant_effect _).touches).mono (by simp only [Instr.pieces]; decide)
  | lingerExpiry i =>
    cases (exec_lingerExpiry running i).symm.trans h
    exact (s.lingerExpiry_effect i).touches.mono (by simp only [Instr.pieces]; decide)
  | guardEpisodeClose k =>
    cases (exec_guardEpisodeClose running k).symm.trans h
    exact .ite (fun _ => (s.guardClose_effect k).touches.mono (by simp only [Instr.pieces]; decide))
      fun _ => .refl _ s
  | applyingOvertime =>
    cases (exec_applyingOvertime running).symm.trans h
    exact s.applyingOvertime_effect.touches.mono (by simp only [Instr.pieces]; decide)

/-- Settles O7. -/
theorem everyRowTouchesOnlyItsPieces : Obligations.EveryRowTouchesOnlyItsPieces := fun c s t own h => by
  cases notReset : c.isReset with
  | true =>
    cases c with
    | powerOnReset straps =>
      cases h
      exact s.powerOn_touches straps
    | resetNFall low refclk =>
      cases h
      exact s.fall_touches _
    | _ => cases notReset
  | false =>
    rcases exec_same_or_running notReset h with rfl | running
    · exact .refl _ t
    · exact row_touches running own notReset h

end Sys2Proof.Machine
end

section
/-! What a tag with the GENERAL role can do (O16). -/

namespace Sys2Proof.Machine

set_option Elab.async false

/-- What a beat of a GENERAL tag leaves (R191). -/
def GeneralKept (s t : State) : Prop :=
  Touches [.mem, .episodes, .port, .engine] s t ∧ (∃ b, t.engine = { s.engine with toggle := b })
    ∧ ∀ a, s.inPage a → t.mem.read a = s.mem.read a

theorem GeneralKept.of_engine {ps : List Piece} {s t : State} (h : Touches ps s t)
    (engine : t.engine = s.engine := by rfl) (mem : t.mem = s.mem := by rfl)
    (sub : ps ⊆ [.mem, .episodes, .port, .engine] := by decide) : GeneralKept s t :=
  ⟨h.mono sub, ⟨s.engine.toggle, engine⟩, fun a _ => by rw [mem]⟩

/-- A dropped beat leaves an episode and its completion. -/
theorem GeneralKept.drop (s : State) (r : Requester) (k : GuardKind) (a : BitVec 32) :
    GeneralKept s ((s.guardDrop k r.tag a).completeWrite r) :=
  .of_engine ((s.guardDrop_touches k r.tag a).completeWrite r (List.Subset.refl _))

theorem GeneralKept.answer (s : State) (r : Requester) (w : Word) : GeneralKept s (s.returnWord r w) :=
  .of_engine (s.returnWord_touches r w)

/-- A plain write stores eight bytes of one aligned word off the control page. -/
theorem GeneralKept.plainWrite {s : State} (r : Requester) (addr : BitVec 29) (w : WriteData)
    (page : ¬s.inPage (beatAddr addr.toNat)) : GeneralKept s (s.portWrite r addr.toNat w) := by
  cases area : s.pool.inArea (beatAddr addr.toNat) with
  | true =>
    rw [State.portWrite_of_region (State.regionOf_slotArea (beatAddr_lt addr) page area)]
    exact .drop ..
  | false =>
    rw [State.portWrite_of_region (State.regionOf_plain (beatAddr_lt addr) page area)]
    refine ⟨((s.setMem_touches _).completeWrite r (List.Subset.refl _)).mono (by decide), ⟨s.engine.toggle, rfl⟩,
      fun a ⟨low, high⟩ => Memory.read_writeWord_of_ne fun j hj _ e => page ?_⟩
    have below := beatAddr_lt addr
    have aligned := beatAddr_mod addr.toNat
    have start := s.pageBase_mod
    unfold Config.memoryBytes at below
    rw [physical_of_lt (by unfold Config.memoryBytes; omega)] at e
    subst e
    unfold Config.pageBytes at high
    unfold State.inPage Config.pageBytes
    omega

/-- Settles O16: a GENERAL tag's control page beats, landing beats and screen beats pass no role check. -/
theorem generalTagsReachNoBlock : Obligations.GeneralTagsReachNoBlock := fun c tag s t own hTag general h => by
  show GeneralKept s t
  have notReset : c.isReset = false := by
    cases c <;> first | rfl | cases hTag
  rcases exec_same_or_running notReset h with rfl | running
  · exact .of_engine (.refl [] t)
  cases hp : c.pageWord? with
  | some x =>
    obtain ⟨r, word⟩ := x
    have sameTag : r.tag = tag := by cases c <;> cases hp <;> exact Option.some.inj hTag
    obtain ⟨f, hf⟩ := exec_of_pageWord? hp s
    cases (hf.trans (whileRunning_of_running running _)).symm.trans h
    rw [State.asControl, if_neg (by rw [sameTag, general]; decide)]
    exact .drop ..
  | none =>
    cases c with
    | plainWriteBeat r addr w =>
      cases (exec_plainWriteBeat running r addr w).symm.trans h
      exact .plainWrite r addr w own
    | plainReadBeat r addr =>
      cases (exec_plainReadBeat running r addr).symm.trans h
      rw [State.portRead_memory (own _ rfl)]
      exact .answer ..
    | zeroWordRead r addr =>
      cases (exec_zeroWordRead running r addr).symm.trans h
      rw [State.portRead_zero own]
      exact .answer ..
    | screenWrite r i n w =>
      cases (exec_screenWrite running r i n w).symm.trans h
      exact .drop ..
    | unmappedWrite r addr w =>
      cases (exec_unmappedWrite running r addr w).symm.trans h
      rw [s.portWrite_unmapped r w own]
      exact .drop ..
    | landingWrite r c n w =>
      cases (exec_landingWrite running r c n w).symm.trans h
      rw [State.landingBeat_dropped.1 (by rw [Option.some.inj hTag, general]; decide)]
      exact .drop ..
    | screenRead r i n =>
      cases (exec_screenRead running r i n).symm.trans h
      have noStart : s.frameStart r i (8 * n.toNat) = false := by
        unfold State.frameStart
        rw [show s.roleOf r.tag = .general from Option.some.inj hTag ▸ general]
        simp
      unfold State.screenBeat
      rw [noStart]
      exact .answer ..
    | statusWindowRead r n =>
      cases (exec_statusWindowRead running r n).symm.trans h
      refine ⟨(s.statusBeat_touches r n).mono (by decide), ?_, fun a _ => ?_⟩
      · unfold State.statusBeat State.afterStatusRead
        split
        · exact ⟨_, rfl⟩
        · exact ⟨s.engine.toggle, rfl⟩
      · rw [show (s.statusBeat r n).mem = s.mem from (s.statusBeat_touches r n).same .mem]
    | controlPageWrite | consumerIndex | stagingWrite | load | commit | abortClear | learn | learnSuspend
    | learnResume | spotSet | spotClear | holdTake | holdRelease | holdLock | snapshot | restart | undefinedCode =>
      cases hp
    | powerOnReset | resetNFall | staleTimeout | sampleInstant | lingerExpiry | guardEpisodeClose | applyingOvertime =>
      cases hTag

end Sys2Proof.Machine
end

section
/-! The Status Window (O20): the fields of a word that a list of bytes spells, and those of words 0 to 3. -/

namespace Sys2Proof.Machine

set_option Elab.async false

/-! ### Fields of a spelled word -/

theorem leValue_append (as bs : List Byte) : leValue (as ++ bs) = leValue as + 256 ^ as.length * leValue bs := by
  induction as with
  | nil => simp [leValue]
  | cons a as ih =>
    rw [List.cons_append, leValue, leValue, ih, List.length_cons, Nat.pow_succ]
    ring

theorem leValue_lt (bs : List Byte) : leValue bs < 256 ^ bs.length := by
  induction bs with
  | nil => decide
  | cons b bs ih =>
    have := b.isLt
    rw [leValue, List.length_cons, Nat.pow_succ]
    omega

theorem leValue_leBytes (n v : Nat) : leValue (leBytes n v) = v % 256 ^ n := by
  induction n generalizing v with
  | zero => rw [Nat.pow_zero, Nat.mod_one]; rfl
  | succ n ih =>
    unfold leBytes leValue
    rw [ih, Nat.pow_succ, Nat.mul_comm (256 ^ n), Nat.mod_mul]
    simp

/-- The field that the bytes `mid` spell, behind the bytes `pre`. -/
theorem extract_wordOfBytes (pre mid suf : List Byte) (fits : (pre ++ mid ++ suf).length ≤ 8) :
    (wordOfBytes (pre ++ mid ++ suf)).extractLsb' (8 * pre.length) (8 * mid.length)
      = BitVec.ofNat (8 * mid.length) (leValue mid) := by
  apply BitVec.eq_of_toNat_eq
  have whole : leValue (pre ++ mid ++ suf) < 2 ^ 64 :=
    Nat.lt_of_lt_of_le (leValue_lt _) (Nat.pow_le_pow_right (by decide) fits)
  have pow : ∀ n, (2 : Nat) ^ (8 * n) = 256 ^ n := fun n => by rw [Nat.pow_mul]
  have low := leValue_lt pre
  have split : leValue (pre ++ mid ++ suf) =
      leValue pre + 256 ^ pre.length * (leValue mid + 256 ^ mid.length * leValue suf) := by
    rw [List.append_assoc, leValue_append, leValue_append]
  rw [BitVec.extractLsb'_toNat, BitVec.toNat_ofNat, wordOfBytes, BitVec.toNat_ofNat, Nat.mod_eq_of_lt whole,
    Nat.shiftRight_eq_div_pow, pow, pow, split, Nat.add_mul_div_left _ _ (Nat.pow_pos (by decide)),
    Nat.div_eq_of_lt low, Nat.zero_add, Nat.add_mul_mod_self_left]

/-- A field of two bytes. -/
theorem extract_two (pre suf : List Byte) (v : Nat) (fits : pre.length + suf.length ≤ 6) :
    (wordOfBytes (pre ++ leBytes 2 v ++ suf)).extractLsb' (8 * pre.length) 16 = BitVec.ofNat 16 v := by
  have h := extract_wordOfBytes pre (leBytes 2 v) suf (by simp; omega)
  rw [leValue_leBytes, leBytes_length] at h
  exact h.trans (BitVec.eq_of_toNat_eq (by simp))

/-! ### The cameras' nibbles -/

/-- Hexadecimal digit `i` of a number that its digits spell. -/
theorem ofDigits_digit {l : List Nat} (h : ∀ x ∈ l, x < 16) {i : Nat} (hi : i < l.length) :
    Nat.ofDigits 16 l / 16 ^ i % 16 = l[i] := by
  rw [Nat.ofDigits_div_pow_eq_ofDigits_drop i (by decide) l h, List.drop_eq_getElem_cons hi, Nat.ofDigits_cons,
    Nat.add_mul_mod_self_left]
  exact Nat.mod_eq_of_lt (h _ (List.getElem_mem hi))

/-- The sum of the cameras' digits, each at its place, is the number that the digits spell. -/
theorem sum_eq_ofDigits (n : Camera → Nat) :
    ((List.finRange 16).map fun c => n c * 16 ^ c.val).foldl (· + ·) 0 = Nat.ofDigits 16 (List.ofFn n) := by
  rw [← List.sum_eq_foldl, Nat.ofDigits_eq_sum_mapIdx]
  exact congrArg List.sum (List.ext_getElem (by simp) fun i _ _ => by
    rw [List.getElem_map, List.getElem_mapIdx, List.getElem_ofFn, List.getElem_finRange]
    rfl)

theorem State.statusNibble_lt (s : State) (c : Camera) : s.statusNibble c < 16 := by
  have usable : bit (s.usable c) ≤ 1 := by unfold bit; split <;> decide
  have flag : ∀ b, bit b ≤ 1 := fun b => by cases b <;> decide
  have band : bandLevel s.lens[c].state ≤ 2 := by cases s.lens[c].state <;> decide
  have alarm := flag (decide (s.cadence[c].state = .stale) || s.cadence[c].frozen)
  unfold State.statusNibble
  omega

theorem State.statusWord2_nibble (s : State) (c : Camera) :
    (s.statusWord2.extractLsb' (4 * c.val) 4).toNat = s.statusNibble c := by
  have digits : ∀ x ∈ List.ofFn s.statusNibble, x < 16 := fun x hx => by
    obtain ⟨k, rfl⟩ := List.mem_ofFn.mp hx
    exact s.statusNibble_lt k
  have small := Nat.ofDigits_lt_base_pow_length (by decide) digits
  rw [List.length_ofFn] at small
  have digit := ofDigits_digit digits (i := c.val) (by simp)
  rw [List.getElem_ofFn] at digit
  unfold State.statusWord2
  rw [sum_eq_ofDigits, BitVec.extractLsb'_toNat, BitVec.toNat_ofNat, Nat.mod_eq_of_lt (show _ < 2 ^ 64 from small),
    Nat.shiftRight_eq_div_pow, Nat.pow_mul]
  exact digit

/-! ### The words -/

theorem State.afterStatusRead_engine (s : State) (word : Fin 4) :
    (s.afterStatusRead word).engine = { s.engine with
      toggle := if word = 0 ∧ s.engine.state = .applying then !s.engine.toggle else s.engine.toggle } := by
  unfold State.afterStatusRead
  split <;> rfl

theorem State.statusWord0_fields (s : State) :
    byteOf s.statusWord0 0 = b8 s.engine.state.code ∧ byteOf s.statusWord0 1 = s.engine.echo
      ∧ byteOf s.statusWord0 2 = b8 (bit s.engine.toggle) ∧ byteOf s.statusWord0 3 = b8 s.engine.result.code
      ∧ byteOf s.statusWord0 4 = b8 s.engine.reason.code ∧ byteOf s.statusWord0 5 = s.engine.table
      ∧ s.statusWord0.extractLsb' 48 16 = s.engine.index := by
  have byte := byteOf_wordOfBytes ([b8 s.engine.state.code, s.engine.echo, b8 (bit s.engine.toggle),
    b8 s.engine.result.code, b8 s.engine.reason.code, s.engine.table] ++ leBytes 2 s.engine.index.toNat) (by simp)
  refine ⟨byte 0 (by simp), byte 1 (by simp), byte 2 (by simp), byte 3 (by simp), byte 4 (by simp),
    byte 5 (by simp), ?_⟩
  have field := extract_two [b8 s.engine.state.code, s.engine.echo, b8 (bit s.engine.toggle),
    b8 s.engine.result.code, b8 s.engine.reason.code, s.engine.table] [] s.engine.index.toNat (by simp)
  rw [List.append_nil, BitVec.ofNat_toNat, BitVec.setWidth_eq] at field
  exact field

theorem State.statusWord1_fields (s : State) :
    s.statusWord1.extractLsb' 0 16 = BitVec.ofNat 16 s.ring.producer
      ∧ s.statusWord1.extractLsb' 16 16 = BitVec.ofNat 16 s.ring.lost
      ∧ byteOf s.statusWord1 4 = b8 (bit s.ring.configured) ∧ s.statusWord1.extractLsb' 40 24 = 0 := by
  refine ⟨?_, extract_two (leBytes 2 s.ring.producer) [b8 (bit s.ring.configured), 0, 0, 0] s.ring.lost (by simp),
    byteOf_wordOfBytes (leBytes 2 s.ring.producer ++ leBytes 2 s.ring.lost ++ [b8 (bit s.ring.configured), 0, 0, 0])
      (by simp) 4 (by simp), ?_⟩
  · have field := extract_two [] (leBytes 2 s.ring.lost ++ [b8 (bit s.ring.configured), 0, 0, 0]) s.ring.producer
      (by simp)
    rw [List.nil_append, ← List.append_assoc] at field
    exact field
  · have field := extract_wordOfBytes (leBytes 2 s.ring.producer ++ leBytes 2 s.ring.lost ++
      [b8 (bit s.ring.configured)]) [0, 0, 0] [] (by simp)
    rw [List.append_nil, List.append_assoc _ [b8 (bit s.ring.configured)]] at field
    exact field

theorem State.statusWord3_fields (s : State) :
    s.statusWord3.extractLsb' 0 32 = s.time ∧ byteOf s.statusWord3 4 = b8 s.freeCount
      ∧ byteOf s.statusWord3 5 = b8 s.holdCount ∧ byteOf s.statusWord3 6 = b8 (bit s.holds.lock)
      ∧ byteOf s.statusWord3 7 = 0 := by
  have byte := byteOf_wordOfBytes (leBytes 4 s.time.toNat ++ [b8 s.freeCount, b8 s.holdCount, b8 (bit s.holds.lock), 0])
    (by simp)
  refine ⟨?_, byte 4 (by simp), byte 5 (by simp), byte 6 (by simp), byte 7 (by simp)⟩
  have field := extract_wordOfBytes [] (leBytes 4 s.time.toNat)
    [b8 s.freeCount, b8 s.holdCount, b8 (bit s.holds.lock), 0] (by simp)
  rw [List.nil_append, leValue_leBytes, Nat.mod_eq_of_lt (show _ < 256 ^ 4 from s.time.isLt)] at field
  exact field.trans ((BitVec.ofNat_toNat 32 s.time).trans (BitVec.setWidth_eq _))

/-- Settles O20. -/
theorem statusWindowRead : Obligations.StatusWindowRead := fun r word s running => by
  refine ⟨_, s.statusWord word, exec_statusWindowRead running r word, ?_, s.statusBeat_touches r word,
    s.afterStatusRead_engine word, ?_, ?_, ?_, ?_⟩
  · exact returned_of_port r _ ((s.afterStatusRead_effect word).touches.same .port)
  · rintro rfl
    exact s.statusWord0_fields
  · rintro rfl
    exact s.statusWord1_fields
  · rintro rfl c
    refine (s.statusWord2_nibble c).trans ?_
    unfold State.statusNibble
    have alarm : (decide (s.cadence[c].state = .stale) || s.cadence[c].frozen)
        = decide (s.cadence[c].state = .stale ∨ s.cadence[c].frozen = true) := by simp
    rw [alarm]
    rfl
  · rintro rfl
    exact s.statusWord3_fields

end Sys2Proof.Machine
end

section
/-! The hold lock (O38), kept through every operation as the rule that no taken place is emptied under it. -/

namespace Sys2Proof.Machine

set_option Elab.async false

/-! ### One operation -/

/-- A command that is not of the reset line leaves the part as it is, or runs one operation of it. -/
theorem exec_operation {c : Instr} {s t : State} (notReset : c.isReset = false) (h : exec c s = .next t) :
    t = s ∨ Ran s t := by
  refine (exec_same_or_running notReset h).imp_right fun running => ?_
  have word : ∀ {r d k tag}, commandWrite r d k tag s = .next t → Ran s t := fun {r d k tag} h => by
    cases (whileRunning_of_running running fun s =>
      (s.asControl r 8 fun s => s.commandBeat d k tag).completeWrite r).symm.trans h
    exact .complete r (State.asControl_cases (f := fun s => s.commandBeat d k tag) r 8 (.command d k tag))
  cases c with
  | powerOnReset | resetNFall => cases notReset
  | plainWriteBeat r a w =>
    cases (exec_plainWriteBeat running r a w).symm.trans h
    exact s.portWrite_cases r _ w
  | plainReadBeat r a =>
    cases (exec_plainReadBeat running r a).symm.trans h
    exact s.portRead_cases r _
  | zeroWordRead r a =>
    cases (exec_zeroWordRead running r a).symm.trans h
    exact s.portRead_cases r _
  | screenWrite r i n w =>
    cases (exec_screenWrite running r i n w).symm.trans h
    exact .complete r (.drop _ _ _)
  | unmappedWrite r a w =>
    cases (exec_unmappedWrite running r a w).symm.trans h
    exact s.portWrite_cases r _ w
  | landingWrite r c n w =>
    cases (exec_landingWrite running r c n w).symm.trans h
    exact .complete r (s.landingBeat_cases _ c _ w)
  | screenRead r i n =>
    cases (exec_screenRead running r i n).symm.trans h
    exact s.screenBeat_cases r i _
  | statusWindowRead r n =>
    cases (exec_statusWindowRead running r n).symm.trans h
    exact .return r _ (.status n)
  | controlPageWrite r n w =>
    rw [exec_controlPageWrite, whileRunning_of_running running] at h
    cases h
    exact .complete r (State.asControl_cases r _ (s.controlBeat_cases _ w n.isLt))
  | consumerIndex r w =>
    rw [exec_consumerIndex, whileRunning_of_running running] at h
    cases h
    exact .complete r (State.asControl_cases r _ (.consume w))
  | stagingWrite r n w =>
    rw [exec_stagingWrite, whileRunning_of_running running] at h
    cases h
    refine .complete r (State.asControl_cases r _ ?_)
    rw [← s.controlBeat_staging n.toFin w]
    exact s.controlBeat_cases _ w (by have := n.toFin.isLt; omega)
  | load | commit | abortClear | learn | learnSuspend | learnResume | spotSet | spotClear | holdTake | holdRelease
  | holdLock | snapshot | restart | undefinedCode => exact word h
  | staleTimeout c =>
    cases (exec_staleTimeout running c).symm.trans h
    exact .of (.stale c)
  | sampleInstant a b v =>
    cases (exec_sampleInstant running a b v).symm.trans h
    exact .of (.sample ⟨a, b, v⟩)
  | lingerExpiry i =>
    cases (exec_lingerExpiry running i).symm.trans h
    exact .of (.linger i)
  | guardEpisodeClose k =>
    cases (exec_guardEpisodeClose running k).symm.trans h
    split
    · exact .of (.close k)
    · exact .of .nothing
  | applyingOvertime =>
    cases (exec_applyingOvertime running).symm.trans h
    exact .of .overtime

/-! ### The hold lock -/

/-- The lock is set, and the places that `H` names are taken. -/
def HoldUnit.locks (H : HoldId → Prop) (u : HoldUnit) : Prop := u.lock = true ∧ ∀ h, H h → u.table.get h ≠ none

section locks

variable {H : HoldId → Prop} {s t : State} {u : HoldUnit}

/-- A hold that is stored leaves the lock and every taken place. -/
theorem HoldUnit.locks_set (h : u.locks H) (i : HoldId) (x : Hold) (order : List HoldId) :
    HoldUnit.locks H { u with table := upd u.table i (some x), order := order } := by
  refine ⟨h.1, fun j hj => ?_⟩
  by_cases e : j = i
  · subst e
    simp
  · rw [upd_get_of_ne _ _ e]
    exact h.2 j hj

theorem Touches.locks {ps : List Piece} (e : Touches ps s t) (h : s.holds.locks H)
    (hh : Piece.holds ∉ ps := by decide) : t.holds.locks H := by
  rw [show t.holds = s.holds from e.same .holds hh]
  exact h

theorem Effect.locks {ps : List Piece} (e : Effect ps s t) (h : s.holds.locks H)
    (hh : Piece.holds ∉ Piece.mem :: .ring :: ps := by decide) : t.holds.locks H := e.touches.locks h hh

theorem State.completeHold_locks (h : s.holds.locks H) (i : HoldId) (x : Hold) (cause : HoldCause) (short : Bool) :
    (s.completeHold i x cause short).holds.locks H := by
  rw [State.completeHold_holds]
  exact HoldUnit.locks_set h _ _ _

theorem State.take_locks (h : s.holds.locks H) (o : Origin) (c : Camera) (post : Nat) :
    (s.take o c post).1.holds.locks H := by
  unfold State.take
  split
  · exact h
  · split
    · exact h
    · split
      · exact h
      · split
        · rename_i x u hu
          rw [State.makeHold_holds, State.addHold_holds]
          exact HoldUnit.locks_set ((State.takeRequest_effect hu).locks h) _ _ _
        · exact h

theorem State.offerFrame_locks (h : s.holds.locks H) (c : Camera) (i : Nat) : (s.offerFrame c i).holds.locks H := by
  unfold State.offerFrame
  split
  · exact h
  · split
    · exact State.completeHold_locks h _ _ _ _
    · rename_i t u hu
      have moved : u.holds.locks H := (State.transfer_effect hu).locks h
      dsimp only
      split
      · exact State.completeHold_locks moved _ _ _ _
      · rw [State.setHold_holds]
        exact HoldUnit.locks_set moved _ _ _

theorem State.completeShort_locks (h : s.holds.locks H) (which : Hold → Bool) (cause : HoldCause) :
    (s.completeShort which cause).holds.locks H := by
  refine List.foldlRecOn (motive := fun u : State => u.holds.locks H) _ _ h fun u hu k _ => ?_
  split
  · split
    · exact State.completeHold_locks hu _ _ _ _
    · exact hu
  · exact hu

theorem State.sampleLines_locks (h : s.holds.locks H) : s.sampleLines.holds.locks H := by
  unfold State.sampleLines State.sampleTriggers
  have noticed := ((State.withDoorUnit_effect s (s.doorUnit.sampled s.lines)).trans
    ((State.sampleStates_effect _).trans (State.sampleNotices_effect _ s.doorUnit))).locks h
  refine List.foldlRecOn (motive := fun u : State => u.holds.locks H) _ _ noticed fun u hu d _ => ?_
  split
  · exact State.take_locks hu _ _ _
  · exact hu

theorem State.sampleInstant_locks (h : s.holds.locks H) : s.sampleInstant.holds.locks H := by
  unfold State.sampleInstant
  split
  · exact State.sampleLines_locks ((s.withDoorUnit_effect _).locks h)
  · exact h

theorem State.debounceChanged_locks (h : s.holds.locks H) : s.debounceChanged.holds.locks H := by
  unfold State.debounceChanged
  split
  · exact State.sampleLines_locks ((s.withDoorUnit_effect _).locks h)
  · exact h

theorem State.applySetup_locks (h : s.holds.locks H) (r : SetupRec) : (s.applySetup r).holds.locks H := by
  have doors : ∀ {u : State} (old new : SetupRec), u.holds.locks H → (u.setupDoors old new).holds.locks H :=
    fun {u} old new hu => by
      have redescribed : HoldUnit.locks H (State.holds
          (if levelActive u.doorUnit.reverse.accepted then u.redescribe .reverse old.reverse new.reverse else u)) := by
        split
        · exact (u.redescribe_effect _ _ _).locks hu
        · exact hu
      unfold State.setupDoors
      dsimp only
      split
      · exact State.debounceChanged_locks redescribed
      · exact redescribed
  exact doors (u := { s with
    setup := r, pool := s.pool.regeometry r.slotBase r.slotUnits r.slotCount }) s.setup r h

theorem State.applyCamera_locks (h : s.holds.locks H) (c : Camera) (r : CameraRec) :
    (s.applyCamera c r).holds.locks H := by
  have configured := (s.setCamera_effect c r).trans (State.configureLens_effect _ c s.cameras[c] r)
  unfold State.applyCamera
  dsimp only
  split
  · refine (State.configureLens_effect _ c _ r).locks ?_
    unfold State.disableCamera
    refine State.completeShort_locks ?_ _ _
    exact Effect.locks ((((((s.setCamera_effect c r).trans (State.setLens_effect _ c _)).trans
      (State.setCadence_effect _ c _)).trans (State.slotsDisable_effect _ c)).trans
      (State.cadenceTo_effect _ c _)).trans (State.lensTo_effect _ c _)) h
  · split
    · exact (configured.trans (State.enableCamera_effect _ c)).locks h
    · split
      · exact (configured.trans (State.staleTimeout_effect _ c)).locks h
      · exact configured.locks h

theorem State.applyLoad_locks (h : s.holds.locks H) : s.applyLoad.holds.locks H := by
  have fold : ∀ {α : Type} (f : State → α → State) (l : List α),
      (∀ (u : State) x, u.holds.locks H → (f u x).holds.locks H) → (l.foldl f s).holds.locks H := fun f l hf =>
    List.foldlRecOn (motive := fun u : State => u.holds.locks H) l f h fun u hu x _ => hf u x hu
  unfold State.applyLoad
  dsimp only
  split
  · exact fold _ _ fun u x hu => State.applySetup_locks hu _
  · exact fold _ _ fun u x hu => State.applyCamera_locks hu _ _
  · exact fold _ _ fun u x hu => (State.applyScreen_effect u _ _).locks hu
  · exact h
  · exact h
  · exact fold _ _ fun u x hu => (State.applyDoor_effect u _ _).locks hu

theorem FrameEnded.locks {c : Camera} {n : Nat} (e : FrameEnded s c n t) (h : s.holds.locks H) :
    t.holds.locks H := by
  cases e with
  | goesOn => exact h
  | accepted _ i =>
    unfold State.accept
    refine ((State.chooseTarget_effect _ c).trans (State.setRing_effect _ c _)).locks ?_
    refine State.offerFrame_locks ?_ c i
    exact (((s.memberReady_effect c i).trans (State.arrival_effect _ c)).trans
      (State.lensAccepted_effect _ c _ _)).locks h
  | torn => exact ((s.countTorn_touches c).seq (State.landingIdle_touches _ c)).locks h

theorem Landed.locks {c : Camera} {n : Nat} {w : WriteData} (l : Landed s c n w t) (h : s.holds.locks H) :
    t.holds.locks H := by
  cases l with
  | dropped => exact h
  | starved => exact (s.setRing_effect c _).locks h
  | begun _ _ i _ _ outcome => exact outcome.locks ((s.beginFrame_touches c i w).locks h)
  | begunAnew _ _ i _ _ outcome =>
    exact outcome.locks (((s.countTorn_touches c).seq (State.beginFrame_touches _ c i w)).locks h)
  | stored _ i _ _ _ outcome =>
    exact outcome.locks ((State.landWord_touches _ c i n w).locks ((s.setRing_effect c _).locks h))
  | marked _ _ outcome => exact outcome.locks ((s.setRing_effect c _).locks h)

/-- A release under the lock is refused. -/
theorem State.idleHoldRelease_locks (h : s.holds.locks H) (id : Byte) : (s.idleHoldRelease id).holds.locks H := by
  unfold State.idleHoldRelease
  split
  · exact (s.finishPlain_effect _ _ _).locks h
  · rw [if_pos h.1]
    exact (s.finishPlain_effect _ _ _).locks h

theorem State.idleHoldTake_locks (h : s.holds.locks H) (c n : Byte) : (s.idleHoldTake c n).holds.locks H := by
  unfold State.idleHoldTake
  split
  · exact (s.finishPlain_effect _ _ _).locks h
  · split
    · exact (s.finishPlain_effect _ _ _).locks h
    · have taken := fun c' => State.take_locks h .manual c' n.toNat
      dsimp only
      split
      · exact (State.finish_effect _ _ _ _ _ _).locks (taken _)
      · exact (State.finishPlain_effect _ _ _ _).locks (taken _)

theorem State.idleCommand_locks (h : s.holds.locks H) (c : Command) : (s.idleCommand c).holds.locks H := by
  cases c with
  | holdTake c n => exact State.idleHoldTake_locks h c n
  | holdRelease i => exact State.idleHoldRelease_locks h i
  | holdLock => exact (State.finishPlain_effect _ _ _ _).locks ⟨rfl, h.2⟩
  | commit | abortClear | undefinedCode => exact (s.finishPlain_effect _ _ _).locks h
  | restart => exact h
  | load | learn | learnSuspend | learnResume | spotSet | spotClear | snapshot =>
    exact (s.idleCommand_touches _).locks h (by simp [Command.pieces])

theorem State.warmRestart_locks (h : s.holds.locks H) (tag : Byte) : (s.warmRestart tag).holds.locks H := by
  unfold State.warmRestart State.restartBlocks
  refine ((State.withEpisodes_effect _ _).trans (State.finishPlain_effect _ _ _ _)).locks ?_
  refine State.completeShort_locks ?_ _ _
  exact Effect.locks ((((((((((s.takeTag_effect tag).trans (State.discardStaging_effect _)).trans
    (State.cutApplying_effect _ _)).trans (State.setEngine_effect _ _)).trans (State.slotsRestart_effect _)).trans
    (State.cadenceRestart_effect _)).trans (State.lensRestart_effect _)).trans
    (State.withContexts_effect _ _)).trans (State.doorsRestart_effect _)).trans (State.spotsRestart_effect _)) h

theorem Offered.locks {c : Command} {tag : Byte} (o : Offered s c tag t) (h : s.holds.locks H) :
    t.holds.locks H := by
  have tagged := (s.takeTag_effect tag).locks h
  cases o with
  | ignored => exact h
  | restart => exact State.warmRestart_locks h tag
  | idle => exact State.idleCommand_locks tagged c
  | cleared => exact ((State.enter_effect _ _).trans (State.finishPlain_effect _ _ _ _)).locks tagged
  | aborted => exact (State.abortLoad_effect _ _ _).locks tagged
  | invalid =>
    exact (((State.discardStaging_effect _).trans (State.enter_effect _ _)).trans
      (State.finish_effect _ _ _ _ _ _)).locks tagged
  | applied _ _ _ _ outcome => exact outcome.effect.locks (State.applyLoad_locks tagged)

theorem Operation.locks (o : Operation s t) (h : s.holds.locks H) : t.holds.locks H := by
  cases o with
  | nothing => exact h
  | drop k tag a => exact (s.guardDrop_effect k tag a).locks h
  | store a w => exact (s.setMem_touches _).locks h
  | page n w => exact (s.pageWrite_touches n w).locks h
  | consume w => exact (s.consumerBeat_touches w).locks h
  | stage i w => exact (State.stageBeat_effect _ i w).locks ((s.pageWrite_touches _ w).locks h)
  | command d c tag => exact (State.offer_cases _ c tag).locks ((s.pageWrite_touches 8 _).locks h)
  | land c n w => exact (s.landingPhase_cases c n w).locks h
  | frameStart i => exact (s.frameStart_effect i).locks h
  | status n => exact (s.afterStatusRead_effect n).locks h
  | stale c => exact (s.staleTimeout_effect c).locks h
  | sample l => exact State.sampleInstant_locks (s := { s with lines := l }) h
  | linger i => exact (s.lingerExpiry_effect i).locks h
  | close k => exact (s.guardClose_effect k).locks h
  | overtime => exact s.applyingOvertime_effect.locks h

end locks

theorem holdLock_in_idle (r : Requester) (tag : Byte) (spare : BitVec 48) (s : State) (running : s.isRunning)
    (role : s.roleOf r.tag = .control) (idle : s.engine.state = .idle) (inRange : s.ring.inRange) :
    ∃ t, exec (.holdLock r tag spare) s = .next t ∧ Touches [.holds, .mem, .ring, .engine, .port] s t
      ∧ t.holds = { s.holds with lock := true }
      ∧ Answered s t r (commandWord 0x32 tag spare) [] (s.engine.ended tag .done .none 0 0) := by
  refine ⟨_, commandWrite_idle running role idle (c := .holdLock) (by simp) (commandWord 0x32 tag spare) tag,
    ?_, ?_, ?_⟩
  · exact State.finish_touches (State.withHolds_effect _ _) _ _ _ _ _ r _ (by decide)
  · exact Effect.same (s := { s.taken (commandWord 0x32 tag spare) tag with holds := { s.holds with lock := true } })
      (State.finishPlain_effect _ 0x32 .done .none) .holds
  · have code := commandByte_commandWord_zero 0x32 tag spare
    have h := answered_of_finish r inRange (u := { s.taken (commandWord 0x32 tag spare) tag with
      holds := { s.holds with lock := true } }) (s.taken_logged (commandWord 0x32 tag spare) tag) rfl rfl
      .done .none 0 0
    rw [code] at h
    exact h

/-- Settles O38: nothing but a release or POWER_ON_RESET empties a place, and a release finds the lock set. -/
theorem holdLockKeepsEveryHold : Obligations.HoldLockKeepsEveryHold := by
  refine ⟨holdLock_in_idle, fun c s t notRelease locked h => ?_⟩
  have start : s.holds.locks fun h => s.holds.table.get h ≠ none := ⟨locked, fun _ => id⟩
  cases notReset : c.isReset with
  | true =>
    cases c with
    | powerOnReset straps => exact absurd rfl (notRelease straps)
    | resetNFall =>
      cases h
      exact start
    | _ => cases notReset
  | false =>
    rcases exec_operation notReset h with rfl | ⟨u, p, o, rfl⟩
    · exact start
    · exact o.locks start

end Sys2Proof.Machine
end

section
/-! A frame that joins a hold (O36), a take (O35) and a release (O37). -/

namespace Sys2Proof.Machine

set_option Elab.async false

/-! ### A frame joins a hold -/

/-- The oldest COLLECTING hold of a camera, by the order of creation. -/
theorem State.collectingHold_eq_some_iff {s : State} {c : Camera} {h : HoldId} {x : Hold} :
    s.collectingHold c = some (h, x) ↔ ∃ older newer, s.holds.order = older ++ h :: newer
      ∧ s.holds.table.get h = some x ∧ x.state = .collecting ∧ x.camera = c
      ∧ ∀ h' ∈ older, ∀ x', s.holds.table.get h' = some x' → ¬(x'.state = .collecting ∧ x'.camera = c) := by
  have here : ∀ h, ((match s.holds.table.get h with
      | some x => if x.state = .collecting ∧ x.camera = c then some (h, x) else none
      | none => none) : Option (HoldId × Hold)) = none ↔
      ∀ x', s.holds.table.get h = some x' → ¬(x'.state = .collecting ∧ x'.camera = c) := fun h => by
    split
    · rename_i x hx
      split <;> simp_all
    · simp_all
  constructor
  · intro found
    obtain ⟨hx, collecting, camera⟩ := State.collectingHold_eq_some found
    obtain ⟨older, k, newer, order, hk, first⟩ := List.findSome?_eq_some_iff.mp found
    have same : k = h := by
      split at hk
      · split at hk
        · exact (Prod.mk.inj (Option.some.inj hk)).1
        · cases hk
      · cases hk
    subst same
    exact ⟨older, newer, order, hx, collecting, camera, fun h' hh => (here h').mp (first h' hh)⟩
  · rintro ⟨older, newer, order, hx, collecting, camera, first⟩
    refine List.findSome?_eq_some_iff.mpr ⟨older, h, newer, order, ?_, fun h' hh => (here h').mpr (first h' hh)⟩
    rw [hx]
    exact if_pos ⟨collecting, camera⟩

theorem Hold.postCount_withPost (x : Hold) (t : Taken) : (x.withPost t).postCount = x.postCount + 1 := by
  unfold Hold.postCount Hold.withPost
  rw [List.countP_append]
  rfl

theorem State.transfer_none {s : State} (h : s.lowestFree = none) (c : Camera) (k : HoldId) (i : Nat) :
    s.transfer c k i = none := by
  unfold State.transfer
  rw [h]

/-- The part after READY member `i` has become HELD and the free slot `j` has joined the ring (R21, R22). -/
def State.transferred (s : State) (c : Camera) (h : HoldId) (i j : Nat) : State :=
  ((s.liftMember c h i).setSlot j ⟨.ring c .empty, 0, none⟩).joinEmpty c j

theorem State.transfer_some {s : State} {j : Nat} (h : s.lowestFree = some j) (c : Camera) (k : HoldId) (i : Nat) :
    s.transfer c k i = some (⟨i, s.stampOf i⟩, s.transferred c k i j) := by
  unfold State.transfer
  rw [h]
  rfl

section transferred

variable {s : State} {c : Camera} {h : HoldId} {i j : Nat}

theorem State.liftMember_ring :
    (s.liftMember c h i).rings[c] = { s.rings[c] with ready := s.rings[c].ready.erase i } :=
  upd_getElem_self ..

theorem State.transferred_ring :
    (s.transferred c h i j).rings[c] = { s.rings[c] with
      ready := s.rings[c].ready.erase i, empty := s.rings[c].empty ++ [j] } := by
  unfold State.transferred State.joinEmpty
  rw [State.setRing_rings, upd_getElem_self, State.setSlot_rings, State.liftMember_ring]

theorem State.transferred_ring_of_ne {c' : Camera} (hc : c' ≠ c) :
    (s.transferred c h i j).rings[c'] = s.rings[c'] := by
  simp [State.transferred, State.joinEmpty, State.liftMember, upd_getElem_of_ne _ _ hc]

theorem State.transferred_lifted (hi : i < s.pool.slots.length) (hij : j ≠ i) :
    (s.transferred c h i j).slot i = { s.slot i with disp := .held h } := by
  unfold State.transferred State.joinEmpty State.liftMember
  rw [State.slot_setRing, State.slot_setSlot_of_ne _ _ hij.symm, State.slot_setSlot_self]
  exact hi

theorem State.transferred_joined (hj : j < s.pool.slots.length) :
    (s.transferred c h i j).slot j = ⟨.ring c .empty, 0, none⟩ := by
  unfold State.transferred State.joinEmpty State.liftMember
  rw [State.slot_setRing, State.slot_setSlot_self]
  simpa using hj

theorem State.transferred_slot_of_ne {k : Nat} (hi : k ≠ i) (hj : k ≠ j) :
    (s.transferred c h i j).slot k = s.slot k := by
  unfold State.transferred State.joinEmpty State.liftMember
  rw [State.slot_setRing, State.slot_setSlot_of_ne _ _ hj, State.slot_setSlot_of_ne _ _ hi, State.slot_setRing]

theorem State.transferred_length : (s.transferred c h i j).pool.slots.length = s.pool.slots.length := by
  simp [State.transferred, State.joinEmpty, State.liftMember]

theorem State.transferred_logged : Logged [] s (s.transferred c h i j) := ⟨rfl, rfl, rfl⟩

theorem State.transferred_effect : Effect [.pool, .rings] s (s.transferred c h i j) :=
  (((s.liftMember_effect c h i).trans (State.setSlot_effect _ _ _)).trans
    (State.joinEmpty_effect _ _ _)).mono (by decide)

end transferred

theorem State.completeHold_logged (s : State) (h : HoldId) (x : Hold) (cause : HoldCause) (short : Bool) :
    Logged [.holdComplete h (x.completed cause short)] s (s.completeHold h x cause short) :=
  Logged.trans (rs := []) (t := s.setHold h (some (x.completed cause short))) ⟨rfl, rfl, rfl⟩ (.emit _ _)

theorem State.offerFrame_none {s : State} {c : Camera} (h : s.collectingHold c = none) (i : Nat) :
    s.offerFrame c i = s := by
  unfold State.offerFrame
  rw [h]

theorem State.offerFrame_short {s : State} {c : Camera} {h : HoldId} {x : Hold} (hx : s.collectingHold c = some (h, x))
    (empty : s.lowestFree = none) (i : Nat) : s.offerFrame c i = s.completeHold h x .noSlot true := by
  unfold State.offerFrame
  rw [hx]
  dsimp only
  rw [State.transfer_none empty]

theorem State.offerFrame_joins {s : State} {c : Camera} {h : HoldId} {x : Hold} {j : Nat}
    (hx : s.collectingHold c = some (h, x)) (free : s.lowestFree = some j) (i : Nat) :
    s.offerFrame c i = if x.postCount + 1 = x.post
      then (s.transferred c h i j).completeHold h (x.withPost ⟨i, s.stampOf i⟩) .count false
      else (s.transferred c h i j).setHold h (some (x.withPost ⟨i, s.stampOf i⟩)) := by
  unfold State.offerFrame
  rw [hx]
  dsimp only
  rw [State.transfer_some free]
  dsimp only
  rw [Hold.postCount_withPost]

theorem State.stampOf_of_some {s : State} {i : Nat} {f : FrameStamp} (h : (s.slot i).frame = some f) :
    s.stampOf i = f := by
  unfold State.stampOf
  rw [h]
  rfl

/-- The pool is left by what a hold's record changes. -/
theorem Touches.slot {ps : List Piece} {s t : State} (h : Touches ps s t) (hp : Piece.pool ∉ ps := by decide)
    (i : Nat) : t.slot i = s.slot i := State.slot_congr (h .pool hp) i

/-- Settles O36: the pool answers with its lowest free slot, or with none. -/
theorem acceptedFrameJoinsTheOldestHold : Obligations.AcceptedFrameJoinsTheOldestHold := fun s c i => by
  refine ⟨fun h x => State.collectingHold_eq_some_iff, fun none => State.offerFrame_none none i,
    fun h x found => ⟨fun full => State.offerFrame_short found full i, fun j f free frame hij hi hj => ?_⟩⟩
  intro x' done y t
  have stamp := State.stampOf_of_some frame
  have joined := State.offerFrame_joins found free i
  rw [stamp] at joined
  have after : ∀ u : State, u.holds = { s.holds with table := upd s.holds.table h (some y) } →
      Effect [.holds] (s.transferred c h i j) u →
      Logged (if done then [.holdComplete h y] else []) (s.transferred c h i j) u → t = u →
      t.holds = { s.holds with table := upd s.holds.table h (some y) }
        ∧ t.slot i = { s.slot i with disp := .held h } ∧ t.slot j = ⟨.ring c .empty, 0, none⟩
        ∧ (∀ k, k ≠ i → k ≠ j → t.slot k = s.slot k)
        ∧ t.rings[c] = { s.rings[c] with
            ready := s.rings[c].ready.erase i, empty := s.rings[c].empty ++ [j] }
        ∧ Reported s s.mem (if done then [.holdComplete h y] else []) t
        ∧ Touches [.pool, .rings, .holds, .mem, .ring] s t := fun u holds effect log ht => by
    rw [ht]
    have pool := effect.touches.slot
    refine ⟨holds, (pool i).trans (State.transferred_lifted hi hij), (pool j).trans (State.transferred_joined hj),
      fun k ki kj => (pool k).trans (State.transferred_slot_of_ne ki kj), ?_,
      (State.transferred_logged.trans log).reported_self,
      (State.transferred_effect.trans effect).touches.mono (by decide)⟩
    rw [show u.rings = (s.transferred c h i j).rings from effect.same .rings]
    exact State.transferred_ring
  by_cases hd : done
  · have hy : y = (x.withPost ⟨i, f⟩).completed .count false := if_pos hd
    refine after _ ?_ (State.completeHold_effect _ h (x.withPost ⟨i, f⟩) .count false) ?_
      (joined.trans (if_pos hd))
    · rw [hy]
      rfl
    · rw [if_pos hd, hy]
      exact State.completeHold_logged _ h _ _ _
  · have hy : y = x.withPost ⟨i, f⟩ := if_neg hd
    refine after _ ?_ (State.setHold_effect _ h (some (x.withPost ⟨i, f⟩))) ?_ (joined.trans (if_neg hd))
    · rw [hy]
      rfl
    · rw [if_neg hd]
      exact ⟨rfl, rfl, rfl⟩

end Sys2Proof.Machine
end

section
/-! A take of any origin and HOLD_TAKE (O35), and HOLD_RELEASE (O37). -/

namespace Sys2Proof.Machine

set_option Elab.async false

/-! ### Releases -/

theorem State.presentHold_of_some {s : State} {id : Byte} {h : HoldId} {x : Hold} (hid : h.val = id.toNat)
    (hx : s.holds.table.get h = some x) : s.presentHold id = some (h, x) := by
  have same : (⟨id.toNat, hid ▸ h.isLt⟩ : HoldId) = h := Fin.ext hid.symm
  unfold State.presentHold
  rw [dif_pos (hid ▸ h.isLt), same, hx]

theorem State.presentHold_none {s : State} {id : Byte}
    (none : ∀ h : HoldId, h.val = id.toNat → s.holds.table.get h = none) : s.presentHold id = Option.none := by
  unfold State.presentHold
  split
  · rename_i hid
    rw [none ⟨id.toNat, hid⟩ rfl]
  · rfl

theorem State.slot_releaseHold (s : State) (h : HoldId) (x : Hold) (i : Nat) :
    (s.releaseHold h x).slot i = (s.slot i).released h := by
  show (s.pool.slots.map fun r => r.released h).getD i .fresh = (s.pool.slots.getD i .fresh).released h
  rw [List.getD_eq_getElem?_getD, List.getD_eq_getElem?_getD, List.getElem?_map]
  cases s.pool.slots[i]? <;> rfl

theorem State.releaseHold_logged (s : State) (h : HoldId) (x : Hold) :
    Logged [.holdReleased h x (s.heldCount h false) (s.heldCount h true)] s (s.releaseHold h x) :=
  Logged.trans (rs := []) (t := { s.releaseSlots h with holds := { s.holds with
    table := upd s.holds.table h none, order := s.holds.order.filter fun y => decide (y ≠ h) } }) ⟨rfl, rfl, rfl⟩
    (.emit _ _)

theorem State.heldCount_unpinned (s : State) (h : HoldId) :
    s.heldCount h false = s.pool.slots.countP fun y => decide (y.disp = .held h ∧ y.pins = 0) := by
  unfold State.heldCount
  congr 1
  funext y
  by_cases hp : y.pins = 0 <;> simp [hp]

theorem State.heldCount_pinned (s : State) (h : HoldId) :
    s.heldCount h true = s.pool.slots.countP fun y => decide (y.disp = .held h ∧ y.pins ≠ 0) := by
  unfold State.heldCount
  congr 1
  funext y
  by_cases hp : y.pins = 0 <;> simp [hp]

/-- Settles O37. -/
theorem holdReleaseFreesTheSlots : Obligations.HoldReleaseFreesTheSlots :=
    fun r tag id spare s running role idle inRange => by
  intro d refusal
  have code : commandByte d 0 = 0x31 := commandByte_commandWord_zero ..
  have run := commandWrite_idle running role idle (c := .holdRelease id) (by simp) d tag
  have refused : ∀ reason, (s.taken d tag).idleCommand (.holdRelease id)
      = (s.taken d tag).finishPlain 0x31 .refused reason → refusal reason := fun reason same => by
    rw [same] at run
    exact ⟨_, run, finish_taken r inRange code⟩
  refine ⟨fun none => refused _ ?_, fun h x hid hx => ⟨fun locked => refused _ ?_, fun unlocked => ?_⟩⟩
  · show (s.taken d tag).idleHoldRelease id = _
    unfold State.idleHoldRelease
    rw [State.presentHold_none (s := s.taken d tag) none]
  · show (s.taken d tag).idleHoldRelease id = _
    unfold State.idleHoldRelease
    rw [State.presentHold_of_some (s := s.taken d tag) hid hx]
    exact if_pos locked
  · have released : (s.taken d tag).idleCommand (.holdRelease id)
        = ((s.taken d tag).releaseHold h x).finishPlain 0x31 .done .none := by
      show (s.taken d tag).idleHoldRelease id = _
      unfold State.idleHoldRelease
      rw [State.presentHold_of_some (s := s.taken d tag) hid hx]
      exact if_neg (by rw [show (s.taken d tag).holds.lock = false from unlocked]; decide)
    rw [released] at run
    have slots : ∀ i, State.slot (State.completeWrite
        (((s.taken d tag).releaseHold h x).finishPlain 0x31 .done .none) r) i = (s.slot i).released h := fun i =>
      ((State.finishPlain_effect _ 0x31 .done .none).touches.slot (by decide) i).trans
        ((s.taken d tag).slot_releaseHold h x i)
    have holds : State.holds (State.completeWrite
        (((s.taken d tag).releaseHold h x).finishPlain 0x31 .done .none) r) = { s.holds with
          table := upd s.holds.table h none, order := s.holds.order.filter fun y => decide (y ≠ h) } :=
      Effect.same (s := (s.taken d tag).releaseHold h x) (State.finishPlain_effect _ 0x31 .done .none) .holds
    refine ⟨_, run, State.finish_touches ((s.taken d tag).releaseHold_effect h x) _ _ _ _ _ r _ (by decide),
      ?_, fun h' hh => ?_, ?_, ?_, ?_, fun i held free => ?_, fun i held pinned => ?_, fun i other => ?_, ?_⟩
    · rw [holds]
      exact upd_get_self ..
    · rw [holds]
      exact upd_get_of_ne _ _ hh
    · rw [holds]
    · rw [holds]
      exact unlocked
    · have pool := Effect.same (s := (s.taken d tag).releaseHold h x)
        (State.finishPlain_effect _ 0x31 .done .none) .pool
      exact (congrArg (fun p : SlotPool => p.slots.length) pool).trans (List.length_map _)
    · rw [slots]
      unfold SlotRec.released
      rw [if_pos held, if_pos free]
      rfl
    · rw [slots]
      unfold SlotRec.released
      rw [if_pos held, if_neg pinned]
    · rw [slots]
      exact if_neg other
    · have log := (s.taken_logged d tag).trans ((s.taken d tag).releaseHold_logged h x)
      have answer := answered_of_finish (u := (s.taken d tag).releaseHold h x) r inRange log rfl rfl .done .none 0 0
      rw [code, State.heldCount_unpinned, State.heldCount_pinned] at answer
      exact answer

end Sys2Proof.Machine
end

section
/-! A take of any origin, and HOLD_TAKE (O35). -/

namespace Sys2Proof.Machine

set_option Elab.async false

/-! ### Ring members -/

theorem RingRec.mem_members_ready {r : RingRec} {i : Nat} : (i, .ready) ∈ r.members ↔ i ∈ r.ready := by
  simp [RingRec.members]

theorem RingRec.members_map_fst (r : RingRec) : r.members.map Prod.fst = r.ready ++ r.filling.toList ++ r.empty := by
  simp [RingRec.members, Function.comp_def]

/-- Member `j` of camera `c` becomes the landing target, and the ring is `g`. -/
def State.targeted (s : State) (c : Camera) (g : RingRec) (j : Nat) : State :=
  (s.setRing c g).setSlot j ⟨.ring c .filling, 0, none⟩

section targeted

variable (s : State) (c : Camera) (g : RingRec) {j : Nat}

theorem State.targeted_slot_self (h : j < s.pool.slots.length) :
    (s.targeted c g j).slot j = ⟨.ring c .filling, 0, none⟩ := State.slot_setSlot_self (s.setRing c g) _ h

theorem State.targeted_slot_of_ne {k : Nat} (h : k ≠ j) : (s.targeted c g j).slot k = s.slot k :=
  State.slot_setSlot_of_ne (s.setRing c g) _ h

theorem State.targeted_ring : (s.targeted c g j).rings[c] = g := upd_getElem_self ..

theorem State.targeted_ring_of_ne {c' : Camera} (h : c' ≠ c) : (s.targeted c g j).rings[c'] = s.rings[c'] :=
  upd_getElem_of_ne _ _ h

theorem State.targeted_logged : Logged [] s (s.targeted c g j) := ⟨rfl, rfl, rfl⟩

/-- A STARVED camera whose first EMPTY member `j` has no pin. -/
theorem State.endStarved_of_empty {rest : List Nat} (h : s.rings[c].empty = j :: rest) (pins : (s.slot j).pins = 0) :
    s.endStarved c =
      (s.targeted c { s.rings[c] with empty := rest, filling := some j } j).emit (.starved c false) := by
  rw [State.endStarved_of_choice (targetChoice_of_empty h), pins]
  rfl

end targeted

/-! ### The place of a new hold -/

theorem State.emptyPlace_lowest {s : State} {h : HoldId} (free : s.holds.table.get h = none)
    (lower : ∀ h', h' < h → s.holds.table.get h' ≠ none) : s.emptyPlace = some h := by
  unfold State.emptyPlace
  rw [List.find?_eq_some_iff_getElem]
  refine ⟨by rw [free]; rfl, h.val, by simp, by simp, fun k hk => ?_⟩
  rw [Bool.not_eq_true', Option.isNone_eq_false_iff, List.getElem_finRange]
  exact Option.ne_none_iff_isSome.mp (lower _ hk)

theorem State.emptyPlace_none {s : State} (full : ∀ h : HoldId, s.holds.table.get h ≠ none) : s.emptyPlace = none :=
  List.find?_eq_none.mpr fun h _ => by simpa [Option.isNone_iff_eq_none] using full h

theorem State.emptyPlace_some {s : State} {h : HoldId} (free : s.holds.table.get h = none) :
    ∃ h', s.emptyPlace = some h' := by
  refine Option.isSome_iff_exists.mp (List.find?_isSome.mpr ⟨h, List.mem_finRange h, ?_⟩)
  rw [free]
  rfl

/-! ### Refusals -/

section take

variable {s : State} {o : Origin} {c : Camera} {post : Nat}

theorem State.take_tableFull (full : ∀ h : HoldId, s.holds.table.get h ≠ none) :
    s.take o c post = (s.emit (.holdRefused c o post .tableFull), .refused .tableFull) := by
  unfold State.take
  rw [State.emptyPlace_none full]
  rfl

/-- The check of R138 for a frame to take. -/
theorem State.noFrame_iff : (!s.cameras[c].enable || s.rings[c].ready.isEmpty) = true
    ↔ s.cameras[c].enable = false ∨ s.rings[c].ready = [] := by
  rw [Bool.or_eq_true, Bool.not_eq_true', List.isEmpty_iff]

theorem State.take_noFrame {h : HoldId} (free : s.holds.table.get h = none)
    (none : s.cameras[c].enable = false ∨ s.rings[c].ready = []) :
    s.take o c post = (s.emit (.holdRefused c o post .noFrame), .refused .noFrame) := by
  obtain ⟨h', place⟩ := State.emptyPlace_some free
  unfold State.take
  rw [place]
  exact if_pos (State.noFrame_iff.mpr none)

theorem State.take_noSlot {h : HoldId} (free : s.holds.table.get h = none) (on : s.cameras[c].enable = true)
    (frames : s.rings[c].ready ≠ []) (empty : ∀ i, i < s.pool.slots.length → (s.slot i).disp ≠ .free) :
    s.take o c post = (s.emit (.holdRefused c o post .noSlot), .refused .noSlot) := by
  obtain ⟨h', place⟩ := State.emptyPlace_some free
  have count := State.freeCount_eq_zero_iff.mpr (State.lowestFree_eq_none_iff.mpr empty)
  unfold State.take
  rw [place]
  dsimp only
  rw [if_neg fun none => (State.noFrame_iff.mp none).elim (fun off => absurd (on.symm.trans off) (by decide)) frames,
    if_pos count]
  rfl

/-! ### The take -/

/-- What a take leaves in the pool and in the ring of camera `c`: slot `i` HELD(h), slot `j` in the ring in its
place, as the landing target where there was none. -/
structure Replaced (s : State) (c : Camera) (h : HoldId) (i j : Nat) (t : State) : Prop where
  lifted : t.slot i = { s.slot i with disp := .held h }
  ring : t.rings[c] = { s.rings[c] with
    ready := s.rings[c].ready.dropLast
    filling := if s.rings[c].filling = none then some j else s.rings[c].filling
    empty := if s.rings[c].filling = none then [] else s.rings[c].empty ++ [j] }
  joined : t.slot j = ⟨.ring c (if s.rings[c].filling = none then .filling else .empty), 0, none⟩
  others : ∀ k, k ≠ i → k ≠ j → t.slot k = s.slot k
  rings : ∀ c' : Camera, c' ≠ c → t.rings[c'] = s.rings[c']

/-- The newest READY member stands last and once. -/
theorem erase_newest {l : List Nat} {i : Nat} (newest : l.getLast? = some i) (nodup : l.Nodup) :
    l.erase i = l.dropLast := by
  obtain ⟨front, rfl⟩ := List.getLast?_eq_some_iff.mp newest
  rw [List.dropLast_concat]
  simpa using erase_middle (older := front) (newer := []) nodup

theorem State.takeRequest_replaces {h : HoldId} {i j : Nat} (on : s.cameras[c].enable = true)
    (newest : s.rings[c].ready.getLast? = some i) (nodup : s.rings[c].ready.Nodup) (lowest : s.lowestFree = some j)
    (hi : i < s.pool.slots.length) (hj : j < s.pool.slots.length) (hij : j ≠ i)
    (full : s.rings[c].filling = none → s.rings[c].empty = []) :
    ∃ t, s.takeRequest c h = some (⟨i, s.stampOf i⟩, t) ∧ Replaced s c h i j t ∧ Effect [.pool, .rings] s t
      ∧ Logged (if s.rings[c].filling = none then [.starved c false] else []) s t := by
  have erased := erase_newest newest nodup
  have request : s.takeRequest c h = some (⟨i, s.stampOf i⟩,
      if s.starved c then (s.transferred c h i j).endStarved c else s.transferred c h i j) := by
    unfold State.takeRequest RingRec.newest
    rw [newest]
    dsimp only
    rw [State.transfer_some lowest]
  have lifted := State.transferred_lifted (s := s) (c := c) (h := h) hi hij
  have joined := State.transferred_joined (s := s) (c := c) (h := h) (i := i) hj
  by_cases starved : s.rings[c].filling = none
  · have empty : (s.transferred c h i j).rings[c].empty = [j] := by
      rw [State.transferred_ring]
      exact congrArg (· ++ [j]) (full starved)
    have chosen := State.endStarved_of_empty _ c empty (congrArg SlotRec.pins joined)
    have slots := fun u : State => (u.emit_touches (.starved c false)).slot
    refine ⟨_, request, ?_, ?_, ?_⟩ <;> rw [if_pos (State.starved_iff.mpr ⟨on, starved⟩)]
    · rw [chosen]
      refine ⟨?_, ?_, ?_, fun k ki kj => ?_, fun c' hc => ?_⟩
      · rw [slots, State.targeted_slot_of_ne _ _ _ hij.symm, lifted]
      · rw [State.emit_rings, State.targeted_ring, State.transferred_ring, erased, if_pos starved, if_pos starved]
      · rw [slots, State.targeted_slot_self _ _ _ (by rw [State.transferred_length]; exact hj), if_pos starved]
      · rw [slots, State.targeted_slot_of_ne _ _ _ kj, State.transferred_slot_of_ne ki kj]
      · rw [State.emit_rings, State.targeted_ring_of_ne _ _ _ hc, State.transferred_ring_of_ne hc]
    · exact (State.transferred_effect.trans (State.endStarved_effect _ c)).mono (by decide)
    · rw [chosen, if_pos starved]
      exact State.transferred_logged.trans ((State.targeted_logged _ c _).trans (.emit _ _))
  · have calm : s.starved c = false := by
      rw [← Bool.not_eq_true, State.starved_iff]
      exact fun h => starved h.2
    refine ⟨_, request, ?_, ?_, ?_⟩ <;> rw [calm, if_neg Bool.false_ne_true]
    · refine ⟨lifted, ?_, ?_, fun k => State.transferred_slot_of_ne, fun c' => State.transferred_ring_of_ne⟩
      · rw [State.transferred_ring, erased, if_neg starved, if_neg starved]
      · rw [joined, if_neg starved]
    · exact State.transferred_effect
    · rw [if_neg starved]
      exact State.transferred_logged

/-- The hold that a take of origin `o` makes (R139). -/
def State.takenHold (s : State) (o : Origin) (c : Camera) (post i : Nat) (f : FrameStamp) : Hold :=
  { state := if post = 0 then .complete else .collecting
    origin := o, camera := c, event := s.time, post := post
    slots := [⟨i, f.number, .pre, some f.captured⟩], short := false
    staleSource := decide (s.cadence[c].state = .stale)
    cause := if post = 0 then some .atTake else none }

/-- The reports of a take that is not refused. -/
def State.takeReports (s : State) (c : Camera) (post : Nat) (h : HoldId) (y : Hold) : List Report :=
  (if s.rings[c].filling = none then [.starved c false] else [])
    ++ .holdTaken h y :: (if post = 0 then [.holdComplete h y] else [])

theorem State.makeHold_logged (s : State) (h : HoldId) (o : Origin) (c : Camera) (post : Nat) (x : Taken) {y : Hold}
    (hy : newHold o c s.time post x (decide (s.cadence[c].state = .stale)) = y) :
    Logged (.holdTaken h y :: (if post = 0 then [.holdComplete h y] else [])) s (s.makeHold h o c post x).1 := by
  subst hy
  have first : Logged [.holdTaken h _] s ((s.addHold h _).emit (.holdTaken h
      (newHold o c s.time post x (decide (s.cadence[c].state = .stale))))) :=
    Logged.trans (rs := []) (t := s.addHold h (newHold o c s.time post x (decide (s.cadence[c].state = .stale))))
      ⟨rfl, rfl, rfl⟩ (.emit _ _)
  unfold State.makeHold
  split
  · exact first.trans (.emit _ _)
  · exact first

/-- A take that no check refuses (R138, R139). -/
theorem State.take_taken {h : HoldId} {i j : Nat} {f : FrameStamp} (laws : s.poolLaws)
    (free : s.holds.table.get h = none) (lower : ∀ h', h' < h → s.holds.table.get h' ≠ none)
    (on : s.cameras[c].enable = true) (newest : s.rings[c].ready.getLast? = some i)
    (frame : (s.slot i).frame = some f) (hj : j < s.pool.slots.length) (slot : (s.slot j).disp = .free)
    (first : ∀ k, k < j → (s.slot k).disp ≠ .free) (full : s.rings[c].filling = none → s.rings[c].empty = []) :
    (s.take o c post).2 = .taken h ∧ Effect [.holds, .pool, .rings] s (s.take o c post).1
      ∧ (s.take o c post).1.holds = { s.holds with
          table := upd s.holds.table h (some (s.takenHold o c post i f)), order := s.holds.order ++ [h] }
      ∧ Replaced s c h i j (s.take o c post).1
      ∧ Logged (s.takeReports c post h (s.takenHold o c post i f)) s (s.take o c post).1 := by
  have lowest := State.lowestFree_eq_some_iff.mpr ⟨hj, slot, first⟩
  obtain ⟨members, nodups, -⟩ := laws
  have member := RingRec.mem_members_ready.mpr (List.mem_of_getLast? newest)
  obtain ⟨hi, disp⟩ := (members c i .ready).mp member
  have hij : j ≠ i := by
    rintro rfl
    rw [slot] at disp
    cases disp
  have nodup : s.rings[c].ready.Nodup := by
    have all := nodups c
    rw [RingRec.members_map_fst, List.append_assoc] at all
    exact (List.nodup_append.mp all).1
  obtain ⟨u, request, replaced, effect, log⟩ :=
    State.takeRequest_replaces (h := h) on newest nodup lowest hi hj hij full
  have take : s.take o c post = u.makeHold h o c post ⟨i, f⟩ := by
    have frames : s.rings[c].ready ≠ [] := fun none => by rw [none] at newest; cases newest
    have some : s.freeCount ≠ 0 := fun zero => by
      rw [State.freeCount_eq_zero_iff.mp zero] at lowest
      cases lowest
    unfold State.take
    rw [State.emptyPlace_lowest free lower]
    dsimp only
    rw [if_neg fun none => (State.noFrame_iff.mp none).elim (fun off => absurd (on.symm.trans off) (by decide)) frames,
      if_neg some, request, State.stampOf_of_some frame]
  have made := u.makeHold_effect h o c post ⟨i, f⟩
  have hold : newHold o c u.time post ⟨i, f⟩ (decide (u.cadence[c].state = .stale)) = s.takenHold o c post i f := by
    rw [show u.time = s.time from effect.same .time, show u.cadence = s.cadence from effect.same .cadence]
    rfl
  have slots := made.touches.slot
  have rings : (u.makeHold h o c post ⟨i, f⟩).1.rings = u.rings := made.same .rings
  rw [take]
  refine ⟨rfl, (effect.trans made).mono (by decide), ?_, ⟨(slots i).trans replaced.lifted, ?_,
    (slots j).trans replaced.joined, fun k ki kj => (slots k).trans (replaced.others k ki kj), fun c' hc => ?_⟩,
    log.trans (u.makeHold_logged h o c post ⟨i, f⟩ hold)⟩
  · rw [State.makeHold_holds, State.addHold_holds, hold, show u.holds = s.holds from effect.same .holds]
  · rw [rings]
    exact replaced.ring
  · rw [rings]
    exact replaced.rings c' hc

end take

end Sys2Proof.Machine
end

section
/-! HOLD_TAKE in IDLE, and the same take of any origin (O35). -/

namespace Sys2Proof.Machine

set_option Elab.async false

theorem cameraArg_of_val {b : Byte} {c : Camera} (h : c.val = b.toNat) : cameraArg b = some c := by
  unfold cameraArg
  rw [dif_pos (h ▸ c.isLt)]
  exact congrArg some (Fin.ext h.symm)

section

variable {s : State} {camera post : Byte} {c : Camera}

theorem State.idleHoldTake_badArg (h : 15 < camera.toNat ∨ 3 < post.toNat) :
    s.idleHoldTake camera post = s.finishPlain 0x30 .refused .badArg := by
  unfold State.idleHoldTake cameraArg
  by_cases hc : camera.toNat < 16
  · rw [dif_pos hc]
    exact if_pos (h.resolve_left (by omega))
  · rw [dif_neg hc]

theorem State.idleHoldTake_refused (hc : c.val = camera.toNat) (hp : post.toNat ≤ 3) {reason : Reason}
    (h : s.take .manual c post.toNat = (s.emit (.holdRefused c .manual post.toNat reason), .refused reason)) :
    s.idleHoldTake camera post =
      (s.emit (.holdRefused c .manual post.toNat reason)).finishPlain 0x30 .refused reason := by
  unfold State.idleHoldTake
  rw [cameraArg_of_val hc]
  dsimp only
  rw [if_neg (Nat.not_lt.mpr hp), h]

theorem State.idleHoldTake_taken (hc : c.val = camera.toNat) (hp : post.toNat ≤ 3) {h : HoldId}
    (taken : (s.take .manual c post.toNat).2 = .taken h) :
    s.idleHoldTake camera post =
      (s.take .manual c post.toNat).1.finish 0x30 .done .none 0 (BitVec.ofNat 16 h.val) := by
  unfold State.idleHoldTake
  rw [cameraArg_of_val hc]
  dsimp only
  rw [if_neg (Nat.not_lt.mpr hp), taken]

end

/-- A state that differs in memory and engine alone has the same pool laws. -/
theorem State.poolLaws_taken {s : State} (laws : s.poolLaws) (d : Word) (tag : Byte) : (s.taken d tag).poolLaws := laws

/-- HOLD_TAKE in IDLE. -/
theorem holdTake_in_idle (r : Requester) (tag camera post : Byte) (spare : BitVec 32) (s : State)
    (running : s.isRunning) (role : s.roleOf r.tag = .control) (idle : s.engine.state = .idle)
    (inRange : s.ring.inRange) :
    let d := commandWord 0x30 tag (twoArgs camera post spare)
    let refusal := fun (c : Camera) (reason : Reason) =>
      ∃ t, exec (.holdTake r tag camera post spare) s = .next t ∧ Touches [.mem, .ring, .engine, .port] s t
        ∧ Answered s t r d [.holdRefused c .manual post.toNat reason] (s.engine.ended tag .refused reason 0 0)
    (15 < camera.toNat ∨ 3 < post.toNat →
        ∃ t, exec (.holdTake r tag camera post spare) s = .next t ∧ Touches [.mem, .ring, .engine, .port] s t
          ∧ Answered s t r d [] (s.engine.ended tag .refused .badArg 0 0))
      ∧ ∀ c : Camera, c.val = camera.toNat → post.toNat ≤ 3 →
        ((∀ h : HoldId, s.holds.table.get h ≠ none) → refusal c .tableFull)
          ∧ (∀ h : HoldId, s.holds.table.get h = none →
              s.cameras[c].enable = false ∨ s.rings[c].ready = [] → refusal c .noFrame)
          ∧ (∀ h : HoldId, s.holds.table.get h = none → s.cameras[c].enable = true → s.rings[c].ready ≠ [] →
              (∀ i, i < s.pool.slots.length → (s.slot i).disp ≠ .free) → refusal c .noSlot)
          ∧ ∀ (h : HoldId) (i j : Nat) (f : FrameStamp), s.poolLaws →
              s.holds.table.get h = none → (∀ h', h' < h → s.holds.table.get h' ≠ none) →
              s.cameras[c].enable = true → s.rings[c].ready.getLast? = some i → (s.slot i).frame = some f →
              j < s.pool.slots.length → (s.slot j).disp = .free → (∀ k, k < j → (s.slot k).disp ≠ .free) →
              (s.rings[c].filling = none → s.rings[c].empty = []) →
                ∃ t, exec (.holdTake r tag camera post spare) s = .next t
                  ∧ Touches [.pool, .rings, .holds, .mem, .ring, .engine, .port] s t
                  ∧ t.holds = { s.holds with
                    table := upd s.holds.table h (some (s.takenHold .manual c post.toNat i f))
                    order := s.holds.order ++ [h] }
                  ∧ Replaced s c h i j t
                  ∧ Answered s t r d (s.takeReports c post.toNat h (s.takenHold .manual c post.toNat i f))
                    (s.engine.ended tag .done .none 0 (BitVec.ofNat 16 h.val)) := by
  intro d refusal
  have code : commandByte d 0 = 0x30 := commandByte_commandWord_zero ..
  have run := commandWrite_idle running role idle (c := .holdTake camera post) (by simp) d tag
  have refused : ∀ (c : Camera) reason, c.val = camera.toNat → post.toNat ≤ 3 →
      (s.taken d tag).take .manual c post.toNat
        = ((s.taken d tag).emit (.holdRefused c .manual post.toNat reason), .refused reason) → refusal c reason :=
    fun c reason hc hp h => by
      rw [show (s.taken d tag).idleCommand (.holdTake camera post) = _ from State.idleHoldTake_refused hc hp h] at run
      refine ⟨_, run, State.finish_touches (Effect.emit _ _) _ _ _ _ _ r _ (by decide), ?_⟩
      have answer := answered_of_finish (u := (s.taken d tag).emit (.holdRefused c .manual post.toNat reason)) r inRange
        ((s.taken_logged d tag).trans (.emit _ _)) rfl rfl .refused reason 0 0
      rw [code] at answer
      exact answer
  refine ⟨fun bad => ?_, fun c hc hp => ⟨fun full => refused c _ hc hp (State.take_tableFull full),
    fun h free none => refused c _ hc hp (State.take_noFrame free none),
    fun h free on frames empty => refused c _ hc hp (State.take_noSlot free on frames empty),
    fun h i j f laws free lower on newest frame hj slot first full => ?_⟩⟩
  · rw [show (s.taken d tag).idleCommand (.holdTake camera post) = _ from State.idleHoldTake_badArg bad] at run
    exact ⟨_, run, finish_taken r inRange code⟩
  · obtain ⟨answer, effect, holds, replaced, log⟩ := State.take_taken (s := s.taken d tag) (o := .manual)
      (post := post.toNat) (State.poolLaws_taken laws d tag) free lower on newest frame hj slot first full
    generalize hu : ((s.taken d tag).take .manual c post.toNat).1 = u at effect holds replaced log
    have finished : (s.taken d tag).idleCommand (.holdTake camera post)
        = u.finish 0x30 .done .none 0 (BitVec.ofNat 16 h.val) := by
      rw [← hu]
      exact State.idleHoldTake_taken hc hp answer
    rw [finished] at run
    have rest := u.finish_effect 0x30 .done .none 0 (BitVec.ofNat 16 h.val)
    have slots := rest.touches.slot
    have rings : (u.finish 0x30 .done .none 0 (BitVec.ofNat 16 h.val)).rings = u.rings := rest.same .rings
    refine ⟨_, run, State.finish_touches effect _ _ _ _ _ r _ (by decide), (rest.same .holds).trans holds,
      ⟨(slots i).trans replaced.lifted, ?_, (slots j).trans replaced.joined,
        fun k ki kj => (slots k).trans (replaced.others k ki kj), fun c' hc' => ?_⟩, ?_⟩
    · rw [State.completeWrite_rings, rings]
      exact replaced.ring
    · rw [State.completeWrite_rings, rings]
      exact replaced.rings c' hc'
    · have engine : u.engine = { s.engine with lastTag := tag } := effect.same .engine
      have ends := answered_of_finish r inRange ((s.taken_logged d tag).trans log) (congrArg Engine.lastTag engine)
        (effect.same .port) .done .none 0 (BitVec.ofNat 16 h.val)
      rw [code, engine] at ends
      exact ends

/-- Settles O35. -/
theorem holdTakeLiftsTheNewestFrame : Obligations.HoldTakeLiftsTheNewestFrame := by
  refine ⟨fun r tag camera post spare s running role idle inRange => ?_, fun s o c post => ?_⟩
  · obtain ⟨bad, checks⟩ := holdTake_in_idle r tag camera post spare s running role idle inRange
    refine ⟨bad, fun c hc hp => ?_⟩
    obtain ⟨full, noFrame, noSlot, taken⟩ := checks c hc hp
    refine ⟨full, noFrame, noSlot, fun h i j f laws free lower on newest frame hj slot first full => ?_⟩
    obtain ⟨t, run, touches, holds, replaced, answer⟩ :=
      taken h i j f laws free lower on newest frame hj slot first full
    exact ⟨t, run, touches, holds, replaced.lifted, replaced.ring, replaced.joined, replaced.others, replaced.rings,
      answer⟩
  · refine ⟨State.take_tableFull, fun h => State.take_noFrame, fun h => State.take_noSlot,
      fun h i j f laws free lower on newest frame hj slot first full => ?_⟩
    obtain ⟨answer, effect, holds, replaced, log⟩ :=
      State.take_taken (o := o) (post := post) laws free lower on newest frame hj slot first full
    exact ⟨answer, effect.touches.mono (by decide), holds, replaced.lifted, replaced.ring, replaced.joined,
      replaced.others, replaced.rings, log.reported_self⟩

end Sys2Proof.Machine
end

section
/-! Beats of a frame: word 0 (O40), the beats before the last word (O41), a torn frame (O42). -/

namespace Sys2Proof.Machine

set_option Elab.async false

/-! ### What the beats of a frame do to a camera's records -/

/-- The rings, cadence records and lens records of all cameras but `c` stand. -/
def OthersKept (c : Camera) (s t : State) : Prop :=
  ∀ c' : Camera, c' ≠ c → t.rings[c'] = s.rings[c'] ∧ t.cadence[c'] = s.cadence[c'] ∧ t.lens[c'] = s.lens[c']

section records

variable (s : State) (c : Camera) (i n : Nat) (w : WriteData)

theorem OthersKept.refl : OthersKept c s s := fun _ _ => ⟨rfl, rfl, rfl⟩

theorem OthersKept.trans {s t u : State} {c : Camera} (h : OthersKept c s t) (k : OthersKept c t u) :
    OthersKept c s u := fun c' hc => by
  obtain ⟨hr, hd, hl⟩ := h c' hc
  obtain ⟨kr, kd, kl⟩ := k c' hc
  exact ⟨kr.trans hr, kd.trans hd, kl.trans hl⟩

theorem State.setRing_others (r : RingRec) : OthersKept c s (s.setRing c r) :=
  fun _ hc => ⟨upd_getElem_of_ne _ _ hc, rfl, rfl⟩

theorem State.setLens_others (r : LensRec) : OthersKept c s (s.setLens c r) :=
  fun _ hc => ⟨rfl, rfl, upd_getElem_of_ne _ _ hc⟩

theorem State.setCadence_others (r : CadenceRec) : OthersKept c s (s.setCadence c r) :=
  fun _ hc => ⟨rfl, upd_getElem_of_ne _ _ hc, rfl⟩

theorem Touches.others {ps : List Piece} {s t : State} (h : Touches ps s t) (hr : Piece.rings ∉ ps)
    (hd : Piece.cadence ∉ ps) (hl : Piece.lens ∉ ps) : OthersKept c s t := fun c' _ => by
  rw [show t.rings = s.rings from h .rings hr, show t.cadence = s.cadence from h .cadence hd,
    show t.lens = s.lens from h .lens hl]
  exact ⟨rfl, rfl, rfl⟩

/-- A word is stored and handed to both monitors (R9, R12). -/
theorem State.landWord_records :
    (s.landWord c i n w).rings = s.rings
      ∧ (s.landWord c i n w).cadence[c] = { s.cadence[c] with
          sigAcc := s.cadence[c].sigAcc.map fun x => x + BitVec.ofNat 16 (lumaSum w.data) }
      ∧ (s.landWord c i n w).lens[c] = { s.lens[c] with
          acc := s.lens[c].acc.map fun x => x.add s.cameras[c] s.lens[c].noiseInUse n w.data }
      ∧ (s.landWord c i n w).mem = s.mem.writeWord (s.pool.slotAddr i + 8 * n) w :=
  ⟨rfl, upd_getElem_self .., upd_getElem_self .., rfl⟩

theorem State.landWord_others : OthersKept c s (s.landWord c i n w) :=
  .trans (t := (s.setMem (s.mem.writeWord (s.pool.slotAddr i + 8 * n) w)).lensAdd c n w.data)
    (State.setLens_others _ c _) (State.setCadence_others _ c _)

/-- A frame begins (R10, R36, R44). -/
theorem State.beginFrame_records :
    (s.beginFrame c i w).rings[c] = { s.rings[c] with phase := .inFrame, writes := 1, tornMark := false }
      ∧ (s.beginFrame c i w).cadence[c] = { s.cadence[c] with sigAcc := some (BitVec.ofNat 16 (lumaSum w.data)) }
      ∧ (s.beginFrame c i w).lens[c] = { s.lens[c] with
          acc := some (FrameAcc.zero.add s.cameras[c] s.cameras[c].noise 0 w.data)
          noiseInUse := s.cameras[c].noise }
      ∧ (s.beginFrame c i w).mem = s.mem.writeWord (s.pool.slotAddr i) w := by
  unfold State.beginFrame
  obtain ⟨rings, cadence, lens, mem⟩ := State.landWord_records (((s.setRing c { s.rings[c] with
    phase := .inFrame, writes := 1, tornMark := false }).lensBegin c).signatureBegin c) c i 0 w
  dsimp only
  rw [rings, cadence, lens, mem]
  unfold State.signatureBegin State.lensBegin
  refine ⟨upd_getElem_self .., ?_, ?_, rfl⟩
  · rw [State.setCadence_cadence, upd_getElem_self]
    simp
  · rw [State.setCadence_lens, State.setLens_lens, upd_getElem_self]
    rfl

theorem State.beginFrame_others : OthersKept c s (s.beginFrame c i w) :=
  (((s.setRing_others c _).trans (State.setLens_others _ c _)).trans (State.setCadence_others _ c _)).trans
    (State.landWord_others _ c i 0 w)

/-- A torn frame is counted, and the monitors drop what they gathered (R15). -/
theorem State.countTorn_records :
    (s.countTorn c).rings[c] = { s.rings[c] with torn := s.rings[c].torn + 1 }
      ∧ (s.countTorn c).cadence[c] = { s.cadence[c] with sigAcc := none }
      ∧ (s.countTorn c).lens[c] = { s.lens[c] with acc := none } ∧ (s.countTorn c).mem = s.mem :=
  ⟨upd_getElem_self .., upd_getElem_self .., upd_getElem_self .., rfl⟩

theorem State.countTorn_others : OthersKept c s (s.countTorn c) :=
  ((s.setRing_others c _).trans (State.setLens_others _ c _)).trans (State.setCadence_others _ c _)

theorem State.landingIdle_ring :
    (s.landingIdle c).rings[c] = { s.rings[c] with phase := .waiting, writes := 0, tornMark := false } :=
  upd_getElem_self ..

end records

theorem State.setRing_touches (s : State) (c : Camera) (r : RingRec) : Touches [.rings] s (s.setRing c r) := by
  intro p hp
  cases p <;> first | rfl | exact absurd (by decide) hp

/-! ### A landing beat that passes the checks of R9 -/

section beat

variable {s : State} {r : Requester} {c : Camera} {w : WriteData}

theorem isFull_iff : isFull w = true ↔ w.enables = 0xFF := decide_eq_true_iff

theorem exec_landing (running : s.isRunning) (role : s.roleOf r.tag = .capture) (on : s.cameras[c].enable = true)
    {word : BitVec 21} (below : word.toNat < s.cameras[c].frameWords) :
    exec (.landingWrite r c word w) s = .next ((s.landingPhase c word.toNat w).completeWrite r) := by
  rw [exec_landingWrite running, State.landingBeat, if_neg (not_not.mpr role), if_neg (by rw [on]; decide),
    if_neg (Nat.not_le.mpr below)]

/-- Before the last word a beat ends nothing. -/
theorem State.afterBeat_before {t : State} (cameras : t.cameras = s.cameras) {n : Nat}
    (h : n + 1 ≠ s.cameras[c].frameWords) : t.afterBeat c n = t := if_neg (by rw [cameras]; exact h)

theorem State.landingPhase_word0 (full : w.enables = 0xFF) : s.landingPhase c 0 w = s.word0 c w :=
  if_pos ⟨rfl, isFull_iff.mpr full⟩

theorem State.begunAnew_touches (s : State) (c : Camera) (i : Nat) (w : WriteData) :
    Touches landPieces s ((s.countTorn c).beginFrame c i w) :=
  (s.countTorn_touches c).seq ((s.countTorn c).beginFrame_touches c i w)

theorem State.word0_filling {i : Nat} (filling : s.rings[c].filling = some i) (more : 1 ≠ s.cameras[c].frameWords) :
    s.word0 c w = if s.rings[c].phase = .inFrame then (s.countTorn c).beginFrame c i w else s.beginFrame c i w := by
  unfold State.word0
  rw [filling]
  cases s.rings[c].phase with
  | waiting => exact State.afterBeat_before ((s.beginFrame_touches c i w).same .cameras) more
  | inFrame => exact State.afterBeat_before ((s.begunAnew_touches c i w).same .cameras) more
  | dropping => exact State.afterBeat_before ((s.beginFrame_touches c i w).same .cameras) more

theorem State.word0_starved (filling : s.rings[c].filling = none) (phase : s.rings[c].phase ≠ .inFrame) :
    s.word0 c w = s.starvedWord0 c := by
  unfold State.word0
  rw [filling]
  cases hp : s.rings[c].phase with
  | waiting => rfl
  | inFrame => exact absurd hp phase
  | dropping => rfl

theorem State.landingPhase_outside {n : Nat} (phase : s.rings[c].phase ≠ .inFrame) (h : n ≠ 0 ∨ w.enables ≠ 0xFF) :
    s.landingPhase c n w = s := by
  unfold State.landingPhase
  rw [if_neg fun ⟨first, full⟩ => h.elim (absurd first) (absurd (isFull_iff.mp full))]
  cases hp : s.rings[c].phase with
  | waiting => rfl
  | inFrame => exact absurd hp phase
  | dropping => rfl

theorem State.landingPhase_inFrame {n : Nat} (phase : s.rings[c].phase = .inFrame) (h : n ≠ 0 ∨ w.enables ≠ 0xFF) :
    s.landingPhase c n w = s.frameBeat c n w := by
  unfold State.landingPhase
  rw [if_neg fun ⟨first, full⟩ => h.elim (absurd first) (absurd (isFull_iff.mp full)), phase]

/-- A full beat in a frame: counted, stored and handed to the monitors. -/
theorem State.frameBeat_full {n i : Nat} (full : w.enables = 0xFF) (filling : s.rings[c].filling = some i) :
    s.frameBeat c n w = ((s.setRing c { s.rings[c] with
      writes := countWrite s.cameras[c] s.rings[c].writes }).landWord c i n w).afterBeat c n := by
  unfold State.frameBeat
  rw [if_pos (isFull_iff.mpr full)]
  split
  · rename_i j found
    cases filling.symm.trans found
    rfl
  · rename_i missing
    cases filling.symm.trans missing

/-- A partial beat in a frame: counted, and the torn mark is set. -/
theorem State.frameBeat_partial {n : Nat} (part : w.enables ≠ 0xFF) :
    s.frameBeat c n w = (s.setRing c { s.rings[c] with
      writes := countWrite s.cameras[c] s.rings[c].writes, tornMark := true }).afterBeat c n := by
  unfold State.frameBeat
  rw [if_neg (isFull_iff.not.mpr part)]

end beat

/-- Settles O40. -/
theorem word0BeginsAFrame : Obligations.Word0BeginsAFrame := fun r c w s running wf role on words full => by
  intro g
  have run := exec_landing (r := r) (w := w) (word := 0) running role on (Nat.zero_lt_of_lt words)
  rw [show (0 : BitVec 21).toNat = 0 from rfl, State.landingPhase_word0 full] at run
  refine ⟨fun i filling => ?_, fun filling phase => ?_⟩
  · rw [State.word0_filling filling (Nat.ne_of_lt words)] at run
    refine ⟨_, run, ?_⟩
    split
    · rename_i phase
      obtain ⟨ring, cadence, lens, mem⟩ := (s.countTorn c).beginFrame_records c i w
      obtain ⟨ring', cadence', lens', mem'⟩ := s.countTorn_records c
      rw [ring'] at ring
      rw [cadence'] at cadence
      rw [lens', (s.countTorn_touches c).same .cameras] at lens
      rw [mem', (s.countTorn_touches c).same .pool] at mem
      have touches := s.begunAnew_touches c i w
      have others := (s.countTorn_others c).trans (State.beginFrame_others _ c i w)
      generalize (s.countTorn c).beginFrame c i w = u at *
      exact ⟨completed_of_port r (touches.same .port), touches.completeWrite r (by decide),
        stored_of_writeWord wf mem, ring, cadence, lens, others⟩
    · rename_i phase
      obtain ⟨ring, cadence, lens, mem⟩ := s.beginFrame_records c i w
      have touches := s.beginFrame_touches c i w
      have others := s.beginFrame_others c i w
      generalize s.beginFrame c i w = u at *
      exact ⟨completed_of_port r (touches.same .port), touches.completeWrite r (by decide),
        stored_of_writeWord wf mem, ring, cadence, lens, others⟩
  · rw [State.word0_starved filling phase] at run
    exact ⟨_, run, completed_of_port r rfl, (s.setRing_touches c _).completeWrite r (by decide), upd_getElem_self ..,
      fun c' hc => upd_getElem_of_ne _ _ hc⟩

end Sys2Proof.Machine
end

section
/-! Beats before the last word and what a word adds (O41), and a torn frame's last word (O42). -/

namespace Sys2Proof.Machine

set_option Elab.async false

/-! ### Beats of a frame -/

section beats

variable {s : State} {c : Camera} {w : WriteData} {n i : Nat}

/-- A counted word in the member's slot, before the frame's end. -/
def State.wordStored (s : State) (c : Camera) (i n : Nat) (w : WriteData) : State :=
  (s.setRing c { s.rings[c] with writes := countWrite s.cameras[c] s.rings[c].writes }).landWord c i n w

theorem State.wordStored_records (s : State) (c : Camera) (i n : Nat) (w : WriteData) :
    (s.wordStored c i n w).rings[c] = { s.rings[c] with writes := countWrite s.cameras[c] s.rings[c].writes }
      ∧ (s.wordStored c i n w).cadence[c] = { s.cadence[c] with
          sigAcc := s.cadence[c].sigAcc.map fun x => x + BitVec.ofNat 16 (lumaSum w.data) }
      ∧ (s.wordStored c i n w).lens[c] = { s.lens[c] with
          acc := s.lens[c].acc.map fun x => x.add s.cameras[c] s.lens[c].noiseInUse n w.data }
      ∧ (s.wordStored c i n w).mem = s.mem.writeWord (s.pool.slotAddr i + 8 * n) w := by
  obtain ⟨rings, cadence, lens, mem⟩ := State.landWord_records
    (s.setRing c { s.rings[c] with writes := countWrite s.cameras[c] s.rings[c].writes }) c i n w
  exact ⟨(congrArg (fun v : Vector RingRec 16 => v[c]) rings).trans (upd_getElem_self ..), cadence, lens, mem⟩

theorem State.wordStored_others (s : State) (c : Camera) (i n : Nat) (w : WriteData) :
    OthersKept c s (s.wordStored c i n w) :=
  (s.setRing_others c _).trans (State.landWord_others _ c i n w)

theorem State.wordStored_touches (s : State) (c : Camera) (i n : Nat) (w : WriteData) :
    Touches landPieces s (s.wordStored c i n w) :=
  ((s.setRing_touches c _).mono (by decide)).seq (State.landWord_touches _ c i n w)

/-- A full beat before the last word. -/
theorem State.frameBeat_stores (more : n + 1 ≠ s.cameras[c].frameWords) (full : w.enables = 0xFF)
    (filling : s.rings[c].filling = some i) : s.frameBeat c n w = s.wordStored c i n w :=
  (State.frameBeat_full full filling).trans
    (State.afterBeat_before ((s.wordStored_touches c i n w).same .cameras) more)

/-- A partial beat before the last word. -/
theorem State.frameBeat_tears (more : n + 1 ≠ s.cameras[c].frameWords) (part : w.enables ≠ 0xFF) :
    s.frameBeat c n w = s.setRing c { s.rings[c] with
      writes := countWrite s.cameras[c] s.rings[c].writes, tornMark := true } :=
  (State.frameBeat_partial part).trans (State.afterBeat_before rfl more)

end beats

/-- The beats before the last word. -/
theorem beats_before_last (r : Requester) (c : Camera) (word : BitVec 21) (w : WriteData) (s : State)
    (running : s.isRunning) (wf : s.mem.wf = true) (role : s.roleOf r.tag = .capture)
    (on : s.cameras[c].enable = true) :
    let words := s.cameras[c].w * s.cameras[c].h / 4
    let g := s.rings[c]
    let count := min (g.writes + 1) (words + 1)
    (word.toNat < words → g.phase ≠ .inFrame → word ≠ 0 ∨ w.enables ≠ 0xFF →
        ∃ t, exec (.landingWrite r c word w) s = .next t ∧ Completed s t r ∧ Touches [.port] s t)
      ∧ (∀ i, word.toNat + 1 < words → g.phase = .inFrame → g.filling = some i → word ≠ 0 → w.enables = 0xFF →
          ∃ t, exec (.landingWrite r c word w) s = .next t ∧ Completed s t r
            ∧ Touches [.mem, .rings, .lens, .cadence, .port] s t
            ∧ Stored s t (s.pool.slotAddr i + 8 * word.toNat) w
            ∧ t.rings[c] = { g with writes := count }
            ∧ t.cadence[c] = { s.cadence[c] with
                sigAcc := s.cadence[c].sigAcc.map fun x => x + BitVec.ofNat 16 (lumaSum w.data) }
            ∧ t.lens[c] = { s.lens[c] with
                acc := s.lens[c].acc.map fun x => x.add s.cameras[c] s.lens[c].noiseInUse word.toNat w.data }
            ∧ ∀ c' : Camera, c' ≠ c →
                t.rings[c'] = s.rings[c'] ∧ t.cadence[c'] = s.cadence[c'] ∧ t.lens[c'] = s.lens[c'])
      ∧ (word.toNat + 1 < words → g.phase = .inFrame → w.enables ≠ 0xFF →
          ∃ t, exec (.landingWrite r c word w) s = .next t ∧ Completed s t r ∧ Touches [.rings, .port] s t
            ∧ t.rings[c] = { g with writes := count, tornMark := true }
            ∧ ∀ c' : Camera, c' ≠ c → t.rings[c'] = s.rings[c']) := by
  intro words g count
  have later : word ≠ 0 → word.toNat ≠ 0 := fun h e => h (BitVec.eq_of_toNat_eq e)
  refine ⟨fun below phase h => ?_, fun i below phase filling h full => ?_, fun below phase part => ?_⟩
  · have run := exec_landing (r := r) (w := w) running role on below
    rw [State.landingPhase_outside phase (h.imp_left later)] at run
    exact ⟨_, run, completed_of_port r rfl, s.completeWrite_touches r⟩
  · have run := exec_landing (r := r) (w := w) running role on (show word.toNat < words by omega)
    rw [State.landingPhase_inFrame phase (.inl (later h)), State.frameBeat_stores (Nat.ne_of_lt below) full filling]
      at run
    refine ⟨_, run, ?_⟩
    obtain ⟨ring, cadence, lens, mem⟩ := s.wordStored_records c i word.toNat w
    have touches := s.wordStored_touches c i word.toNat w
    have others := s.wordStored_others c i word.toNat w
    generalize s.wordStored c i word.toNat w = u at *
    exact ⟨completed_of_port r (touches.same .port), touches.completeWrite r (by decide),
      stored_of_writeWord wf mem, ring, cadence, lens, others⟩
  · have run := exec_landing (r := r) (w := w) running role on (show word.toNat < words by omega)
    rw [State.landingPhase_inFrame phase (.inr part), State.frameBeat_tears (Nat.ne_of_lt below) part] at run
    exact ⟨_, run, completed_of_port r rfl, (s.setRing_touches c _).completeWrite r (by decide),
      upd_getElem_self .., fun c' hc => upd_getElem_of_ne _ _ hc⟩

/-! ### What a word adds -/

/-- Row and column of a word lie in one of the 48 zones (R42). -/
theorem zoneIndex_lt {w h n : Nat} (mod : w % 4 = 0) (below : n < w * h / 4) :
    n / (w / 4) * 6 / h * 8 + 4 * (n % (w / 4)) * 8 / w < 48 := by
  obtain ⟨k, rfl⟩ : ∃ k, w = 4 * k := ⟨w / 4, by omega⟩
  rw [Nat.mul_div_cancel_left k (by decide)]
  rw [Nat.mul_assoc, Nat.mul_div_cancel_left _ (by decide)] at below
  have hk : 0 < k := Nat.pos_of_ne_zero fun h0 => by simp [h0] at below
  have hh : 0 < h := Nat.pos_of_ne_zero fun h0 => by simp [h0] at below
  have row : n / k < h := Nat.div_lt_of_lt_mul below
  have column : n % k < k := Nat.mod_lt _ hk
  have zoneRow : n / k * 6 / h < 6 := Nat.div_lt_of_lt_mul (by rw [Nat.mul_comm h]; omega)
  have zoneColumn : 4 * (n % k) * 8 / (4 * k) < 8 := Nat.div_lt_of_lt_mul (by omega)
  omega

theorem coredStep_comm (tn : Nat) (a b : Byte) :
    coredStep tn a b = ((b.toNat - a.toNat) + (a.toNat - b.toNat)) - tn := by
  unfold coredStep
  omega

/-- Settles O41. -/
theorem beatsWithinAFrame : Obligations.BeatsWithinAFrame := by
  refine ⟨beats_before_last, ⟨fun z => ?_, rfl⟩, fun a cam tn n w => ?_⟩
  · simp [FrameAcc.zero, Vector.get_eq_getElem]
  · intro luma cored y x b
    refine ⟨rfl, rfl, zoneIndex_lt, fun z hz => ?_⟩
    have zone : zoneOf cam n = z := by
      refine Fin.ext ?_
      show (y * 6 / cam.h * 8 + x * 8 / cam.w) % 48 = z.val
      rw [← hz, Nat.mod_eq_of_lt z.isLt]
    have added : b.zones = upd a.zones z ((a.zones.get z).add tn w) := by rw [← zone]; rfl
    have steps : coredGradient tn w = cored 0 + cored 1 + cored 2 := by
      unfold coredGradient
      rw [coredStep_comm, coredStep_comm, coredStep_comm]
    rw [added, upd_get_self]
    exact ⟨by rw [← steps]; rfl, rfl, rfl, fun z' hne => upd_get_of_ne _ _ hne⟩

end Sys2Proof.Machine
end

section
/-! The last word of a torn frame (O42). -/

namespace Sys2Proof.Machine

set_option Elab.async false

section torn

variable {s : State} {c : Camera} {w : WriteData} {n i : Nat}

/-- A torn frame is counted and the landing phase waits (R15). -/
def State.tornAway (s : State) (c : Camera) : State := (s.countTorn c).landingIdle c

theorem State.tornAway_records (s : State) (c : Camera) :
    (s.tornAway c).rings[c] = { s.rings[c] with
        phase := .waiting, writes := 0, tornMark := false, torn := s.rings[c].torn + 1 }
      ∧ (s.tornAway c).cadence[c] = { s.cadence[c] with sigAcc := none }
      ∧ (s.tornAway c).lens[c] = { s.lens[c] with acc := none } ∧ (s.tornAway c).mem = s.mem := by
  obtain ⟨ring, cadence, lens, mem⟩ := s.countTorn_records c
  refine ⟨?_, cadence, lens, mem⟩
  unfold State.tornAway
  rw [State.landingIdle_ring, ring]

theorem State.tornAway_others (s : State) (c : Camera) : OthersKept c s (s.tornAway c) :=
  (s.countTorn_others c).trans (State.setRing_others _ c _)

theorem State.tornAway_touches (s : State) (c : Camera) : Touches landPieces s (s.tornAway c) :=
  (s.countTorn_touches c).seq (State.landingIdle_touches _ c)

theorem State.afterBeat_torn {t : State} (cameras : t.cameras = s.cameras) (last : n + 1 = s.cameras[c].frameWords)
    (broken : ¬(t.rings[c].writes = s.cameras[c].frameWords ∧ t.rings[c].tornMark = false)) :
    t.afterBeat c n = t.tornAway c := by
  unfold State.afterBeat State.frameEnd
  rw [if_pos (by rw [cameras]; exact last)]
  dsimp only
  split
  · exact if_neg (by rw [cameras]; exact broken)
  · rfl

/-- A full last word of a frame that is not whole. -/
theorem State.frameBeat_discards (last : n + 1 = s.cameras[c].frameWords) (full : w.enables = 0xFF)
    (filling : s.rings[c].filling = some i)
    (broken : s.rings[c].tornMark = true ∨ s.rings[c].writes + 1 ≠ s.cameras[c].frameWords) :
    s.frameBeat c n w = (s.wordStored c i n w).tornAway c := by
  obtain ⟨ring, -⟩ := s.wordStored_records c i n w
  refine (State.frameBeat_full full filling).trans
    (State.afterBeat_torn ((s.wordStored_touches c i n w).same .cameras) last ?_)
  rw [show ((s.setRing c { s.rings[c] with
    writes := countWrite s.cameras[c] s.rings[c].writes }).landWord c i n w).rings[c] = _ from ring]
  rintro ⟨whole, mark⟩
  have whole : min (s.rings[c].writes + 1) (s.cameras[c].frameWords + 1) = s.cameras[c].frameWords := whole
  rcases broken with h | h
  · exact absurd (mark.symm.trans h) (by decide)
  · omega

/-- A partial last word. -/
theorem State.frameBeat_discards_part (last : n + 1 = s.cameras[c].frameWords) (part : w.enables ≠ 0xFF) :
    s.frameBeat c n w = (s.setRing c { s.rings[c] with
      writes := countWrite s.cameras[c] s.rings[c].writes, tornMark := true }).tornAway c := by
  refine (State.frameBeat_partial part).trans (State.afterBeat_torn rfl last ?_)
  rw [State.setRing_rings, upd_getElem_self]
  exact fun ⟨_, h⟩ => by cases h

end torn

/-- Settles O42. -/
theorem tornFrameIsDiscarded : Obligations.TornFrameIsDiscarded :=
    fun r c word w s i running wf role on last later phase filling broken => by
  have run := exec_landing (r := r) (w := w) running role on
    (show word.toNat < s.cameras[c].w * s.cameras[c].h / 4 by omega)
  rw [State.landingPhase_inFrame phase (.inl fun e => later (BitVec.eq_of_toNat_eq e))] at run
  by_cases full : w.enables = 0xFF
  · rw [State.frameBeat_discards last full filling (broken.resolve_left (not_not.mpr full))] at run
    obtain ⟨ring, cadence, lens, mem⟩ := s.wordStored_records c i word.toNat w
    obtain ⟨ring', cadence', lens', mem'⟩ := (s.wordStored c i word.toNat w).tornAway_records c
    rw [ring] at ring'
    rw [cadence] at cadence'
    rw [lens] at lens'
    rw [mem] at mem'
    have touches := (s.wordStored_touches c i word.toNat w).trans (State.tornAway_touches _ c)
    have others := (s.wordStored_others c i word.toNat w).trans (State.tornAway_others _ c)
    generalize (s.wordStored c i word.toNat w).tornAway c = u at *
    exact ⟨_, run, completed_of_port r (touches.same .port), touches.completeWrite r (by decide),
      fun _ => stored_of_writeWord wf mem', fun h => absurd full h, ring', cadence', lens', others⟩
  · rw [State.frameBeat_discards_part last full] at run
    obtain ⟨ring, cadence, lens, mem⟩ := State.tornAway_records (s.setRing c { s.rings[c] with
      writes := countWrite s.cameras[c] s.rings[c].writes, tornMark := true }) c
    rw [State.setRing_rings, upd_getElem_self] at ring
    have touches := (s.setRing_touches c { s.rings[c] with
      writes := countWrite s.cameras[c] s.rings[c].writes, tornMark := true }).trans (State.tornAway_touches _ c)
    have others := (s.setRing_others c { s.rings[c] with
      writes := countWrite s.cameras[c] s.rings[c].writes, tornMark := true }).trans (State.tornAway_others _ c)
    generalize State.tornAway (s.setRing c _) c = u at *
    exact ⟨_, run, completed_of_port r (touches.same .port), touches.completeWrite r (by decide),
      fun h => absurd h full, fun _ => mem, ring, cadence, lens, others⟩

end Sys2Proof.Machine
end

section
/-! An accepted frame (O43): what the pool's laws say of a ring, the notices of an acceptance, and the next
landing target. -/

namespace Sys2Proof.Machine

set_option Elab.async false

/-! ### A ring under the pool's laws -/

theorem RingRec.mem_members_filling {r : RingRec} {i : Nat} : (i, .filling) ∈ r.members ↔ r.filling = some i := by
  simp [RingRec.members]

theorem RingRec.mem_members_empty {r : RingRec} {i : Nat} : (i, .empty) ∈ r.members ↔ i ∈ r.empty := by
  simp [RingRec.members]

section laws

variable {s : State} (laws : s.poolLaws) {c : Camera} {i : Nat}

include laws

theorem State.poolLaws.ready (h : i ∈ s.rings[c].ready) :
    i < s.pool.slots.length ∧ (s.slot i).disp = .ring c .ready :=
  (laws.1 c i .ready).mp (RingRec.mem_members_ready.mpr h)

theorem State.poolLaws.filling (h : s.rings[c].filling = some i) :
    i < s.pool.slots.length ∧ (s.slot i).disp = .ring c .filling :=
  (laws.1 c i .filling).mp (RingRec.mem_members_filling.mpr h)

theorem State.poolLaws.empty (h : i ∈ s.rings[c].empty) :
    i < s.pool.slots.length ∧ (s.slot i).disp = .ring c .empty :=
  (laws.1 c i .empty).mp (RingRec.mem_members_empty.mpr h)

/-- FILLING and EMPTY members have no pin. -/
theorem State.poolLaws.filling_pins (h : s.rings[c].filling = some i) : (s.slot i).pins = 0 := by
  obtain ⟨hi, disp⟩ := State.poolLaws.filling laws h
  obtain ⟨-, -, -, -, pins⟩ := laws
  have := pins i hi
  rw [disp] at this
  exact this

theorem State.poolLaws.empty_pins (h : i ∈ s.rings[c].empty) : (s.slot i).pins = 0 := by
  obtain ⟨hi, disp⟩ := State.poolLaws.empty laws h
  obtain ⟨-, -, -, -, pins⟩ := laws
  have := pins i hi
  rw [disp] at this
  exact this

theorem State.poolLaws.filling_not_ready (h : s.rings[c].filling = some i) : i ∉ s.rings[c].ready := fun hr => by
  have := (State.poolLaws.ready laws hr).2.symm.trans (State.poolLaws.filling laws h).2
  cases this

theorem State.poolLaws.filling_not_empty (h : s.rings[c].filling = some i) : i ∉ s.rings[c].empty := fun he => by
  have := (State.poolLaws.empty laws he).2.symm.trans (State.poolLaws.filling laws h).2
  cases this

end laws

/-! ### The next landing target -/

/-- A ring between frames (R14 step 5). -/
def RingRec.idled (r : RingRec) : RingRec := { r with phase := .waiting, writes := 0, tornMark := false }

/-- The choice does not look at the landing phase. -/
theorem targetChoice_idled (pins : Nat → Nat) (r : RingRec) :
    targetChoice pins r.idled = (targetChoice pins r).map fun x => (x.1, x.2.idled) := by
  cases he : r.empty with
  | cons i rest =>
    rw [targetChoice_of_empty (g := r.idled) he, targetChoice_of_empty he]
    rfl
  | nil =>
    rw [targetChoice_of_full (g := r.idled) he, targetChoice_of_full he]
    show (r.ready.dropLast.find? _).map _ = _
    cases r.ready.dropLast.find? fun i => pins i = 0 <;> rfl

/-- The chosen member is EMPTY, or READY without a pin and not the newest. -/
theorem targetChoice_member {pins : Nat → Nat} {r g : RingRec} {k : Nat} (h : targetChoice pins r = some (k, g)) :
    k ∈ r.empty ∨ k ∈ r.ready.dropLast ∧ pins k = 0 := by
  cases he : r.empty with
  | cons i rest =>
    rw [targetChoice_of_empty he] at h
    cases h
    exact .inl (List.mem_cons_self ..)
  | nil =>
    rw [targetChoice_of_full he] at h
    obtain ⟨i, found, hk⟩ := Option.map_eq_some_iff.mp h
    cases hk
    exact .inr ⟨List.mem_of_find?_eq_some found, by simpa using List.find?_some found⟩

/-- What the choice of the next target leaves of the ring and the slots: by `choice`, in the idle ring. -/
structure Targeted (v : State) (c : Camera) (choice : Option (Nat × RingRec)) (t : State) : Prop where
  ring : t.rings[c] = match choice with
    | some x => x.2
    | none => v.rings[c].idled
  slots : ∀ k, t.slot k = if choice.map Prod.fst = some k then ⟨.ring c .filling, 0, none⟩ else v.slot k
  others : OthersKept c v t
  log : Logged (if choice = none then [.starved c true] else []) v t
  touches : Touches [.pool, .rings, .mem, .ring] v t

theorem State.landingIdle_logged (s : State) (c : Camera) : Logged [] s (s.landingIdle c) := ⟨rfl, rfl, rfl⟩

/-- Step 4 and 5 of an acceptance, where a chosen member is a slot without a pin (R16, R17). -/
theorem State.chooseTarget_targeted {v : State} {c : Camera}
    (member : ∀ k g, targetChoice (fun i => (v.slot i).pins) v.rings[c] = some (k, g) →
      k < v.pool.slots.length ∧ (v.slot k).pins = 0) :
    Targeted v c (targetChoice (fun i => (v.slot i).pins) v.rings[c].idled) ((v.chooseTarget c).landingIdle c) := by
  rw [targetChoice_idled]
  have touches : Touches [.pool, .rings, .mem, .ring] v ((v.chooseTarget c).landingIdle c) :=
    ((v.chooseTarget_effect c).touches.trans (State.setRing_touches _ c _)).mono (by decide)
  cases chosen : targetChoice (fun i => (v.slot i).pins) v.rings[c] with
  | none =>
    have stays : v.chooseTarget c = v.emit (.starved c true) := by
      unfold State.chooseTarget State.takeTarget
      rw [chosen]
    rw [stays] at touches ⊢
    refine ⟨?_, fun k => ?_, ?_, (Logged.emit v _).trans (State.landingIdle_logged _ c), touches⟩
    · rw [State.landingIdle_ring, State.emit_rings]
      rfl
    · exact (v.emit_touches (.starved c true)).slot (by decide) k
    · refine OthersKept.trans (t := v.emit (.starved c true)) ?_ (State.setRing_others _ c _)
      exact Touches.others c (v.emit_touches _) (by decide) (by decide) (by decide)
  | some x =>
    obtain ⟨k, g⟩ := x
    obtain ⟨hk, pins⟩ := member k g chosen
    have moves : v.chooseTarget c = v.targeted c g k := by
      unfold State.chooseTarget State.takeTarget
      rw [chosen]
      dsimp only
      rw [pins]
      rfl
    rw [moves] at touches ⊢
    refine ⟨?_, fun m => ?_, ?_, (v.targeted_logged c g).trans (State.landingIdle_logged _ c), touches⟩
    · rw [State.landingIdle_ring, State.targeted_ring]
      rfl
    · show (v.targeted c g k).slot m = _
      by_cases hm : m = k
      · subst hm
        rw [v.targeted_slot_self c g hk]
        exact (if_pos rfl).symm
      · rw [v.targeted_slot_of_ne c g hm]
        exact (if_neg fun e => hm (Option.some.inj e).symm).symm
    · exact OthersKept.trans (t := v.targeted c g k)
        (fun c' hc => ⟨v.targeted_ring_of_ne c g hc, rfl, rfl⟩) (State.setRing_others _ c _)

end Sys2Proof.Machine
end

section
/-! The acceptance of a whole frame (O43). -/

namespace Sys2Proof.Machine

set_option Elab.async false

/-! ### The notices of an acceptance -/

section arrival

variable (s : State) (c : Camera) (i n : Nat) (w : WriteData)

/-- The cadence record that the arrival of a frame with last word `w` finds, judged (R14 step 2). -/
def State.frameCadence : CadenceRec × List Report :=
  arrivalOf c s.cameras[c].period s.time { s.cadence[c] with
    sigAcc := s.cadence[c].sigAcc.map fun x => x + BitVec.ofNat 16 (lumaSum w.data) }

/-- The lens record that the arrival of a frame with last word `w` at index `n` finds, after the accepted notice. -/
def State.frameLens : LensRec × List Report :=
  lensAcceptedOf c s.cameras[c] s.setup s.cadence[c].state s.cadence[c].frozen { s.lens[c] with
    acc := s.lens[c].acc.map fun x => x.add s.cameras[c] s.lens[c].noiseInUse n w.data }

/-- The part after steps 1 and 2 of R14. -/
def State.arrived : State :=
  ((s.memberReady c i).arrival c).lensAccepted c s.cadence[c].state s.cadence[c].frozen

theorem State.accept_eq : s.accept c i = (((s.arrived c i).offerFrame c i).chooseTarget c).landingIdle c := rfl

/-- What the acceptance of the frame in slot `i` has done when the holds are offered it. -/
structure Arrived (v : State) : Prop where
  ring : v.rings[c] = { s.rings[c] with
    ready := s.rings[c].ready ++ [i], filling := none, writes := countWrite s.cameras[c] s.rings[c].writes
    frameCount := s.rings[c].frameCount + 1, accepted := s.rings[c].accepted + 1 }
  slot : v.slot i = ⟨.ring c .ready, 0, some ⟨s.rings[c].frameCount + 1, s.time⟩⟩
  slots : ∀ k, k ≠ i → v.slot k = s.slot k
  length : v.pool.slots.length = s.pool.slots.length
  cadence : v.cadence[c] = (s.frameCadence c w).1
  lens : v.lens[c] = (s.frameLens c n w).1
  others : OthersKept c s v
  log : Logged ((s.frameCadence c w).2 ++ (s.frameLens c n w).2)
    (s.setMem (s.mem.writeWord (s.pool.slotAddr i + 8 * n) w)) v
  touches : Touches [.mem, .ring, .pool, .rings, .lens, .cadence] s v

theorem State.lensTo_logged (x : LensRec × List Report) : Logged x.2 s (s.lensTo c x) :=
  Logged.trans (rs := []) (t := s.setLens c x.1) ⟨rfl, rfl, rfl⟩ (.emitAll _ x.2)

theorem State.lensTo_lens (x : LensRec × List Report) : (s.lensTo c x).lens = upd s.lens c x.1 := State.emitAll_lens ..

theorem State.memberReady_others : OthersKept c s (s.memberReady c i) :=
  fun _ hc => ⟨upd_getElem_of_ne _ _ hc, rfl, rfl⟩

theorem State.cadenceTo_others (x : CadenceRec × List Report) : OthersKept c s (s.cadenceTo c x) :=
  OthersKept.trans (t := s.setCadence c x.1) (s.setCadence_others c _)
    (Touches.others c (State.emitAll_touches _ _) (by decide) (by decide) (by decide))

theorem State.lensTo_others (x : LensRec × List Report) : OthersKept c s (s.lensTo c x) :=
  OthersKept.trans (t := s.setLens c x.1) (s.setLens_others c _)
    (Touches.others c (State.emitAll_touches _ _) (by decide) (by decide) (by decide))

variable {s c i}

/-- Steps 1 and 2 of an acceptance, behind the last word (R14). -/
theorem State.arrived_of_wordStored (hi : i < s.pool.slots.length) :
    Arrived s c i n w ((s.wordStored c i n w).arrived c i) := by
  obtain ⟨ring, cadence, lens, mem⟩ := s.wordStored_records c i n w
  have touches := s.wordStored_touches c i n w
  have others := s.wordStored_others c i n w
  have log : Logged [] (s.setMem (s.mem.writeWord (s.pool.slotAddr i + 8 * n) w)) (s.wordStored c i n w) :=
    ⟨mem, touches.same .ring, touches.same .time⟩
  have pool : (s.wordStored c i n w).pool = s.pool := touches.same .pool
  have cameras : (s.wordStored c i n w).cameras = s.cameras := touches.same .cameras
  have setup : (s.wordStored c i n w).setup = s.setup := touches.same .setup
  have time : (s.wordStored c i n w).time = s.time := touches.same .time
  generalize s.wordStored c i n w = u at *
  have arrival : (u.memberReady c i).arrival c = (u.memberReady c i).cadenceTo c (s.frameCadence c w) := by
    unfold State.arrival State.frameCadence
    rw [show (u.memberReady c i).cameras = s.cameras from cameras, show (u.memberReady c i).time = s.time from time,
      show (u.memberReady c i).cadence[c] = _ from cadence]
  have moved := (u.memberReady_effect c i).trans ((u.memberReady c i).cadenceTo_effect c (s.frameCadence c w))
  have accepted : u.arrived c i =
      ((u.memberReady c i).cadenceTo c (s.frameCadence c w)).lensTo c (s.frameLens c n w) := by
    unfold State.arrived State.lensAccepted State.frameLens
    rw [arrival, show State.cameras (State.cadenceTo _ c (s.frameCadence c w)) = s.cameras from
        (moved.same .cameras).trans cameras,
      show State.setup (State.cadenceTo _ c (s.frameCadence c w)) = s.setup from (moved.same .setup).trans setup,
      show State.lens (State.cadenceTo _ c (s.frameCadence c w)) = u.lens from moved.same .lens, cadence, lens]
  have seen := ((u.memberReady c i).cadenceTo_effect c (s.frameCadence c w)).trans
    (State.lensTo_effect _ c (s.frameLens c n w))
  have kept := seen.touches.slot
  have ready : (u.memberReady c i).rings[c] = { u.rings[c] with
      ready := u.rings[c].ready ++ [i], filling := none, frameCount := u.rings[c].frameCount + 1
      accepted := u.rings[c].accepted + 1 } := upd_getElem_self ..
  rw [accepted]
  refine ⟨?_, ?_, fun k hk => ?_, ?_, ?_, ?_, ?_, ?_, ?_⟩
  · rw [show State.rings (State.lensTo _ c (s.frameLens c n w)) = (u.memberReady c i).rings from seen.same .rings,
      ready, ring]
  · rw [kept]
    refine (State.slot_setSlot_self _ _ ?_).trans ?_
    · rw [State.setRing_pool, pool]
      exact hi
    · rw [ring, time]
  · rw [kept]
    exact (State.slot_setSlot_of_ne _ _ hk).trans (State.slot_congr pool k)
  · rw [show State.pool (State.lensTo _ c (s.frameLens c n w)) = (u.memberReady c i).pool from seen.same .pool]
    exact (State.setSlot_length ..).trans (congrArg (fun p : SlotPool => p.slots.length) pool)
  · rw [show State.cadence (State.lensTo _ c (s.frameLens c n w)) = _ from
      (State.lensTo_effect _ c (s.frameLens c n w)).same .cadence, State.cadenceTo_cadence]
    exact upd_getElem_self ..
  · rw [State.lensTo_lens]
    exact upd_getElem_self ..
  · exact others.trans ((u.memberReady_others c i).trans ((State.cadenceTo_others _ c _).trans
      (State.lensTo_others _ c _)))
  · exact log.trans (Logged.trans (rs := []) (t := u.memberReady c i) ⟨rfl, rfl, rfl⟩
      ((State.cadenceTo_logged _ c _).trans (State.lensTo_logged _ c _)))
  · exact (touches.trans ((u.memberReady_effect c i).touches.trans seen.touches)).mono (by decide)

end arrival

end Sys2Proof.Machine
end

section
/-! The last word of a whole frame (O43). -/

namespace Sys2Proof.Machine

set_option Elab.async false

/-- The ring of a camera whose frame has been accepted, before the frame's place is chosen (R14). -/
def RingRec.frameAccepted (r : RingRec) : RingRec :=
  { r with
    filling := none, frameCount := r.frameCount + 1, accepted := r.accepted + 1, phase := .waiting, writes := 0
    tornMark := false }

section whole

variable {s v : State} {c : Camera} {i n : Nat} {w : WriteData}

/-- The next landing target after the frame in slot `i`, where the frame stays in the ring. -/
def State.nextTarget (s : State) (c : Camera) (i : Nat) : Option (Nat × RingRec) :=
  targetChoice (fun k => (s.slot k).pins) { s.rings[c].frameAccepted with ready := s.rings[c].ready ++ [i] }

/-- What an acceptance leaves of the camera's monitors, the other cameras and the log, with the further reports
`rs`. -/
structure FrameTold (s : State) (c : Camera) (i n : Nat) (w : WriteData) (rs : List Report) (t : State) : Prop where
  cadence : t.cadence[c] = (s.frameCadence c w).1
  lens : t.lens[c] = (s.frameLens c n w).1
  others : OthersKept c s t
  log : Logged ((s.frameCadence c w).2 ++ (s.frameLens c n w).2 ++ rs)
    (s.setMem (s.mem.writeWord (s.pool.slotAddr i + 8 * n) w)) t
  touches : Touches [.mem, .ring, .pool, .rings, .lens, .cadence, .holds] s t

/-- The frame stays in the ring, and the next target is chosen. -/
structure FrameStays (s : State) (c : Camera) (i : Nat) (t : State) : Prop where
  ring : t.rings[c] = match s.nextTarget c i with
    | some x => x.2
    | none => { s.rings[c].frameAccepted with ready := s.rings[c].ready ++ [i] }
  accepted : t.slot i = ⟨.ring c .ready, 0, some ⟨s.rings[c].frameCount + 1, s.time⟩⟩
  slots : ∀ k, k ≠ i → t.slot k =
    if (s.nextTarget c i).map Prod.fst = some k then ⟨.ring c .filling, 0, none⟩ else s.slot k

theorem Arrived.told (arr : Arrived s c i n w v) : FrameTold s c i n w [] v where
  cadence := arr.cadence
  lens := arr.lens
  others := arr.others
  log := by rw [List.append_nil]; exact arr.log
  touches := arr.touches.mono (by decide)

/-- What follows the notices leaves the monitors' records alone. -/
theorem FrameTold.trans {rs qs : List Report} {u : State} (told : FrameTold s c i n w rs v)
    (others : OthersKept c v u) (log : Logged qs v u) (touches : Touches [.mem, .ring, .pool, .rings, .holds] v u) :
    FrameTold s c i n w (rs ++ qs) u where
  cadence := by rw [show u.cadence = v.cadence from touches.same .cadence]; exact told.cadence
  lens := by rw [show u.lens = v.lens from touches.same .lens]; exact told.lens
  others := told.others.trans others
  log := by rw [← List.append_assoc]; exact told.log.trans log
  touches := (told.touches.trans touches).mono (by decide)

/-- The next target, on the records that the notices leave. -/
theorem Arrived.nextTarget (arr : Arrived s c i n w v) (laws : s.poolLaws) (filling : s.rings[c].filling = some i) :
    targetChoice (fun k => (v.slot k).pins) v.rings[c].idled = s.nextTarget c i := by
  unfold State.nextTarget
  congr 1
  · funext k
    by_cases hk : k = i
    · subst hk
      rw [arr.slot, State.poolLaws.filling_pins laws filling]
    · rw [arr.slots k hk]
  · rw [arr.ring]
    rfl

theorem State.nextTarget_ne (laws : s.poolLaws) (filling : s.rings[c].filling = some i) :
    (s.nextTarget c i).map Prod.fst ≠ some i := fun h => by
  obtain ⟨⟨k, g⟩, chosen, rfl⟩ := Option.map_eq_some_iff.mp h
  rcases targetChoice_member chosen with h | ⟨h, -⟩
  · exact State.poolLaws.filling_not_empty laws filling h
  · rw [List.dropLast_concat] at h
    exact State.poolLaws.filling_not_ready laws filling h

/-- A member of the ring that the choice may take is a slot without a pin. -/
theorem Arrived.choosable (arr : Arrived s c i n w v) (laws : s.poolLaws) (filling : s.rings[c].filling = some i)
    {k : Nat} {g : RingRec} (h : targetChoice (fun i => (v.slot i).pins) v.rings[c] = some (k, g)) :
    k < v.pool.slots.length ∧ (v.slot k).pins = 0 := by
  rw [arr.length]
  rcases targetChoice_member h with h | ⟨h, pins⟩
  · rw [arr.ring] at h
    rw [arr.slots k fun e => State.poolLaws.filling_not_empty laws filling (e ▸ h)]
    exact ⟨(State.poolLaws.empty laws h).1, State.poolLaws.empty_pins laws h⟩
  · rw [arr.ring, List.dropLast_concat] at h
    exact ⟨(State.poolLaws.ready laws h).1, pins⟩

/-- Where the frame stays in the ring, after what changes at most the holds (`u`). -/
theorem Arrived.frame_stays (arr : Arrived s c i n w v) (laws : s.poolLaws) (filling : s.rings[c].filling = some i)
    {u : State} {qs : List Report} (log : Logged qs v u) (touches : Touches [.mem, .ring, .holds] v u) :
    FrameStays s c i ((u.chooseTarget c).landingIdle c)
      ∧ FrameTold s c i n w (qs ++ if s.nextTarget c i = none then [.starved c true] else [])
          ((u.chooseTarget c).landingIdle c) ∧ Touches [.mem, .ring, .pool,
            .rings] u ((u.chooseTarget c).landingIdle c) := by
  have rings : u.rings = v.rings := touches.same .rings
  have slot : u.slot = v.slot := funext touches.slot
  have targets := State.chooseTarget_targeted (v := u) (c := c) (by
    rw [rings, slot, show u.pool = v.pool from touches.same .pool]
    exact fun k g h => arr.choosable laws filling h)
  rw [slot, rings, arr.nextTarget laws filling] at targets
  obtain ⟨ring, slots, others, chosen, moved⟩ := targets
  have notFrame := State.nextTarget_ne laws filling
  refine ⟨⟨ring.trans ?_, ?_, fun k hk => ?_⟩, ?_, moved.mono (by decide)⟩
  · rw [rings, arr.ring]
    rfl
  · rw [slots, if_neg notFrame, slot]
    exact arr.slot
  · rw [slots, slot, arr.slots k hk]
  · exact arr.told.trans
      ((Touches.others c touches (by decide) (by decide) (by decide)).trans others) (log.trans chosen)
      ((touches.trans moved).mono (by decide))

theorem Arrived.free_iff (arr : Arrived s c i n w v) (laws : s.poolLaws) (filling : s.rings[c].filling = some i)
    (k : Nat) : (v.slot k).disp = .free ↔ (s.slot k).disp = .free := by
  by_cases hk : k = i
  · subst hk
    rw [arr.slot, (State.poolLaws.filling laws filling).2]
    simp
  · rw [arr.slots k hk]

theorem Arrived.lowestFree (arr : Arrived s c i n w v) (laws : s.poolLaws) (filling : s.rings[c].filling = some i)
    {j : Nat} (hj : j < s.pool.slots.length) (free : (s.slot j).disp = .free)
    (lowest : ∀ k, k < j → (s.slot k).disp ≠ .free) : v.lowestFree = some j :=
  State.lowestFree_eq_some_iff.mpr ⟨arr.length ▸ hj, (arr.free_iff laws filling j).mpr free,
    fun k hk h => lowest k hk ((arr.free_iff laws filling k).mp h)⟩

/-- The last word of a whole frame. -/
theorem State.frameBeat_accepts (last : n + 1 = s.cameras[c].frameWords) (full : w.enables = 0xFF)
    (filling : s.rings[c].filling = some i) (clear : s.rings[c].tornMark = false)
    (count : s.rings[c].writes + 1 = s.cameras[c].frameWords) :
    s.frameBeat c n w = ((((s.wordStored c i n w).arrived c i).offerFrame c i).chooseTarget c).landingIdle c := by
  obtain ⟨ring, -⟩ := s.wordStored_records c i n w
  have cameras : (s.wordStored c i n w).cameras = s.cameras := (s.wordStored_touches c i n w).same .cameras
  rw [State.frameBeat_full full filling, ← State.accept_eq]
  show (s.wordStored c i n w).afterBeat c n = _
  generalize s.wordStored c i n w = u at *
  unfold State.afterBeat State.frameEnd
  rw [if_pos (by rw [cameras]; exact last), ring]
  dsimp only
  rw [filling]
  dsimp only
  refine if_pos ⟨?_, clear⟩
  rw [cameras]
  show min (s.rings[c].writes + 1) (s.cameras[c].frameWords + 1) = s.cameras[c].frameWords
  omega

/-- The frame has joined a hold as its newest entry, and slot `j` the ring (R22); the next target is then the
front EMPTY member. -/
structure FrameLifted (s : State) (c : Camera) (i j : Nat) (h : HoldId) (t : State) : Prop where
  ring : t.rings[c] = { s.rings[c].frameAccepted with
    filling := some (s.rings[c].empty.headD j), empty := (s.rings[c].empty ++ [j]).tail }
  lifted : t.slot i = ⟨.held h, 0, some ⟨s.rings[c].frameCount + 1, s.time⟩⟩
  target : t.slot (s.rings[c].empty.headD j) = ⟨.ring c .filling, 0, none⟩
  joined : j ≠ s.rings[c].empty.headD j → t.slot j = ⟨.ring c .empty, 0, none⟩
  slots : ∀ k, k ≠ i → k ≠ j → k ≠ s.rings[c].empty.headD j → t.slot k = s.slot k

theorem cons_of_append_singleton (l : List Nat) (j : Nat) : l ++ [j] = l.headD j :: (l ++ [j]).tail := by
  cases l <;> rfl

theorem headD_eq_or_mem (l : List Nat) (j : Nat) : l.headD j = j ∨ l.headD j ∈ l := by
  cases l with
  | nil => exact .inl rfl
  | cons a l => exact .inr (List.mem_cons_self ..)

/-- Where a hold takes the frame and slot `j` joins the ring (`u`). -/
theorem Arrived.frame_lifted (arr : Arrived s c i n w v) (laws : s.poolLaws) (filling : s.rings[c].filling = some i)
    {j : Nat} {h : HoldId} {u : State} {qs : List Report} (hj : j < s.pool.slots.length) (free : (s.slot j).disp
      = .free)
    (lifted : u.slot i = { v.slot i with disp := .held h }) (joined : u.slot j = ⟨.ring c .empty, 0, none⟩)
    (kept : ∀ k, k ≠ i → k ≠ j → u.slot k = v.slot k) (length : u.pool.slots.length = v.pool.slots.length)
    (ring : u.rings[c] = { v.rings[c] with
      ready := v.rings[c].ready.erase i, empty := v.rings[c].empty ++ [j] })
    (others : OthersKept c v u) (log : Logged qs v u) (touches : Touches [.pool, .rings, .holds, .mem, .ring] v u) :
    FrameLifted s c i j h ((u.chooseTarget c).landingIdle c)
      ∧ FrameTold s c i n w qs ((u.chooseTarget c).landingIdle c)
      ∧ Touches [.mem, .ring, .pool, .rings] u ((u.chooseTarget c).landingIdle c) := by
  have hij : j ≠ i := fun e => by
    rw [e, (State.poolLaws.filling laws filling).2] at free
    cases free
  have notEmpty := State.poolLaws.filling_not_empty laws filling
  have ready : (s.rings[c].ready ++ [i]).erase i = s.rings[c].ready := by
    rw [List.erase_append_right _ (State.poolLaws.filling_not_ready laws filling)]
    simp
  rw [arr.ring] at ring
  dsimp only at ring
  rw [ready] at ring
  have empty : u.rings[c].empty = s.rings[c].empty.headD j :: (s.rings[c].empty ++ [j]).tail := by
    rw [ring]
    exact cons_of_append_singleton _ _
  have next := headD_eq_or_mem s.rings[c].empty j
  have notFrame : s.rings[c].empty.headD j ≠ i := fun e => by
    rcases next with h | h
    · exact hij (h.symm.trans e)
    · exact notEmpty (e ▸ h)
  have targets := State.chooseTarget_targeted (v := u) (c := c) fun k g hk => by
    rw [targetChoice_of_empty empty] at hk
    cases hk
    rw [length, arr.length]
    by_cases hk : s.rings[c].empty.headD j = j
    · rw [hk, joined]
      exact ⟨hj, rfl⟩
    · have member := next.resolve_left hk
      rw [kept _ notFrame hk, arr.slots _ notFrame]
      exact ⟨(State.poolLaws.empty laws member).1, State.poolLaws.empty_pins laws member⟩
  rw [targetChoice_of_empty (g := u.rings[c].idled) empty] at targets
  obtain ⟨ring', slots, others', chosen, moved⟩ := targets
  simp only [Option.map_some, Option.some.injEq] at slots
  have told := arr.told.trans (others.trans others') (log.trans chosen)
    ((touches.trans moved).mono (by decide))
  simp only [reduceCtorEq, if_false, List.append_nil, List.nil_append] at told
  refine ⟨⟨ring'.trans ?_, ?_, ?_, fun hne => ?_, fun k ki kj kn => ?_⟩, told, moved.mono (by decide)⟩
  · rw [ring]
    rfl
  · rw [slots, if_neg notFrame, lifted, arr.slot]
  · rw [slots, if_pos rfl]
  · rw [slots, if_neg hne.symm, joined]
  · rw [slots, if_neg kn.symm, kept k ki kj, arr.slots k ki]

end whole

end Sys2Proof.Machine
end

section
/-! The acceptance of a whole frame: the statement of O43. -/

namespace Sys2Proof.Machine

set_option Elab.async false

section told

variable {s t : State} {c : Camera} {i n : Nat} {w : WriteData} {rs : List Report}

/-- The completion of the beat's write leaves what the acceptance left. -/
theorem FrameTold.completed (told : FrameTold s c i n w rs t) (r : Requester) :
    Completed s (t.completeWrite r) r ∧ (t.completeWrite r).cadence[c] = (s.frameCadence c w).1
      ∧ (t.completeWrite r).lens[c] = (s.frameLens c n w).1
      ∧ ∀ c' : Camera, c' ≠ c → (t.completeWrite r).rings[c'] = s.rings[c']
          ∧ (t.completeWrite r).cadence[c'] = s.cadence[c'] ∧ (t.completeWrite r).lens[c'] = s.lens[c'] :=
  ⟨completed_of_port r (told.touches.same .port), told.cadence, told.lens, told.others⟩

theorem FrameTold.reported (told : FrameTold s c i n w rs t) :
    Reported s (s.mem.writeWord (s.pool.slotAddr i + 8 * n) w)
      ((s.frameCadence c w).2 ++ (s.frameLens c n w).2 ++ rs) t := told.log.reported

theorem FrameTold.touched (told : FrameTold s c i n w rs t) (r : Requester) :
    Touches [.mem, .ring, .pool, .rings, .lens, .cadence, .holds, .port] s (t.completeWrite r) :=
  told.touches.completeWrite r (by decide)

end told

section offer

variable (s : State) (c : Camera) (i : Nat)

/-- What an offer leaves: the number of slots, and the records of every other camera. -/
theorem State.offerFrame_kept :
    (s.offerFrame c i).pool.slots.length = s.pool.slots.length ∧ OthersKept c s (s.offerFrame c i) := by
  cases hx : s.collectingHold c with
  | none =>
    rw [State.offerFrame_none hx]
    exact ⟨rfl, .refl s c⟩
  | some found =>
    obtain ⟨h, x⟩ := found
    cases free : s.lowestFree with
    | none =>
      have effect := (s.completeHold_effect h x .noSlot true).touches
      rw [State.offerFrame_short hx free]
      exact ⟨congrArg (fun p : SlotPool => p.slots.length) (effect.same .pool),
        effect.others c (by decide) (by decide) (by decide)⟩
    | some j =>
      have moved : OthersKept c s (s.transferred c h i j) := fun c' hc =>
        ⟨State.transferred_ring_of_ne hc, rfl, rfl⟩
      have kept : ∀ u, Effect [.holds] (s.transferred c h i j) u →
          u.pool.slots.length = s.pool.slots.length ∧ OthersKept c s u := fun u effect =>
        ⟨(congrArg (fun p : SlotPool => p.slots.length) (effect.same .pool)).trans State.transferred_length,
          moved.trans (effect.touches.others c (by decide) (by decide) (by decide))⟩
      rw [State.offerFrame_joins hx free]
      split
      · exact kept _ (State.completeHold_effect _ h _ _ _)
      · exact kept _ (State.setHold_effect _ h _)

end offer

/-- Settles O43: the frame is accepted with both notices (`Arrived`), then offered to the oldest collecting hold. -/
theorem wholeFrameIsAccepted : Obligations.WholeFrameIsAccepted := by
  intro r c word w s i running wf role on laws last later full phase filling clear count
  have run := exec_landing (r := r) (w := w) running role on
    (show word.toNat < s.cameras[c].w * s.cameras[c].h / 4 by omega)
  rw [State.landingPhase_inFrame phase (.inl fun e => later (BitVec.eq_of_toNat_eq e)),
    State.frameBeat_accepts last full filling clear count] at run
  have arr := State.arrived_of_wordStored (c := c) word.toNat w (State.poolLaws.filling laws filling).1
  generalize (s.wordStored c i word.toNat w).arrived c i = v at *
  have holds : v.holds = s.holds := arr.touches.same .holds
  have collectingHold : v.collectingHold c = s.collectingHold c := by
    unfold State.collectingHold
    rw [holds]
  intro stamp ended g choice cad lens told stored stays starved collects
  refine ⟨fun alone => ?_, fun older h newer x order first collecting => ⟨fun noFree => ?_, fun j hj free lowest => ?_⟩⟩
  · have none : v.collectingHold c = none := by
      rw [collectingHold]
      refine Option.eq_none_iff_forall_ne_some.mpr fun ⟨h, x⟩ found => ?_
      obtain ⟨older, newer, order, hx, state, camera, -⟩ := State.collectingHold_eq_some_iff.mp found
      exact alone h (order ▸ List.mem_append_right _ (List.mem_cons_self ..)) x ⟨hx, state, camera⟩
    rw [State.offerFrame_none none] at run
    obtain ⟨stay, tell, moved⟩ := arr.frame_stays laws filling (Logged.refl v) (Touches.refl _ v)
    generalize (v.chooseTarget c).landingIdle c = t at *
    obtain ⟨ring, accepted, slots⟩ := stay
    exact ⟨_, run, tell.completed r, ⟨ring, accepted, slots⟩,
      (arr.touches.trans moved).completeWrite r (by decide), tell.reported⟩
  all_goals
    have found : v.collectingHold c = some (h, x) := by
      obtain ⟨hx, state, camera⟩ := collecting
      rw [collectingHold]
      exact State.collectingHold_eq_some_iff.mpr ⟨older, newer, order, hx, state, camera,
        fun h' hh x' hx' ⟨state', camera'⟩ => first h' hh x' ⟨hx', state', camera'⟩⟩
  · intro y
    rw [State.offerFrame_short found (State.lowestFree_eq_none_iff.mpr fun k hk h =>
      noFree k (arr.length ▸ hk) ((arr.free_iff laws filling k).mp h))] at run
    obtain ⟨stay, tell, moved⟩ := arr.frame_stays laws filling (v.completeHold_logged h x .noSlot true)
      ((v.completeHold_effect h x .noSlot true).touches.mono (by decide))
    have table : (v.completeHold h x .noSlot true).holds = { v.holds with table := upd v.holds.table h (some y) } := rfl
    rw [holds] at table
    generalize v.completeHold h x .noSlot true = u at *
    have after : ((u.chooseTarget c).landingIdle c).holds = _ := (moved.same .holds).trans table
    generalize (u.chooseTarget c).landingIdle c = t at *
    obtain ⟨ring, accepted, slots⟩ := stay
    exact ⟨_, run, tell.completed r, ⟨ring, accepted, slots⟩, after, tell.touched r, tell.reported⟩
  · intro x' done y next
    have hij : j ≠ i := fun e => by
      rw [e, (State.poolLaws.filling laws filling).2] at free
      cases free
    obtain ⟨table, lifted, joined, kept, ring, told', touches⟩ :=
      ((acceptedFrameJoinsTheOldestHold v c i).2.2 h x found).2 j stamp (arr.lowestFree laws filling hj free lowest)
        (by rw [arr.slot]) hij (arr.length ▸ (State.poolLaws.filling laws filling).1) (arr.length ▸ hj)
    obtain ⟨length, others⟩ := State.offerFrame_kept v c i
    rw [holds] at table
    generalize v.offerFrame c i = u at *
    obtain ⟨stay, tell, moved⟩ := arr.frame_lifted laws filling hj free lifted joined kept length ring others
      ⟨told'.1, told'.2, touches.same .time⟩ touches
    have after : ((u.chooseTarget c).landingIdle c).holds = _ := (moved.same .holds).trans table
    generalize (u.chooseTarget c).landingIdle c = t at *
    exact ⟨_, run, tell.completed r, stay.ring, stay.lifted, stay.target, stay.joined, stay.slots, after,
      tell.touched r, tell.reported⟩

end Sys2Proof.Machine
end

section
/-! Which bytes and bits of a staged record give which field (11.6, R199). -/

namespace Sys2Proof.Machine

set_option Elab.async false

section bytes

variable {f : RecordBytes}

/-- A little-endian field holds its bytes. -/
theorem field_div_mod (small : ∀ i, f i < 256) {n : Nat} : ∀ (i : Nat) {k : Nat}, k < n →
    field f i n / 256 ^ k % 256 = f (i + k) := by
  induction n with
  | zero => intro i k hk; omega
  | succ n ih =>
    intro i k hk
    have low := small i
    cases k with
    | zero =>
      show (f i + 256 * field f (i + 1) n) / 1 % 256 = f i
      omega
    | succ k =>
      have rest := ih (i + 1) (k := k) (by omega)
      rw [Nat.pow_succ', ← Nat.div_div_eq_div_mul]
      show (f i + 256 * field f (i + 1) n) / 256 / 256 ^ k % 256 = _
      rw [show (f i + 256 * field f (i + 1) n) / 256 = field f (i + 1) n by omega, rest]
      congr 1
      omega

theorem field_lt (small : ∀ i, f i < 256) (n : Nat) : ∀ i, field f i n < 256 ^ n := by
  induction n with
  | zero => intro i; exact Nat.one_pos
  | succ n ih =>
    intro i
    have low := small i
    have rest := ih (i + 1)
    rw [Nat.pow_succ']
    show f i + 256 * field f (i + 1) n < _
    omega

theorem mod256_div_two {y j : Nat} (h : j < 8) : y / 2 ^ j % 2 = y % 256 / 2 ^ j % 2 := by
  interval_cases j <;> omega

theorem mod256_div_four {y j : Nat} (h : j < 4) : y / 4 ^ j % 4 = y % 256 / 4 ^ j % 4 := by
  interval_cases j <;> omega

/-- A bit of a little-endian field. -/
theorem field_testBit (small : ∀ i, f i < 256) {i n z : Nat} (h : z < 8 * n) :
    (field f i n).testBit z = true ↔ f (i + z / 8) / 2 ^ (z % 8) % 2 = 1 := by
  rw [Nat.testBit_eq_decide_div_mod_eq, decide_eq_true_iff,
    ← field_div_mod small i (show z / 8 < n by omega), ← mod256_div_two (Nat.mod_lt _ (by decide)),
    Nat.div_div_eq_div_mul, show (256 : Nat) = 2 ^ 8 from rfl, ← Nat.pow_mul, ← Nat.pow_add, Nat.div_add_mod]

/-- A pair of bits of a little-endian field. -/
theorem field_pair (small : ∀ i, f i < 256) {i n k : Nat} (h : k < 4 * n) :
    field f i n / 4 ^ k % 4 = f (i + k / 4) / 4 ^ (k % 4) % 4 := by
  rw [← field_div_mod small i (show k / 4 < n by omega), ← mod256_div_four (Nat.mod_lt _ (by decide)),
    Nat.div_div_eq_div_mul, show (256 : Nat) = 4 ^ 4 from rfl, ← Nat.pow_mul, ← Nat.pow_add, Nat.div_add_mod]

theorem fieldBit_iff {i j : Nat} : fieldBit f i j = true ↔ f i / 2 ^ j % 2 = 1 := decide_eq_true_iff

theorem fieldMask_iff {i : Nat} (k : Screen) : (fieldMask f i).getLsbD k.val = true ↔ f i / 2 ^ k.val % 2 = 1 := by
  unfold fieldMask
  rw [BitVec.getLsbD_ofNat, decide_eq_true k.isLt, Bool.true_and, Nat.testBit_eq_decide_div_mod_eq, decide_eq_true_iff]

theorem roleOfCode_eq {n : Nat} (h : n < 4) : roleOfCode n = ([.general, .capture, .display,
  .control][n]?).getD .general := by
  interval_cases n <;> rfl

/-- A tag's role in a role map that a record gives. -/
theorem roleIn_field (small : ∀ i, f i < 256) (i : Nat) (t : Tag) :
    roleIn (BitVec.ofNat 32 (field f i 4)) t
      = ([.general, .capture, .display, .control][f (i + t.toNat / 4) / 4 ^ (t.toNat % 4) % 4]?).getD .general := by
  have ht : t.toNat < 16 := t.isLt
  have code : ((BitVec.ofNat 32 (field f i 4)).extractLsb' (2 * t.toNat) 2).toNat = field f i 4 / 4 ^ t.toNat % 4 := by
    rw [BitVec.extractLsb'_toNat, BitVec.toNat_ofNat, show (2 : Nat) ^ 32 = 256 ^ 4 from rfl,
      Nat.mod_eq_of_lt (field_lt small 4 i), Nat.shiftRight_eq_div_pow,
      Nat.pow_mul]
  unfold roleIn
  rw [code, field_pair small (show t.toNat < 4 * 4 by omega), roleOfCode_eq (Nat.mod_lt _ (by decide))]

theorem field_two (i : Nat) : field f i 2 = f i + 256 * f (i + 1) := by
  simp [field]

theorem field_four (i : Nat) :
    field f i 4 = f i + 256 * f (i + 1) + 65536 * (f (i + 2) + 256 * f (i + 3)) := by
  show f i + 256 * (f (i + 1) + 256 * (f (i + 2) + 256 * (f (i + 3) + 256 * 0))) = _
  omega

end bytes

theorem recordBytes_lt (b : Vector Word 256) (r i : Nat) : recordBytes b r i < 256 := BitVec.isLt _

theorem recordBytes_eq (b : Vector Word 256) (r : Fin 32) {n : Nat} (h : n < 64) :
    recordBytes b r.val n = (byteOf (b.get (Fin.ofNat 256 (8 * r.val + n / 8))) (n % 8)).toNat := by
  have inside : 8 * r.val + n / 8 < 256 := by omega
  have index : (⟨8 * r.val + n / 8, inside⟩ : Fin 256) = Fin.ofNat 256 (8 * r.val + n / 8) :=
    Fin.ext (Nat.mod_eq_of_lt inside).symm
  unfold recordBytes bufferWord
  rw [dif_pos inside, index]

end Sys2Proof.Machine
end

section
/-! A COMMIT of a whole valid staging buffer, and that nothing else changes a table (O30). -/

namespace Sys2Proof.Machine

set_option Elab.async false

/-! ### What applying a load leaves in the tables -/

/-- The loaded records of a table of `n` records, stored in ascending index. -/
theorem records_foldl_getElem {β : Type} {n : Nat} [NeZero n] (val : RecordBytes → β) (e : Engine) {k : Nat}
    (bound : e.load.first + k ≤ n) (v : Vector β n) (i : Fin n) :
    (((List.range k).map fun r => (e.load.first + r, recordBytes e.buffer r)).foldl
      (fun v x => upd v (Fin.ofNat n x.1) (val x.2)) v)[i]
      = if e.load.first ≤ i.val ∧ i.val < e.load.first + k then val (e.stagedBytes i.val) else v[i] := by
  induction k with
  | zero => exact (if_neg (by omega)).symm
  | succ k ih =>
    have at_k : (Fin.ofNat n (e.load.first + k)).val = e.load.first + k := Nat.mod_eq_of_lt (by omega)
    rw [List.range_succ, List.map_append, List.foldl_append]
    rcases upd_getElem_cases (((List.range k).map fun r => (e.load.first + r, recordBytes e.buffer r)).foldl
      (fun v x => upd v (Fin.ofNat n x.1) (val x.2)) v) (Fin.ofNat n (e.load.first + k)) i
      (val (recordBytes e.buffer k)) with ⟨stored, here⟩ | ⟨kept, elsewhere⟩
    · have hi : i.val = e.load.first + k := (congrArg Fin.val here).trans at_k
      refine Eq.trans stored ?_
      rw [if_pos (by omega), Engine.stagedBytes, hi, Nat.add_sub_cancel_left]
    · have hi : i.val ≠ e.load.first + k := fun h => elsewhere (Fin.ext (h.trans at_k.symm))
      refine Eq.trans kept ((ih (by omega)).trans ?_)
      by_cases staged : e.load.first ≤ i.val ∧ i.val < e.load.first + k
      · rw [if_pos staged, if_pos (by omega)]
      · rw [if_neg staged, if_neg (by omega)]

/-- Where applying one record stores it in its table, applying the load stores each. -/
theorem records_foldl_table {β : Type} {n : Nat} [NeZero n] (get : State → Vector β n) (val : RecordBytes → β)
    (f : State → Nat × RecordBytes → State) (stores : ∀ u x, get (f u x) = upd (get u) (Fin.ofNat n x.1) (val x.2))
    (s : State) (e : Engine) (bound : e.load.first + e.load.count ≤ n) (i : Fin n) :
    (get (e.records.foldl f s))[i]
      = if e.load.first ≤ i.val ∧ i.val < e.load.first + e.load.count then val (e.stagedBytes i.val) else
        (get s)[i] := by
  rw [← List.foldl_hom get (g₂ := fun v x => upd v (Fin.ofNat n x.1) (val x.2)) fun u x => (stores u x).symm]
  exact records_foldl_getElem val e bound (get s) i

/-- Each staged record stands in its table, and every other record of every table stands. -/
structure RecordsStored (e : Engine) (s t : State) : Prop where
  setup : t.setup = if e.load.table = .setup then setupOf (e.stagedBytes 0) else s.setup
  cameras : ∀ c : Camera, (e.stages .cameras c.val → t.cameras[c] = cameraOf (e.stagedBytes c.val))
    ∧ (¬e.stages .cameras c.val → t.cameras[c] = s.cameras[c])
  screens : ∀ i : Screen, (e.stages .screens i.val → t.screens[i] = screenOf (e.stagedBytes i.val))
    ∧ (¬e.stages .screens i.val → t.screens[i] = s.screens[i])
  layouts : ∀ l : Fin 32, (e.stages .layouts l.val → t.layouts[l] = layoutOf (e.stagedBytes l.val))
    ∧ (¬e.stages .layouts l.val → t.layouts[l] = s.layouts[l])
  panes : ∀ p : Fin 224, (e.stages .panes p.val → t.panes[p] = paneOf (e.stagedBytes p.val))
    ∧ (¬e.stages .panes p.val → t.panes[p] = s.panes[p])
  doors : ∀ d : Door, (e.stages .doors d.val → t.doors[d] = doorOf (e.stagedBytes d.val))
    ∧ (¬e.stages .doors d.val → t.doors[d] = s.doors[d])

/-- The piece of a table. -/
def TableId.piece : TableId → Piece
  | .setup => .setup
  | .cameras => .cameras
  | .screens => .screens
  | .layouts => .layouts
  | .panes => .panes
  | .doors => .doors

/-- A load changes no other table. -/
theorem TableId.piece_notMem {T U : TableId} : T ≠ U → U.piece ∉ T.pieces := by cases T <;> cases U <;> decide

theorem State.applyScreen_screens (s : State) (i : Screen) (r : ScreenRec) :
    (s.applyScreen i r).screens = upd s.screens i r := by
  unfold State.applyScreen
  dsimp only
  split
  · exact (State.releaseContext_effect (s.setScreen i r) i).same .screens
  · rfl

/-- A record that is staged or not, where the table's records are known. -/
theorem stages_iff {e : Engine} {T : TableId} (table : e.load.table = T) {i : Nat} {α : Type} {x a b : α}
    (h : x = if e.load.first ≤ i ∧ i < e.load.first + e.load.count then a else b) :
    (e.stages T i → x = a) ∧ (¬e.stages T i → x = b) :=
  ⟨fun ⟨_, staged⟩ => h.trans (if_pos staged), fun not => h.trans (if_neg fun staged => not ⟨table, staged⟩)⟩

theorem not_stages {e : Engine} {T : TableId} (table : e.load.table ≠ T) {i : Nat} {α : Type} {x a b : α} (h : x = b) :
    (e.stages T i → x = a) ∧ (¬e.stages T i → x = b) := ⟨fun ⟨here, _⟩ => absurd here table, fun _ => h⟩

section applyLoad

variable {s : State}

theorem State.applyLoad_of_cameras (h : s.engine.load.table = .cameras) :
    s.applyLoad = s.engine.records.foldl (fun u x => u.applyCamera (Fin.ofNat 16 x.1) (cameraOf x.2)) s := by
  unfold State.applyLoad Engine.cameraRecords
  dsimp only
  rw [h]
  exact List.foldl_map ..

theorem State.applyLoad_of_screens (h : s.engine.load.table = .screens) :
    s.applyLoad = s.engine.records.foldl (fun u x => u.applyScreen (Fin.ofNat 4 x.1) (screenOf x.2)) s := by
  unfold State.applyLoad
  dsimp only
  rw [h]

theorem State.applyLoad_of_doors (h : s.engine.load.table = .doors) :
    s.applyLoad = s.engine.records.foldl (fun u x => u.applyDoor (Fin.ofNat 12 x.1) (doorOf x.2)) s := by
  unfold State.applyLoad
  dsimp only
  rw [h]

theorem State.applyLoad_of_layouts (h : s.engine.load.table = .layouts) :
    s.applyLoad = { s with layouts := stagedLayouts s.layouts s.engine.records } := by
  unfold State.applyLoad
  dsimp only
  rw [h]

theorem State.applyLoad_of_panes (h : s.engine.load.table = .panes) :
    s.applyLoad = { s with panes := stagedPanes s.panes s.engine.records } := by
  unfold State.applyLoad
  dsimp only
  rw [h]

/-- A load of SETUP is one record. -/
theorem State.applyLoad_of_one (h : s.engine.load.table = .setup) (one : 1 ≤ s.engine.load.count)
    (bound : s.engine.load.first + s.engine.load.count ≤ 1) :
    s.applyLoad = s.applySetup (setupOf (s.engine.stagedBytes 0)) := by
  rw [State.applyLoad_of_setup h, Engine.records, Engine.stagedBytes, show s.engine.load.count = 1 by omega,
    Nat.zero_sub]
  rfl

/-- Applying the load stores each staged record and changes no other record of any table (R166). -/
theorem State.applyLoad_stored (one : 1 ≤ s.engine.load.count)
    (bound : s.engine.load.first + s.engine.load.count ≤ s.engine.load.table.records) :
    RecordsStored s.engine s s.applyLoad := by
  have other : ∀ U : TableId, s.engine.load.table ≠ U → U.piece.same s s.applyLoad := fun U h =>
    s.applyLoad_touches _ (TableId.piece_notMem h)
  refine ⟨?_, fun c => ?_, fun i => ?_, fun l => ?_, fun p => ?_, fun d => ?_⟩
  · by_cases h : s.engine.load.table = .setup
    · rw [if_pos h, State.applyLoad_of_one h one (by rw [h] at bound; exact bound), State.applySetup_setup]
    · rw [if_neg h]
      exact other .setup h
  · by_cases h : s.engine.load.table = .cameras
    · refine stages_iff h (Eq.trans (by rw [State.applyLoad_of_cameras h])
        (records_foldl_table State.cameras cameraOf _ (fun u x => u.applyCamera_cameras _ _) s s.engine ?_ c))
      rw [h] at bound
      exact bound
    · exact not_stages h (congrArg (fun v : Vector CameraRec 16 => v[c]) (other .cameras h))
  · by_cases h : s.engine.load.table = .screens
    · refine stages_iff h (Eq.trans (by rw [State.applyLoad_of_screens h])
        (records_foldl_table State.screens screenOf _ (fun u x => u.applyScreen_screens _ _) s s.engine ?_ i))
      rw [h] at bound
      exact bound
    · exact not_stages h (congrArg (fun v : Vector ScreenRec 4 => v[i]) (other .screens h))
  · by_cases h : s.engine.load.table = .layouts
    · refine stages_iff h (Eq.trans (congrArg (fun u : State => u.layouts[l]) (State.applyLoad_of_layouts h))
        (records_foldl_getElem layoutOf s.engine ?_ s.layouts l))
      rw [h] at bound
      exact bound
    · exact not_stages h (congrArg (fun v : Vector LayoutRec 32 => v[l]) (other .layouts h))
  · by_cases h : s.engine.load.table = .panes
    · refine stages_iff h (Eq.trans (congrArg (fun u : State => u.panes[p]) (State.applyLoad_of_panes h))
        (records_foldl_getElem paneOf s.engine ?_ s.panes p))
      rw [h] at bound
      exact bound
    · exact not_stages h (congrArg (fun v : Vector PaneRec 224 => v[p]) (other .panes h))
  · by_cases h : s.engine.load.table = .doors
    · refine stages_iff h (Eq.trans (by rw [State.applyLoad_of_doors h])
        (records_foldl_table State.doors doorOf _ (fun u x => u.applyDoor_doors _ _) s s.engine ?_ d))
      rw [h] at bound
      exact bound
    · exact not_stages h (congrArg (fun v : Vector DoorRec 12 => v[d]) (other .doors h))

end applyLoad

/-! ### A COMMIT in STAGING -/

@[simp] theorem State.validate_taken (s : State) (d : Word) (tag : Byte) : (s.taken d tag).validate = s.validate := by
  have slots : (s.pageWrite 8 ⟨0xFF, d⟩).slotCheck = s.slotCheck := by
    funext free l
    exact State.slotCheck_congr (s := s) (t := s.pageWrite 8 ⟨0xFF, d⟩) rfl rfl rfl l free
  rw [State.taken, State.validate_takeTag]
  unfold State.validate State.validateCameras
  rw [slots]
  rfl

section commit

variable {s : State} {r : Requester} {tag : Byte} {spare : BitVec 48}

theorem exec_commit (running : s.isRunning) (role : s.roleOf r.tag = .control) :
    exec (.commit r tag spare) s
      = .next (((s.pageWrite 8 ⟨0xFF, commandWord 0x02 tag spare⟩).offer .commit tag).completeWrite r) := by
  show commandWrite r _ .commit tag s = _
  rw [commandWrite, whileRunning_of_running running, State.asControl_of_control role]
  rfl

theorem exec_commit_staging (running : s.isRunning) (role : s.roleOf r.tag = .control)
    (staging : s.engine.state = .staging) :
    exec (.commit r tag spare) s
      = .next ((s.taken (commandWord 0x02 tag spare) tag).stagingCommit.completeWrite r) := by
  rw [exec_commit running role, State.offer_commit (s := s.pageWrite 8 _) tag staging]
  rfl

theorem State.stagingCommit_short (h : s.engine.staged < s.engine.load.count * 8) :
    s.stagingCommit = s.abortLoad 0x02 .short := if_pos h

theorem State.stagingCommit_complete (h : s.engine.load.count * 8 ≤ s.engine.staged) :
    s.stagingCommit = s.commitLoad := if_neg (Nat.not_lt.mpr h)

/-- The tables agree. -/
def TablesKept (s t : State) : Prop :=
  t.setup = s.setup ∧ t.cameras = s.cameras ∧ t.screens = s.screens ∧ t.layouts = s.layouts ∧ t.panes = s.panes
    ∧ t.doors = s.doors

theorem Touches.tables {ps : List Piece} {s t : State} (h : Touches ps s t)
    (off : ∀ p ∈ [Piece.setup, .cameras, .screens, .layouts, .panes, .doors], p ∉ ps) : TablesKept s t :=
  ⟨h .setup (off _ (by decide)), h .cameras (off _ (by decide)), h .screens (off _ (by decide)),
    h .layouts (off _ (by decide)), h .panes (off _ (by decide)), h .doors (off _ (by decide))⟩

/-- A COMMIT that changes a table is carried out by a CONTROL tag on a whole valid staging buffer. -/
theorem commit_changes {t : State} (h : exec (.commit r tag spare) s = .next t) (changed : ¬TablesKept s t) :
    s.roleOf r.tag = .control ∧ s.engine.state = .staging ∧ s.engine.load.count * 8 ≤ s.engine.staged
      ∧ s.validate = none ∧ ∃ u, Applied (s.taken (commandWord 0x02 tag spare) tag) u ∧ t = u.completeWrite r := by
  have running : s.isRunning := (exec_same_or_running rfl h).resolve_left fun e =>
    changed (e ▸ (Touches.refl [] s).tables (by decide))
  have role : s.roleOf r.tag = .control := by
    by_contra role
    rw [show exec (.commit r tag spare) s = commandWrite r (commandWord 0x02 tag spare) .commit tag s from rfl,
      commandWrite, whileRunning_of_running running, State.asControl, if_neg role] at h
    cases h
    exact changed (((s.guardDrop_touches _ _ _).completeWrite (qs := [.episodes,
      .port]) r (by decide)).tables (by decide))
  have page := s.taken_touches (commandWord 0x02 tag spare) tag
  rw [exec_commit running role] at h
  cases h
  have offered := State.offer_cases (s.pageWrite 8 ⟨0xFF, commandWord 0x02 tag spare⟩) .commit tag
  have kept : ∀ {u}, Effect offerPieces (s.pageWrite 8 ⟨0xFF, commandWord 0x02 tag spare⟩) u →
      TablesKept s (u.completeWrite r) := fun {u} e =>
    (((s.pageWrite_touches 8 _).trans e.touches).completeWrite (qs := .mem :: .ring :: .port :: offerPieces) r
      (by decide)).tables (by decide)
  generalize ht : (s.pageWrite 8 ⟨0xFF, commandWord 0x02 tag spare⟩).offer .commit tag = u at *
  rcases offered.effect_or_applied with e | ⟨staging, valid, applied⟩
  · exact absurd (kept e) changed
  · by_cases complete : s.engine.load.count * 8 ≤ s.engine.staged
    · exact ⟨role, staging, complete, (s.validate_taken _ tag).symm.trans valid, u, applied, rfl⟩
    · rw [State.offer_commit tag staging, State.stagingCommit_short
        (s := (s.pageWrite 8 _).takeTag tag) (Nat.lt_of_not_le complete)] at ht
      refine absurd (kept (ht ▸ ?_)) changed
      exact ((State.takeTag_effect _ tag).trans (State.abortLoad_effect _ _ _)).mono (by decide)

end commit

end Sys2Proof.Machine
end

section
/-! Tables change by a valid COMMIT alone (O30). -/

namespace Sys2Proof.Machine

set_option Elab.async false

/-- A change of the tables is that of a COMMIT that applies its load, and then of the loaded table. -/
theorem tables_change_by_commit {c : Instr} {s t : State} (own : c.ownRow s) (h : exec c s = .next t)
    (notReset : ∀ straps, c ≠ .powerOnReset straps) (changed : ¬TablesKept s t) :
    (∃ r tag spare, c = .commit r tag spare ∧ s.roleOf r.tag = .control) ∧ s.engine.state = .staging
      ∧ s.engine.load.count * 8 ≤ s.engine.staged ∧ s.validate = none
      ∧ ∀ U, s.engine.load.table ≠ U → U.piece.same s t := by
  have touches := everyRowTouchesOnlyItsPieces c s t own h
  cases c with
  | powerOnReset straps => exact absurd rfl (notReset straps)
  | commit r tag spare =>
    obtain ⟨role, staging, complete, valid, u, applied, rfl⟩ := commit_changes h changed
    refine ⟨⟨r, tag, spare, rfl, role⟩, staging, complete, valid, fun U other => ?_⟩
    have load := (s.taken_touches (commandWord 0x02 tag spare) tag).trans (State.applyLoad_touches _)
    have after := (load.trans applied.effect.touches).trans (u.completeWrite_touches r)
    refine after _ ?_
    have same : (s.taken (commandWord 0x02 tag spare) tag).engine.load.table = s.engine.load.table := rfl
    rw [same]
    generalize s.engine.load.table = T at other
    revert other
    cases T <;> cases U <;> decide
  | _ => exact absurd (touches.tables (by simp only [Instr.pieces]; decide)) changed

theorem Applied.awaits_or_ends {s t : State} (h : Applied s t) : t.engine.state ≠ .staging := by
  cases h with
  | ended => exact fun h => by cases h
  | awaited =>
    unfold State.awaitScreens
    dsimp only
    split
    · exact fun h => by cases h
    · exact fun h => by cases h

theorem Applied.lastTag {s t : State} (h : Applied s t) : t.engine.lastTag = s.engine.lastTag := by
  cases h with
  | ended =>
    show s.applyLoad.engine.lastTag = _
    rw [s.applyLoad_engine]
  | awaited =>
    rw [State.awaitScreens_engine, s.applyLoad_engine]
    split <;> rfl

theorem Applied.stored {s t : State} (h : Applied s t) (one : 1 ≤ s.engine.load.count)
    (bound : s.engine.load.first + s.engine.load.count ≤ s.engine.load.table.records) : RecordsStored s.engine s t := by
  obtain ⟨setup, cameras, screens, layouts, panes, doors⟩ := State.applyLoad_stored one bound
  have kept := h.effect.touches.tables (by decide)
  obtain ⟨hs, hc, hn, hl, hp, hd⟩ := kept
  exact ⟨hs ▸ setup, hc ▸ cameras, hn ▸ screens, hl ▸ layouts, hp ▸ panes, hd ▸ doors⟩

theorem Applied.touches_commit {s t : State} (h : Applied s t) : Touches commitPieces s t :=
  (s.applyLoad_touches.mono (TableId.pieces_subset _)).seq (h.effect.touches.mono (by decide))

/-- Settles O30. -/
theorem tablesChangeOnlyByValidCommit : Obligations.TablesChangeOnlyByValidCommit := by
  refine ⟨fun c s t own h notReset changed => ?_, fun r tag spare s running role inRange staging complete valid => ?_,
    fun b r => ?_⟩
  · obtain ⟨commit, staging, complete, valid, others⟩ := tables_change_by_commit own h notReset changed
    exact ⟨commit, staging, complete, valid, others .setup, others .cameras, others .screens, others .layouts,
      others .panes, others .doors⟩
  · intro bytes
    have run := exec_commit_staging (tag := tag) (spare := spare) running role staging
    rw [State.stagingCommit_complete (s := s.taken _ tag) complete] at run
    have applied := State.commitLoad_of_none ((s.validate_taken (commandWord 0x02 tag spare) tag).trans valid)
    obtain ⟨one, -, bound, -⟩ := inRange.1 staging
    obtain ⟨setup, cameras, screens, layouts, panes, doors⟩ :=
      applied.stored (s := s.taken (commandWord 0x02 tag spare) tag) one bound
    have notStaging := applied.awaits_or_ends
    have lastTag := applied.lastTag
    have port := (State.taken_touches s (commandWord 0x02 tag spare) tag).trans (applied.touches_commit)
    generalize (s.taken (commandWord 0x02 tag spare) tag).commitLoad = u at *
    exact ⟨_, run, completed_of_port r (port.same .port), lastTag, notStaging, fun table => setup.trans (if_pos table),
      fun c => (cameras c).1, fun i => (screens i).1, fun l => (layouts l).1, fun p => (panes p).1,
        fun d => (doors d).1⟩
  · intro f byte two four isSet setup camera screen layout pane door
    have small : ∀ i, f i < 256 := recordBytes_lt b r.val
    have one : ∀ n, n < 64 → f n = byte n := fun n h => recordBytes_eq b r h
    have pair : ∀ n, n < 63 → field f n 2 = two n := fun n h => by
      rw [field_two, one n (by omega), one (n + 1) (by omega)]
    have quad : ∀ n, n < 61 → field f n 4 = four n := fun n h => by
      rw [field_four, one n (by omega), one (n + 1) (by omega), one (n + 2) (by omega), one (n + 3) (by omega)]
    have flag : ∀ n j, n < 64 → (fieldBit f n j = true ↔ isSet n j) := fun n j h => by
      rw [fieldBit_iff, one n h]
    have mask : ∀ n, n < 64 → ∀ i : Screen, (fieldMask f n).getLsbD i.val = true ↔ isSet n i.val := fun n h i => by
      rw [fieldMask_iff, one n h]
    have luma : ∀ n, n < 64 → (BitVec.ofNat 8 (f n)).toNat = byte n := fun n h => by
      rw [BitVec.toNat_ofNat, Nat.mod_eq_of_lt (small n), one n h]
    refine ⟨⟨quad 0 (by decide), one 4 (by decide), one 5 (by decide), one 6 (by decide), quad 8 (by decide),
        pair 12 (by decide), pair 14 (by decide), fun t => ?_, ?_, one 20 (by decide), one 21 (by decide),
        pair 22 (by decide), pair 24 (by decide), one 26 (by decide), one 27 (by decide), one 28 (by decide),
        mask 29 (by decide), one 30 (by decide), pair 32 (by decide)⟩,
      ⟨flag 0 0 (by decide), flag 0 1 (by decide), one 1 (by decide), pair 2 (by decide), pair 4 (by decide),
        quad 6 (by decide), one 10 (by decide), one 11 (by decide), one 12 (by decide), fun z => ?_⟩,
      ⟨flag 0 0 (by decide), pair 2 (by decide), pair 4 (by decide), quad 6 (by decide), one 10 (by decide)⟩,
      ⟨one 0 (by decide), luma 1 (by decide), luma 2 (by decide), luma 3 (by decide)⟩,
      ⟨pair 0 (by decide), pair 2 (by decide), pair 4 (by decide), pair 6 (by decide), one 8 (by decide),
        one 9 (by decide), pair 10 (by decide), pair 12 (by decide), flag 14 0 (by decide), flag 14 1 (by decide),
        flag 14 2 (by decide), one 15 (by decide)⟩,
      ⟨flag 0 0 (by decide), flag 0 1 (by decide), ?_, one 1 (by decide), one 2 (by decide), mask 3 (by decide),
        one 4 (by decide), pair 6 (by decide), one 8 (by decide), mask 9 (by decide), one 10 (by decide),
        pair 12 (by decide)⟩⟩
    · have ht : t.toNat < 16 := t.isLt
      exact (roleIn_field small 16 t).trans (by rw [one _ (by omega)])
    · show (BitVec.ofNat 32 (field f 16 4)).toNat = _
      rw [BitVec.toNat_ofNat, show (2 : Nat) ^ 32 = 256 ^ 4 from rfl, Nat.mod_eq_of_lt (field_lt small 4 16)]
      exact quad 16 (by decide)
    · have hz := z.isLt
      show (BitVec.ofNat 48 (field f 14 6)).getLsbD z.val = true ↔ _
      rw [BitVec.getLsbD_ofNat, decide_eq_true hz, Bool.true_and, field_testBit small (by omega), one _ (by omega)]
    · show f 0 / 4 % 4 = _
      rw [one 0 (by decide)]

end Sys2Proof.Machine
end

section
/-! Raises and ends in one spotlight list (O31, O33): what a change leaves of every entry, of the counting and of the
governing report. -/

namespace Sys2Proof.Machine

set_option Elab.async false

/-! ### Closing a change -/

/-- An entry of a closed change: the linger of an entry that governed is settled when its counting stops (R124). -/
def settled (now : Time) (l : SpotList) (new : List SpotEntry) (renewed : Bool) (e : SpotEntry) : SpotEntry :=
  if countingGoesOn l new renewed || renewed then e
  else { e with
    linger := if l.governing.map SpotEntry.origin = some e.origin then e.linger - l.counted now else e.linger }

section close

variable (i : Screen) {now : Time} {l : SpotList} {new : List SpotEntry} {created : Nat} {renewed : Bool}

@[simp] theorem settled_origin (e : SpotEntry) : (settled now l new renewed e).origin = e.origin := by
  unfold settled
  split <;> rfl

@[simp] theorem settled_active (e : SpotEntry) : (settled now l new renewed e).active = e.active := by
  unfold settled
  split <;> rfl

@[simp] theorem settled_layout (e : SpotEntry) : (settled now l new renewed e).layout = e.layout := by
  unfold settled
  split <;> rfl

theorem settled_ranked (e : SpotEntry) : (settled now l new renewed e).ranked = e.ranked := by
  unfold settled
  split <;> rfl

theorem bankLinger_eq (old : SpotList) (t : Time) (new : List SpotEntry) : bankLinger old t new = new.map fun e =>
    { e with linger := if old.governing.map SpotEntry.origin = some e.origin then e.linger - old.counted t
      else e.linger } := by
  have none : old.counted t = 0 → new = new.map fun e =>
      { e with linger := if old.governing.map SpotEntry.origin = some e.origin then e.linger - old.counted t
        else e.linger } := fun zero => by
    rw [zero]
    simp
  unfold bankLinger
  split
  · rename_i t0 g counting governing
    refine List.map_congr_left fun e _ => ?_
    unfold SpotList.counted
    rw [counting, governing]
    simp only [Option.map_some, Option.some.injEq, eq_comm (a := g.origin)]
    split <;> rfl
  · rename_i h
    cases counting : old.counting with
    | none => exact none (by unfold SpotList.counted; rw [counting])
    | some t0 =>
      cases governing : old.governing with
      | none => simp
      | some g => exact absurd governing (h t0 g counting)

theorem closeChange_entries_eq : (closeChange i now l new created renewed).1.entries
    = new.map (settled now l new renewed) := by
  unfold closeChange settled
  dsimp only
  split
  · exact (List.map_id _).symm
  · exact bankLinger_eq l now new

theorem closeChange_governing : (closeChange i now l new created renewed).2
    = governingChange i l.entries (closeChange i now l new created renewed).1.entries := by
  rw [closeChange_entries_eq]
  unfold governingChange
  rw [List.head?_map, Option.map_map]
  show governingReports i l.entries new = _
  unfold governingReports
  congr 1
  · simp [Function.comp_def]
  · simp [Function.comp_def]

/-- The counting after a change depends on the governing entry's origin and activity. -/
theorem countingAfter_settled (touched : Option Origin) (f : SpotEntry → SpotEntry)
    (origin : ∀ e, (f e).origin = e.origin) (active : ∀ e, (f e).active = e.active) :
    countingAfter now l touched (new.map f) = countingAfter now l touched new := by
  unfold countingAfter
  cases new with
  | nil => rfl
  | cons e rest =>
    simp only [List.map_cons, List.head?_cons, origin, active]

end close

section raise

variable (i : Screen) {now : Time} {l : SpotList} {new : List SpotEntry} {created : Nat} {o : Origin}

/-- The new entries of a raise of `o`: its own is active, and every other stands in the old list. -/
def RaiseOf (o : Origin) (l : SpotList) (new : List SpotEntry) : Prop :=
  ∀ b ∈ new, b.origin = o ∧ b.active = true ∨ b ∈ l.entries

theorem SpotList.inOrder.counting_isSome (order : l.inOrder) {g : SpotEntry} (governing : l.governing = some g)
    (inactive : g.active = false) : l.counting.isSome = true :=
  (SpotList.inOrder_iff.mp order).2.mpr ⟨g, governing, inactive⟩

theorem SpotList.inOrder.governing_inactive (order : l.inOrder) {t0 : Time} (counting : l.counting = some t0) :
    ∃ g, l.governing = some g ∧ g.active = false :=
  (SpotList.inOrder_iff.mp order).2.mp (by rw [counting]; rfl)

theorem SpotList.inOrder.origins (order : l.inOrder) : (l.entries.map SpotEntry.origin).Nodup :=
  (SpotList.inOrder_iff.mp order).1.2.1

theorem SpotList.governing_mem {g : SpotEntry} (h : l.governing = some g) : g ∈ l.entries := List.mem_of_head? h

theorem countingGoesOn_iff {renewed : Bool} : countingGoesOn l new renewed = true ↔
    l.counting.isSome = true ∧ renewed = false ∧ l.governing.map SpotEntry.origin = new.head?.map SpotEntry.origin
      ∧ ∃ h, new.head? = some h ∧ h.active = false := by
  unfold countingGoesOn
  cases new.head? <;> simp [and_assoc]

/-- The counting after a raise (R124). -/
theorem closeChange_raise_counting (order : l.inOrder) (raise : RaiseOf o l new) :
    (closeChange i now l new created false).1.counting = countingAfter now l none new := by
  have goesOn := countingGoesOn_iff (l := l) (new := new) (renewed := false)
  unfold closeChange countingAfter
  dsimp only
  cases hh : new.head? with
  | none =>
    rw [if_neg fun h => by obtain ⟨-, -, -, x, hx, -⟩ := goesOn.mp h; rw [hh] at hx; cases hx]
  | some h =>
    cases active : h.active with
    | true =>
      rw [if_neg fun on => by
        obtain ⟨-, -, -, x, hx, inactive⟩ := goesOn.mp on
        rw [hh] at hx
        cases hx
        rw [active] at inactive
        cases inactive]
      simp [active]
    | false =>
      have member : h ∈ l.entries := (raise h (List.mem_of_head? hh)).resolve_left fun ⟨_, on⟩ => by
        rw [active] at on
        cases on
      by_cases same : l.governing.map SpotEntry.origin = some h.origin
      · obtain ⟨g, governing, origin⟩ := Option.map_eq_some_iff.mp same
        have hg : g = h := eq_of_mem_of_origin order.origins (SpotList.governing_mem governing) member origin
        rw [if_pos (goesOn.mpr ⟨order.counting_isSome governing (hg ▸ active), rfl, by rw [same, hh]; rfl, h, hh,
          active⟩)]
        simp [active, same]
      · rw [if_neg fun on => by
          obtain ⟨-, -, governs, -⟩ := goesOn.mp on
          rw [hh] at governs
          exact same governs]
        simp [active, same]

/-- Every other entry after a raise (R124). -/
theorem settled_raise_of_ne (order : l.inOrder) (raise : RaiseOf o l new) {b : SpotEntry} (hb : b ∈ l.entries)
    (ho : b.origin ≠ o) : settled now l new false b = banked now l (new.head?.map SpotEntry.origin) b := by
  have goesOn := countingGoesOn_iff (l := l) (new := new) (renewed := false)
  unfold settled banked SpotList.counted
  cases counting : l.counting with
  | none => simp
  | some t0 =>
    obtain ⟨g, governing, inactive⟩ := order.governing_inactive counting
    rw [Bool.or_false]
    dsimp only
    by_cases same : l.governing.map SpotEntry.origin = some b.origin
    · have hg : g = b := eq_of_mem_of_origin order.origins (SpotList.governing_mem governing) hb (by
        rw [governing] at same
        exact Option.some.inj same)
      by_cases governs : new.head?.map SpotEntry.origin = some b.origin
      · obtain ⟨h, hh, origin⟩ := Option.map_eq_some_iff.mp governs
        have member : h ∈ l.entries := (raise h (List.mem_of_head? hh)).resolve_left fun ⟨at_o, _⟩ =>
          ho (origin.symm.trans at_o)
        have here : h = b := eq_of_mem_of_origin order.origins member hb origin
        rw [if_pos (goesOn.mpr ⟨by rw [counting]; rfl, rfl, same.trans governs.symm, h, hh, by
          rw [here, ← hg]; exact inactive⟩), if_neg fun ⟨_, n⟩ => n governs]
      · rw [if_neg fun on => governs ((goesOn.mp on).2.2.1.symm.trans same), if_pos same, if_pos ⟨same, governs⟩]
    · simp [same]

/-- The entry of the raised origin: its linger is settled where it governed (R122, R124). -/
theorem settled_raise_self {e : SpotEntry} (ho : e.origin = o) (active : e.active = true)
    (nodup : (new.map SpotEntry.origin).Nodup) (he : e ∈ new) :
    settled now l new false e = { e with
      linger := if l.governing.map SpotEntry.origin = some o then e.linger - l.counted now else e.linger } := by
  unfold settled
  rw [Bool.or_false]
  by_cases on : countingGoesOn l new false = true
  · rw [if_pos on]
    obtain ⟨-, -, governs, h, hh, inactive⟩ := countingGoesOn_iff.mp on
    rw [if_neg fun same => ?_]
    rw [hh, same] at governs
    have here : h = e := eq_of_mem_of_origin nodup (List.mem_of_head? hh) he (by
      rw [ho]
      exact (Option.some.inj governs).symm)
    rw [here, active] at inactive
    cases inactive
  · rw [if_neg on, ho]

end raise

/-! ### Insertion -/

/-- Where an insertion puts the entry: behind what it does not come before (R121). -/
theorem insertSpot_split (e : SpotEntry) (es : List SpotEntry) : ∃ before after, es = before ++ after
    ∧ insertSpot e es = before ++ e :: after ∧ (∀ b ∈ before, ¬comesBefore e b)
    ∧ ∀ b, after.head? = some b → comesBefore e b := by
  induction es with
  | nil => exact ⟨[], [], rfl, rfl, by simp, by simp⟩
  | cons b bs ih =>
    by_cases stands : standsBefore e b = true
    · exact ⟨[], b :: bs, rfl, if_pos stands, by simp, fun x hx => by cases hx; exact standsBefore_iff.mp stands⟩
    · obtain ⟨before, after, split, inserted, behind, next⟩ := ih
      refine ⟨b :: before, after, congrArg _ split, (if_neg stands).trans (congrArg _ inserted), fun x hx => ?_, next⟩
      rcases List.mem_cons.mp hx with rfl | hx
      · exact fun h => stands (standsBefore_iff.mpr h)
      · exact behind x hx

theorem comesBefore_congr {a b a' b' : SpotEntry} (ha : a'.ranked = a.ranked) (hb : b'.ranked = b.ranked) :
    comesBefore a' b' ↔ comesBefore a b := by
  have through : ∀ x y : SpotEntry, comesBefore x y ↔ comesBefore x.ranked y.ranked := fun _ _ => Iff.rfl
  rw [through, ha, hb, ← through]

theorem insertSpot_atItsPlace (e : SpotEntry) (es : List SpotEntry) (f : SpotEntry → SpotEntry)
    (ranked : ∀ x, (f x).ranked = x.ranked) : atItsPlace e.origin ((insertSpot e es).map f) := by
  obtain ⟨before, after, -, inserted, behind, next⟩ := insertSpot_split e es
  have origin : (f e).ranked.origin = e.ranked.origin := congrArg SpotEntry.origin (ranked e)
  refine ⟨before.map f, f e, after.map f, by rw [inserted, List.map_append, List.map_cons], origin,
    fun b hb => ?_, fun b hb => ?_⟩
  · obtain ⟨x, hx, rfl⟩ := List.mem_map.mp hb
    exact fun h => behind x hx ((comesBefore_congr (ranked e) (ranked x)).mp h)
  · rw [List.head?_map] at hb
    obtain ⟨x, hx, rfl⟩ := Option.map_eq_some_iff.mp hb
    exact (comesBefore_congr (ranked e) (ranked x)).mpr (next x hx)

/-- The entries of the other origins stay in their order. -/
theorem insertSpot_others {e : SpotEntry} {es : List SpotEntry} (new : ∀ b ∈ es, b.origin ≠ e.origin) :
    (insertSpot e es).filter (fun b => decide (b.origin ≠ e.origin)) = es := by
  obtain ⟨before, after, split, inserted, -⟩ := insertSpot_split e es
  have all : es.filter (fun b => decide (b.origin ≠ e.origin)) = es :=
    List.filter_eq_self.mpr fun b hb => decide_eq_true (new b hb)
  rw [inserted, List.filter_append, List.filter_cons_of_neg (by simp), ← List.filter_append, ← split, all]

/-- The entry of an origin, in a list with one entry per origin. -/
theorem SpotList.entryOf_of_mem {l : SpotList} (nodup : (l.entries.map SpotEntry.origin).Nodup) {e : SpotEntry}
    (he : e ∈ l.entries) : l.entryOf e.origin = some e := by
  cases found : l.entryOf e.origin with
  | none => exact absurd rfl (SpotList.entryOf_eq_none found e he)
  | some x =>
    obtain ⟨hx, origin⟩ := SpotList.entryOf_eq_some found
    rw [eq_of_mem_of_origin nodup hx he origin]

end Sys2Proof.Machine
end

section
/-! A raise in one spotlight list (O31). -/

namespace Sys2Proof.Machine

set_option Elab.async false

section raised

variable {i : Screen} {now : Time} {o : Origin} {l : SpotList} {new : List SpotEntry} {created : Nat}

/-- The entries of the other origins. -/
def othersOf (o : Origin) (es : List SpotEntry) : List SpotEntry := es.filter fun e => decide (e.origin ≠ o)

theorem othersOf_map (o : Origin) (f : SpotEntry → SpotEntry) (origin : ∀ e, (f e).origin = e.origin)
    (es : List SpotEntry) : othersOf o (es.map f) = (othersOf o es).map f := by
  unfold othersOf
  rw [List.filter_map]
  congr 1
  exact List.filter_congr fun e _ => by simp [origin]

theorem mem_othersOf {o : Origin} {es : List SpotEntry} {b : SpotEntry} :
    b ∈ othersOf o es ↔ b ∈ es ∧ b.origin ≠ o := by
  simp [othersOf]

/-- What a raise that builds the entries `new` leaves. -/
structure RaiseClosed (i : Screen) (now : Time) (o : Origin) (l : SpotList) (new : List SpotEntry) (created : Nat)
    (x : SpotList × List Report) : Prop where
  entries : x.1.entries = new.map (settled now l new false)
  created_eq : x.1.created = created
  others : othersOf o x.1.entries = (othersOf o new).map (banked now l (x.1.governing.map SpotEntry.origin))
  counting : x.1.counting = countingAfter now l none x.1.entries
  governing : x.2 = governingChange i l.entries x.1.entries

theorem closeChange_raise (order : l.inOrder) (raise : RaiseOf o l new)
    (old : ∀ b ∈ othersOf o new, b ∈ l.entries) :
    RaiseClosed i now o l new created (closeChange i now l new created false) := by
  have entries := closeChange_entries_eq i (now := now) (l := l) (new := new) (created := created) (renewed := false)
  refine ⟨entries, rfl, ?_, ?_, closeChange_governing i⟩
  · have head : (closeChange i now l new created false).1.governing.map SpotEntry.origin
        = new.head?.map SpotEntry.origin := by
      unfold SpotList.governing
      rw [entries, List.head?_map, Option.map_map]
      congr 1
      funext e
      exact settled_origin e
    rw [head, entries, othersOf_map o _ (settled_origin (renewed := false))]
    exact List.map_congr_left fun b hb => settled_raise_of_ne order raise (old b hb) (mem_othersOf.mp hb).2
  · rw [closeChange_raise_counting i order raise, entries,
      countingAfter_settled none _ (settled_origin (renewed := false)) (settled_active (renewed := false))]

/-- Whatever the raise built has one entry per origin. -/
theorem RaiseClosed.entryOf {x : SpotList × List Report} (closed : RaiseClosed i now o l new created x)
    (nodup : (new.map SpotEntry.origin).Nodup) {e : SpotEntry} (he : e ∈ new) (ho : e.origin = o)
    (active : e.active = true) : x.1.entryOf o = some { e with
      linger := if l.governing.map SpotEntry.origin = some o then e.linger - l.counted now else e.linger } := by
  have origins : x.1.entries.map SpotEntry.origin = new.map SpotEntry.origin := by
    rw [closed.entries, List.map_map]
    exact List.map_congr_left fun b _ => settled_origin b
  have here := SpotList.entryOf_of_mem (l := x.1) (origins ▸ nodup) (e := settled now l new false e) (by
    rw [closed.entries]
    exact List.mem_map_of_mem he)
  rw [settled_origin, ho, settled_raise_self ho active nodup he] at here
  exact here

end raised

/-! ### The entry of the origin is there -/

section refresh

variable {i : Screen} {now : Time} {o : Origin} {level layout : Nat} {l : SpotList} {e : SpotEntry}

/-- The entry as a raise refreshes it. -/
def SpotEntry.refreshed (e : SpotEntry) (level layout : Nat) : SpotEntry := { e with active := true, level, layout }

theorem refreshEntry_stays (es : List SpotEntry) (layout : Nat) : refreshEntry es e e.level layout
    = es.map fun x => if x.origin = e.origin then e.refreshed e.level layout else x := if_pos rfl

theorem refreshEntry_moves {es : List SpotEntry} (h : level ≠ e.level) :
    refreshEntry es e level layout = insertSpot (e.refreshed level layout) (othersOf e.origin es) := if_neg h

theorem refreshEntry_cases (level layout : Nat) (es : List SpotEntry) {b : SpotEntry}
    (hb : b ∈ refreshEntry es e level layout) : b = e.refreshed level layout ∨ b ∈ othersOf e.origin es := by
  by_cases hl : level = e.level
  · subst hl
    rw [refreshEntry_stays] at hb
    obtain ⟨x, hx, rfl⟩ := List.mem_map.mp hb
    by_cases ho : x.origin = e.origin
    · exact .inl (if_pos ho)
    · rw [if_neg ho]
      exact .inr (mem_othersOf.mpr ⟨hx, ho⟩)
  · rw [refreshEntry_moves hl] at hb
    exact List.mem_cons.mp ((insertSpot_perm _ _).mem_iff.mp hb)

theorem refreshEntry_mem {es : List SpotEntry} (he : e ∈ es) (level layout : Nat) :
    e.refreshed level layout ∈ refreshEntry es e level layout := by
  by_cases hl : level = e.level
  · subst hl
    rw [refreshEntry_stays]
    exact List.mem_map.mpr ⟨e, he, if_pos rfl⟩
  · rw [refreshEntry_moves hl]
    exact (insertSpot_perm _ _).mem_iff.mpr (List.mem_cons_self ..)

theorem refreshEntry_others (es : List SpotEntry) (level layout : Nat) :
    othersOf e.origin (refreshEntry es e level layout) = othersOf e.origin es := by
  by_cases hl : level = e.level
  · subst hl
    rw [refreshEntry_stays, othersOf_map _ _ fun x => by
      split
      · rename_i h
        exact h.symm
      · rfl]
    refine (List.map_congr_left fun x hx => ?_).trans (List.map_id _)
    exact if_neg (mem_othersOf.mp hx).2
  · rw [refreshEntry_moves hl]
    exact insertSpot_others (e := e.refreshed level layout) fun b hb => (mem_othersOf.mp hb).2

theorem refreshEntry_origins (es : List SpotEntry) (layout : Nat) :
    (refreshEntry es e e.level layout).map SpotEntry.origin = es.map SpotEntry.origin := by
  rw [refreshEntry_stays, List.map_map]
  refine List.map_congr_left fun x _ => ?_
  show (if x.origin = e.origin then e.refreshed e.level layout else x).origin = x.origin
  split
  · rename_i h
    exact h.symm
  · rfl

theorem refreshEntry_perm {es : List SpotEntry} (order : EntriesInOrder es) (he : e ∈ es) (level layout : Nat) :
    ((refreshEntry es e level layout).map SpotEntry.origin).Perm (es.map SpotEntry.origin) := by
  refine (List.perm_ext_iff_of_nodup (order.refresh he level layout).2.1 order.2.1).mpr fun x => ?_
  have others := refreshEntry_others (e := e) es level layout
  have through : ∀ y, (∃ b ∈ othersOf e.origin (refreshEntry es e level layout), b.origin = y) ↔
      ∃ b ∈ othersOf e.origin es, b.origin = y := fun y => by rw [others]
  by_cases hx : x = e.origin
  · subst hx
    exact iff_of_true (List.mem_map.mpr ⟨_, refreshEntry_mem he level layout, rfl⟩) (List.mem_map_of_mem he)
  · have lift : ∀ fs : List SpotEntry, x ∈ fs.map SpotEntry.origin ↔ ∃ b ∈ othersOf e.origin fs, b.origin = x :=
      fun fs => by
        rw [List.mem_map]
        exact exists_congr fun b => ⟨fun ⟨hb, h⟩ => ⟨mem_othersOf.mpr ⟨hb, h ▸ hx⟩, h⟩,
          fun ⟨hb, h⟩ => ⟨(mem_othersOf.mp hb).1, h⟩⟩
    rw [lift, lift, through]

end refresh

/-- A raise that inserts a new entry, into entries that were there. -/
theorem closeChange_insert {i : Screen} {now : Time} {o : Origin} {l : SpotList} {e : SpotEntry} {es : List SpotEntry}
    {created : Nat} (order : l.inOrder) (ho : e.origin = o) (active : e.active = true)
    (sub : es.Sublist l.entries) (new : ∀ b ∈ es, b.origin ≠ o) (linger : e.linger = 0) :
    let x := closeChange i now l (insertSpot e es) created false
    x.1.created = created ∧ x.1.entryOf o = some e ∧ x.1.entries.length = es.length + 1 ∧ atItsPlace o x.1.entries
      ∧ othersOf o x.1.entries = es.map (banked now l (x.1.governing.map SpotEntry.origin))
      ∧ x.1.counting = countingAfter now l none x.1.entries ∧ x.2 = governingChange i l.entries x.1.entries := by
  subst ho
  intro x
  have others := insertSpot_others new
  have closed : RaiseClosed i now e.origin l (insertSpot e es) created x :=
    closeChange_raise order (fun b hb => (List.mem_cons.mp ((insertSpot_perm e es).mem_iff.mp hb)).imp
      (fun h => by rw [h]; exact ⟨rfl, active⟩) fun h => sub.subset h) fun b hb => by
        rw [show othersOf e.origin (insertSpot e es) = es from others] at hb
        exact sub.subset hb
  have nodup : ((insertSpot e es).map SpotEntry.origin).Nodup := by
    rw [((insertSpot_perm e es).map _).nodup_iff, List.map_cons, List.nodup_cons]
    refine ⟨fun hm => ?_, order.origins.sublist (sub.map _)⟩
    obtain ⟨b, hb, h⟩ := List.mem_map.mp hm
    exact new b hb h
  have entry := closed.entryOf nodup ((insertSpot_perm e es).mem_iff.mpr (List.mem_cons_self ..)) rfl active
  refine ⟨rfl, ?_, ?_, ?_, ?_, closed.counting, closed.governing⟩
  · have none : (if l.governing.map SpotEntry.origin = some e.origin then e.linger - l.counted now else e.linger)
        = e.linger := by
      rw [linger, Nat.zero_sub, ite_self]
    rw [entry, none]
  · rw [closed.entries, List.length_map, insertSpot_length]
  · rw [closed.entries]
    exact insertSpot_atItsPlace e es _ settled_ranked
  · rw [closed.others, show othersOf e.origin (insertSpot e es) = es from others]

/-- Settles O31: the entry is refreshed, or a new one is inserted, or the raise is refused. -/
theorem raiseInAList : Obligations.RaiseInAList := by
  intro i now o level layout l order x fresh others kept governing
  have entries := (SpotList.inOrder_iff.mp order).1
  refine ⟨fun e found => ?_, fun absent room => ?_, fun last absent full final => ⟨fun before => ?_, fun behind => ?_⟩⟩
  · obtain ⟨he, rfl⟩ := SpotList.entryOf_eq_some found
    have hx : x = ((closeChange i now l (refreshEntry l.entries e level layout) l.created false).1,
        (closeChange i now l (refreshEntry l.entries e level layout) l.created false).2, .refreshed) := by
      show raiseIn i now e.origin level layout l = _
      unfold raiseIn
      rw [found]
    have closed : RaiseClosed i now e.origin l (refreshEntry l.entries e level layout) l.created
        (closeChange i now l (refreshEntry l.entries e level layout) l.created false) :=
      closeChange_raise order (fun b hb => (refreshEntry_cases level layout l.entries hb).imp
        (fun h => by rw [h]; exact ⟨rfl, rfl⟩) fun h => (mem_othersOf.mp h).1) fun b hb => by
          rw [refreshEntry_others] at hb
          exact (mem_othersOf.mp hb).1
    have origins : x.1.entries.map SpotEntry.origin
        = (refreshEntry l.entries e level layout).map SpotEntry.origin := by
      rw [hx, closed.entries, List.map_map]
      exact List.map_congr_left fun b _ => settled_origin b
    have entry := closed.entryOf (entries.refresh he level layout).2.1 (refreshEntry_mem he level layout) rfl rfl
    clear_value x
    subst hx
    refine ⟨rfl, closed.created_eq, ?_, fun hl => ?_, fun hl => ?_, ?_, ⟨_, entry, rfl, rfl, rfl, rfl, rfl, rfl⟩,
      closed.counting, closed.governing⟩
    · rw [origins]
      exact refreshEntry_perm entries he level layout
    · rw [origins, hl, refreshEntry_origins]
    · show atItsPlace e.origin (closeChange i now l _ l.created false).1.entries
      rw [closed.entries, refreshEntry_moves hl]
      exact insertSpot_atItsPlace (e.refreshed level layout) _ _ settled_ranked
    · exact closed.others.trans (by rw [refreshEntry_others]; rfl)
  · have new := SpotList.entryOf_eq_none absent
    have hx : x = ((closeChange i now l (insertSpot fresh l.entries) (l.created + 1) false).1,
        (closeChange i now l (insertSpot fresh l.entries) (l.created + 1) false).2, .inserted) := by
      show raiseIn i now o level layout l = _
      unfold raiseIn
      rw [absent]
      exact if_pos room
    obtain ⟨created, entry, length, place, rest, counting, change⟩ :=
      closeChange_insert (i := i) (now := now) (o := o) (created := l.created + 1) (e := fresh) order rfl rfl
        (List.Sublist.refl l.entries) new rfl
    clear_value x
    subst hx
    exact ⟨rfl, created, entry, length, place, rest, counting, change⟩
  · have new := SpotList.entryOf_eq_none absent
    have hx : x = ((closeChange i now l (insertSpot fresh l.entries.dropLast) (l.created + 1) false).1,
        .spotEvicted i last.origin last.level o level
          :: (closeChange i now l (insertSpot fresh l.entries.dropLast) (l.created + 1) false).2, .inserted) := by
      show raiseIn i now o level layout l = _
      unfold raiseIn
      rw [absent]
      dsimp only
      rw [if_neg (by rw [full]; decide), final]
      exact if_pos (standsBefore_iff.mpr before)
    obtain ⟨created, entry, length, place, rest, counting, change⟩ :=
      closeChange_insert (i := i) (now := now) (o := o) (created := l.created + 1) (e := fresh) order rfl rfl
        (List.dropLast_sublist l.entries) (fun b hb => new b (List.mem_of_mem_dropLast hb)) rfl
    have all : l.entries.dropLast ++ [last] = l.entries := List.dropLast_append_getLast? last final
    have gone : ∀ b ∈ insertSpot fresh l.entries.dropLast, b.origin ≠ last.origin := fun b hb => by
      rcases List.mem_cons.mp ((insertSpot_perm _ _).mem_iff.mp hb) with rfl | hb
      · exact (new last (List.mem_of_getLast? final)).symm
      · have nodup := order.origins
        rw [← all, List.map_append, List.nodup_append] at nodup
        obtain ⟨-, -, apart⟩ := nodup
        exact apart _ (List.mem_map_of_mem hb) _ (List.mem_map_of_mem (List.mem_singleton_self last))
    clear_value x
    subst hx
    refine ⟨rfl, created, entry, ?_, length.trans ?_, place, rest, counting, congrArg _ change⟩
    · refine List.find?_eq_none.mpr fun b hb => ?_
      rw [closeChange_entries_eq] at hb
      obtain ⟨y, hy, rfl⟩ := List.mem_map.mp hb
      rw [settled_origin, decide_eq_true_iff]
      exact gone y hy
    · rw [List.length_dropLast, full]
  · show raiseIn i now o level layout l = _
    unfold raiseIn
    rw [absent]
    dsimp only
    rw [if_neg (by rw [full]; decide), final]
    exact if_neg fun h => behind (standsBefore_iff.mp h)

end Sys2Proof.Machine
end

section
/-! Ends, expiries and the MANUAL spotlight commands (O33, O32). -/

namespace Sys2Proof.Machine

set_option Elab.async false

section ends

variable {i : Screen} {now : Time} {o : Origin} {l : SpotList} {new : List SpotEntry} {created : Nat} {renewed : Bool}

/-- An entry's linger stands where the counting goes on, is set anew, or is another entry's. -/
theorem settled_eq_self {b : SpotEntry} (h : l.governing.map SpotEntry.origin = some b.origin →
  l.counting.isSome = true →
    countingGoesOn l new renewed = true ∨ renewed = true) : settled now l new renewed b = b := by
  unfold settled
  split
  · rfl
  · rename_i off
    by_cases same : l.governing.map SpotEntry.origin = some b.origin
    · cases counting : l.counting with
      | none =>
        unfold SpotList.counted
        rw [counting]
        simp
      | some t0 =>
        rcases h same (by rw [counting]; rfl) with on | on <;> rw [on] at off <;> simp at off
    · rw [if_neg same]

theorem closeChange_of_settled (entries : ∀ b ∈ new, settled now l new renewed b = b)
    (counting : (closeChange i now l new created renewed).1.counting = countingAfter now l (some o) new) :
    closeChange i now l new created renewed
      = (⟨new, countingAfter now l (some o) new, created⟩, governingChange i l.entries new) := by
  have all : (closeChange i now l new created renewed).1.entries = new := by
    rw [closeChange_entries_eq]
    exact (List.map_congr_left entries).trans (List.map_id _)
  have reports := closeChange_governing i (now := now) (l := l) (new := new) (created := created) (renewed := renewed)
  rw [all] at reports
  refine Eq.trans (b := (⟨(closeChange i now l new created renewed).1.entries,
    (closeChange i now l new created renewed).1.counting, created⟩, (closeChange i now l new created renewed).2)) rfl ?_
  rw [all, counting, reports]

/-- A list that an end leaves has its governing entry from before, unless that one is removed. -/
theorem head_filter_of_governing {g : SpotEntry} (governing : l.governing = some g) (ho : g.origin ≠ o) :
    (l.entries.filter fun x => decide (x.origin ≠ o)).head? = some g := by
  unfold SpotList.governing at governing
  cases hl : l.entries with
  | nil =>
    rw [hl] at governing
    cases governing
  | cons a rest =>
    rw [hl] at governing
    cases governing
    exact congrArg List.head?
      (List.filter_cons_of_pos (p := fun x : SpotEntry => decide (x.origin ≠ o)) (decide_eq_true ho))

theorem SpotList.inOrder.governing_of_mem (order : l.inOrder) {b : SpotEntry} (hb : b ∈ l.entries)
    (same : l.governing.map SpotEntry.origin = some b.origin) : l.governing = some b := by
  obtain ⟨g, governing, origin⟩ := Option.map_eq_some_iff.mp same
  rw [governing, eq_of_mem_of_origin order.origins (SpotList.governing_mem governing) hb origin]

theorem countingAfter_of_head {touched : Option Origin} {h : SpotEntry} (head : new.head? = some h)
    (inactive : h.active = false) : countingAfter now l touched new
      = if l.governing.map SpotEntry.origin = some h.origin
        ∧ touched ≠ some h.origin then l.counting else some now := by
  unfold countingAfter
  rw [head]
  simp [inactive]

theorem countingAfter_active {touched : Option Origin} {h : SpotEntry} (head : new.head? = some h)
    (active : h.active = true) : countingAfter now l touched new = none := by
  unfold countingAfter
  rw [head]
  simp [active]

theorem closeChange_counting_stopped (off : countingGoesOn l new renewed = false) :
    (closeChange i now l new created renewed).1.counting
      = match new.head? with
        | some e => if e.active then none else some now
        | none => none := by
  unfold closeChange
  dsimp only
  rw [off]
  exact if_neg (by decide)

theorem closeChange_counting_goesOn (on : countingGoesOn l new renewed = true) :
    (closeChange i now l new created renewed).1.counting = l.counting := if_pos on

/-- An end with linger 0 removes the entry (R123). -/
theorem closeChange_removes (order : l.inOrder) :
    closeChange i now l (l.entries.filter fun x => decide (x.origin ≠ o)) created false
      = (⟨l.entries.filter fun x => decide (x.origin ≠ o),
          countingAfter now l (some o) (l.entries.filter fun x => decide (x.origin ≠ o)), created⟩,
        governingChange i l.entries (l.entries.filter fun x => decide (x.origin ≠ o))) := by
  have keeps : ∀ {b}, b ∈ l.entries → b.origin ≠ o → l.governing.map SpotEntry.origin = some b.origin →
      l.counting.isSome = true →
      countingGoesOn l (l.entries.filter fun x => decide (x.origin ≠ o)) false
        = true := fun {b} hb ho same counting => by
    have governing := order.governing_of_mem hb same
    obtain ⟨t0, ht⟩ := Option.isSome_iff_exists.mp counting
    obtain ⟨g, hg, inactive⟩ := order.governing_inactive ht
    cases governing.symm.trans hg
    have head := head_filter_of_governing governing ho
    exact countingGoesOn_iff.mpr ⟨counting, rfl, by rw [governing, head], b, head, inactive⟩
  refine closeChange_of_settled (fun b hb => ?_) ?_
  · obtain ⟨hb, ho⟩ := List.mem_filter.mp hb
    exact settled_eq_self fun same counting => .inl (keeps hb (of_decide_eq_true ho) same counting)
  · cases head : (l.entries.filter fun x => decide (x.origin ≠ o)).head? with
    | none =>
      rw [closeChange_counting_stopped (Bool.eq_false_iff.mpr fun on => by
        obtain ⟨-, -, -, h, hh, -⟩ := countingGoesOn_iff.mp on
        rw [head] at hh
        cases hh)]
      unfold countingAfter
      rw [head]
    | some h =>
      obtain ⟨member, ho⟩ := List.mem_filter.mp (List.mem_of_head? head)
      have ho : h.origin ≠ o := of_decide_eq_true ho
      cases active : h.active with
      | true =>
        rw [countingAfter_active head active, closeChange_counting_stopped (Bool.eq_false_iff.mpr fun on => by
          obtain ⟨-, -, -, x, hx, inactive⟩ := countingGoesOn_iff.mp on
          cases head.symm.trans hx
          rw [active] at inactive
          cases inactive), head]
        simp [active]
      | false =>
        rw [countingAfter_of_head head active]
        by_cases same : l.governing.map SpotEntry.origin = some h.origin
        · rw [if_pos ⟨same, fun e => ho (Option.some.inj e).symm⟩]
          exact closeChange_counting_goesOn (keeps member ho same
            (order.counting_isSome (order.governing_of_mem member same) active))
        · rw [if_neg fun ⟨s, _⟩ => same s, closeChange_counting_stopped (Bool.eq_false_iff.mpr fun on => by
            have governs := (countingGoesOn_iff.mp on).2.2.1
            rw [head] at governs
            exact same governs), head]
          simp [active]

/-- The entry of `o` inactive with a remaining linger, where it stands. -/
def lingering (o : Origin) (lingerMs : Nat) (y : SpotEntry) : SpotEntry :=
  if y.origin = o then { y with active := false, linger := lingerMs * 1000 } else y

theorem lingering_origin (o : Origin) (lingerMs : Nat) (y : SpotEntry) : (lingering o lingerMs y).origin
  = y.origin := by
  unfold lingering
  split <;> rfl

/-- An end with a linger (R123, R124). -/
theorem closeChange_lingers (order : l.inOrder) (lingerMs : Nat) :
    closeChange i now l (l.entries.map (lingering o lingerMs)) created
        (decide (l.governing.map SpotEntry.origin = some o))
      = (⟨l.entries.map (lingering o lingerMs), countingAfter now l (some o) (l.entries.map (lingering o lingerMs)),
          created⟩, governingChange i l.entries (l.entries.map (lingering o lingerMs))) := by
  have head : (l.entries.map (lingering o lingerMs)).head? = l.governing.map (lingering o lingerMs) :=
    List.head?_map ..
  by_cases ended : l.governing.map SpotEntry.origin = some o
  · rw [decide_eq_true ended]
    refine closeChange_of_settled (fun b _ => settled_eq_self fun _ _ => .inr rfl) ?_
    obtain ⟨g, governing, origin⟩ := Option.map_eq_some_iff.mp ended
    rw [governing] at head
    have inactive : (lingering o lingerMs g).active = false := by
      unfold lingering
      rw [if_pos origin]
    rw [countingAfter_of_head head inactive, if_neg fun ⟨_, n⟩ => n (by rw [lingering_origin, origin]),
      closeChange_counting_stopped (Bool.eq_false_iff.mpr fun on => by
        cases (countingGoesOn_iff.mp on).2.1), head]
    simp [inactive]
  · rw [decide_eq_false ended]
    have same : ∀ g, l.governing = some g → lingering o lingerMs g = g := fun g governing =>
      if_neg fun origin => ended (by rw [governing]; exact congrArg some origin)
    have keeps : ∀ g, l.governing = some g → g.active = false →
        countingGoesOn l (l.entries.map (lingering o lingerMs)) false = true := fun g governing inactive => by
      rw [governing, Option.map_some, same g governing] at head
      exact countingGoesOn_iff.mpr ⟨order.counting_isSome governing inactive, rfl, by rw [governing, head], g, head,
        inactive⟩
    refine closeChange_of_settled (fun b _ => settled_eq_self fun _ counting => .inl ?_) ?_
    · obtain ⟨t0, ht⟩ := Option.isSome_iff_exists.mp counting
      obtain ⟨g, governing, inactive⟩ := order.governing_inactive ht
      exact keeps g governing inactive
    · cases governing : l.governing with
      | none =>
        rw [governing] at head
        rw [closeChange_counting_stopped (Bool.eq_false_iff.mpr fun on => by
          obtain ⟨-, -, -, h, hh, -⟩ := countingGoesOn_iff.mp on
          rw [head] at hh
          cases hh), head]
        unfold countingAfter
        rw [head]
        rfl
      | some g =>
        rw [governing, Option.map_some, same g governing] at head
        cases active : g.active with
        | true =>
          rw [countingAfter_active head active, closeChange_counting_stopped (Bool.eq_false_iff.mpr fun on => by
            obtain ⟨-, -, -, x, hx, inactive⟩ := countingGoesOn_iff.mp on
            cases head.symm.trans hx
            rw [active] at inactive
            cases inactive), head]
          simp [active]
        | false =>
          rw [countingAfter_of_head head active, closeChange_counting_goesOn (keeps g governing active),
            if_pos ⟨by rw [governing]; rfl, fun e => ended (by rw [governing]; exact e.symm)⟩]

end ends

/-- An end in a list (R123). -/
theorem endIn_removes {i : Screen} {now : Time} {o : Origin} {l : SpotList} {e : SpotEntry} (order : l.inOrder)
    (found : l.entryOf o = some e) : endIn i now o 0 l
      = (⟨l.entries.filter fun x => decide (x.origin ≠ o),
          countingAfter now l (some o) (l.entries.filter fun x => decide (x.origin ≠ o)), l.created⟩,
        governingChange i l.entries (l.entries.filter fun x => decide (x.origin ≠ o))) := by
  unfold endIn
  rw [found]
  exact (if_pos rfl).trans (closeChange_removes order)

theorem endIn_lingers {i : Screen} {now : Time} {o : Origin} {l : SpotList} {e : SpotEntry} {lingerMs : Nat}
    (order : l.inOrder) (found : l.entryOf o = some e) (some : lingerMs ≠ 0) : endIn i now o lingerMs l
      = (⟨l.entries.map (lingering o lingerMs), countingAfter now l (.some o) (l.entries.map (lingering o lingerMs)),
          l.created⟩, governingChange i l.entries (l.entries.map (lingering o lingerMs))) := by
  unfold endIn
  rw [found]
  exact (if_neg some).trans (closeChange_lingers order lingerMs)

theorem endIn_absent {i : Screen} {now : Time} {o : Origin} {l : SpotList} {lingerMs : Nat}
    (absent : l.entryOf o = none) : endIn i now o lingerMs l = (l, []) := by
  unfold endIn
  rw [absent]

end Sys2Proof.Machine
end

section
/-! The end of an origin and the linger expiry (O33), and the MANUAL spotlight commands (O32). -/

namespace Sys2Proof.Machine

set_option Elab.async false

/-! ### One screen's list -/

section spotTo

variable (s : State) (i : Screen) (x : SpotList × List Report)

@[simp] theorem State.spotTo_spots : (s.spotTo i x).spots = upd s.spots i x.1 := State.emitAll_spots ..

theorem State.spotTo_logged : Logged x.2 s (s.spotTo i x) :=
  Logged.trans (rs := []) (t := s.setSpot i x.1) ⟨rfl, rfl, rfl⟩ (.emitAll _ x.2)

theorem State.spotTo_spot : (s.spotTo i x).spots[i] = x.1 := by
  rw [State.spotTo_spots]
  exact upd_getElem_self ..

theorem State.spotTo_others {j : Screen} (hj : j ≠ i) : (s.spotTo i x).spots[j] = s.spots[j] := by
  rw [State.spotTo_spots]
  exact upd_getElem_of_ne _ _ hj

end spotTo

/-- The expiry of a governing entry whose origin has no other one. -/
theorem expireIn_eq {i : Screen} {now : Time} {l : SpotList} {e : SpotEntry} {rest : List SpotEntry}
    (entries : l.entries = e :: rest) (alone : ∀ e' ∈ rest, e'.origin ≠ e.origin) :
    (expireIn i now l).1.entries = rest
      ∧ (expireIn i now l).1.counting = rest.head?.bind (fun e' => if e'.active then none else some now)
      ∧ (expireIn i now l).2 = [.spotGoverning i (rest.head?.map fun e' => (e'.origin,
        e'.layout)) (some e.origin)] := by
  have governing : l.governing = some e := by
    unfold SpotList.governing
    rw [entries]
    rfl
  have headNe : rest.head?.map SpotEntry.origin ≠ some e.origin := fun h => by
    obtain ⟨h, hh, origin⟩ := Option.map_eq_some_iff.mp h
    exact alone h (List.mem_of_head? hh) origin
  have off : countingGoesOn l rest false = false := Bool.eq_false_iff.mpr fun on => by
    have governs := (countingGoesOn_iff.mp on).2.2.1
    rw [governing] at governs
    exact headNe governs.symm
  have all : (expireIn i now l).1.entries = rest := by
    unfold expireIn
    rw [closeChange_entries_eq, entries]
    refine (List.map_congr_left fun b hb => settled_eq_self fun same => ?_).trans (List.map_id _)
    rw [governing] at same
    exact absurd (Option.some.inj same).symm (alone b hb)
  refine ⟨all, ?_, ?_⟩
  · unfold expireIn
    rw [entries]
    refine (closeChange_counting_stopped off).trans ?_
    cases rest.head? <;> rfl
  · have reports := closeChange_governing i (now := now) (l := l) (new := l.entries.tail) (created := l.created)
      (renewed := false)
    show (closeChange i now l l.entries.tail l.created false).2 = _
    rw [reports, show (closeChange i now l l.entries.tail l.created false).1.entries = rest from all, entries]
    refine if_neg fun same => headNe ?_
    have origins := congrArg (Option.map Prod.fst) same
    rw [Option.map_map, Option.map_map] at origins
    exact origins.symm

/-- Settles O33: the expiry of the governing entry, and what an end leaves. -/
theorem lingerExpiryRemovesTheGoverningEntry : Obligations.LingerExpiryRemovesTheGoverningEntry := by
  refine ⟨fun i s running => ⟨fun t0 e rest counting entries inactive due alone => ?_, fun early => ?_⟩,
    fun i now o lingerMs l order => ⟨endIn_absent, fun e found => ?_⟩⟩
  · obtain ⟨left, counts, reports⟩ := expireIn_eq (i := i) (now := s.time) entries alone
    have expires : s.lingerExpiry i = s.spotTo i (expireIn i s.time s.spots[i]) :=
      if_pos (SpotList.expired_iff.mpr ⟨t0, e, counting, by rw [entries]; rfl, inactive, due⟩)
    have effect := s.lingerExpiry_effect i
    have log := s.spotTo_logged i (expireIn i s.time s.spots[i])
    rw [reports] at log
    refine ⟨_, exec_lingerExpiry running i, effect.touches.mono (by decide), ?_⟩
    rw [expires, State.spotTo_spot]
    refine ⟨left, fun j hj => State.spotTo_others _ _ _ hj, counts.trans ?_, log.reported_self⟩
    cases rest <;> rfl
  · rw [exec_lingerExpiry running]
    refine congrArg _ (if_neg fun expired => ?_)
    obtain ⟨t0, e, counting, head, inactive, due⟩ := SpotList.expired_iff.mp expired
    exact Nat.not_lt.mpr due (early t0 e counting head inactive)
  · by_cases zero : lingerMs = 0
    · subst zero
      rw [endIn_removes order found]
      exact ⟨fun _ => rfl, fun h => absurd rfl h, rfl, rfl, rfl⟩
    · rw [endIn_lingers order found zero]
      exact ⟨fun h => absurd h zero, fun _ => rfl, rfl, rfl, rfl⟩

/-! ### The MANUAL commands -/

theorem screenArg_eq {i : Screen} {b : Byte} (h : i.val = b.toNat) : screenArg b = some i := by
  unfold screenArg
  rw [dif_pos (h ▸ i.isLt)]
  exact congrArg some (Fin.ext h.symm)

theorem screenArg_none {b : Byte} (h : 3 < b.toNat) : screenArg b = none := dif_neg (by omega)

section manual

variable {s : State}

theorem State.idleSpotSet_bad {screen layout level : Byte}
    (bad : 3 < screen.toNat ∨ 31 < layout.toNat ∨ level.toNat = 0 ∨ 7 < level.toNat) :
    s.idleSpotSet screen layout level = s.finishPlain 0x20 .refused .badArg := by
  unfold State.idleSpotSet
  split
  · rfl
  · rename_i i found
    refine if_pos (bad.elim (fun h => ?_) fun h => h.imp_right fun h => h.imp_left fun h => by omega)
    rw [screenArg_none h] at found
    cases found

theorem State.idleSpotSet_raises {i : Screen} {screen layout level : Byte} (hi : i.val = screen.toNat)
    (hlayout : layout.toNat ≤ 31) (least : 1 ≤ level.toNat) (most : level.toNat ≤ 7) :
    let x := raiseIn i s.time .manual level.toNat layout.toNat s.spots[i]
    s.idleSpotSet screen layout level = (s.spotTo i (x.1, x.2.1)).finishPlain 0x20
      (if x.2.2 = .refused then .refused else .done) (if x.2.2 = .refused then .listFull else .none) := by
  intro x
  unfold State.idleSpotSet
  rw [screenArg_eq hi]
  dsimp only
  rw [if_neg (by omega)]
  show (match x.2.2 with
    | .refreshed => (s.spotTo i (x.1, x.2.1)).finishPlain 0x20 .done .none
    | .inserted => (s.spotTo i (x.1, x.2.1)).finishPlain 0x20 .done .none
    | .refused => (s.spotTo i (x.1, x.2.1)).finishPlain 0x20 .refused .listFull) = _
  cases x.2.2 <;> rfl

theorem State.idleSpotClear_bad {screen : Byte} (bad : 3 < screen.toNat) :
    s.idleSpotClear screen = s.finishPlain 0x21 .refused .badArg := by
  unfold State.idleSpotClear
  rw [screenArg_none bad]

theorem State.idleSpotClear_ends {i : Screen} {screen : Byte} (hi : i.val = screen.toNat) :
    s.idleSpotClear screen = (s.spotTo i (endIn i s.time .manual 0 s.spots[i])).finishPlain 0x21 .done .none := by
  unfold State.idleSpotClear
  rw [screenArg_eq hi]
  rfl

theorem State.taken_time (d : Word) (tag : Byte) : (s.taken d tag).time = s.time := rfl

theorem State.taken_spots (d : Word) (tag : Byte) : (s.taken d tag).spots = s.spots := rfl

/-- MANUAL's entry removed, whether or not it was there. -/
theorem endIn_manual_zero {i : Screen} {now : Time} {o : Origin} {l : SpotList} (order : l.inOrder) :
    endIn i now o 0 l = (⟨l.entries.filter fun x => decide (x.origin ≠ o),
        countingAfter now l (some o) (l.entries.filter fun x => decide (x.origin ≠ o)), l.created⟩,
      governingChange i l.entries (l.entries.filter fun x => decide (x.origin ≠ o))) := by
  cases found : l.entryOf o with
  | some e => exact endIn_removes order found
  | none =>
    have rest : (l.entries.filter fun x => decide (x.origin ≠ o)) = l.entries :=
      List.filter_eq_self.mpr fun b hb => decide_eq_true (SpotList.entryOf_eq_none found b hb)
    have counting : countingAfter now l (some o) l.entries = l.counting := by
      cases head : l.entries.head? with
      | none =>
        unfold countingAfter
        rw [head]
        refine (Option.not_isSome_iff_eq_none.mp fun some => ?_).symm
        obtain ⟨e, he, -⟩ := (SpotList.inOrder_iff.mp order).2.mp some
        rw [head] at he
        cases he
      | some g =>
        cases active : g.active with
        | true =>
          rw [countingAfter_active head active]
          refine (Option.not_isSome_iff_eq_none.mp fun some => ?_).symm
          obtain ⟨e, he, inactive⟩ := (SpotList.inOrder_iff.mp order).2.mp some
          cases head.symm.trans he
          rw [active] at inactive
          cases inactive
        | false =>
          rw [countingAfter_of_head head active]
          refine if_pos ⟨by rw [SpotList.governing, head]; rfl, fun same => ?_⟩
          exact SpotList.entryOf_eq_none found g (List.mem_of_head? head) (Option.some.inj same).symm
    rw [endIn_absent found, rest, counting]
    exact Prod.ext rfl (if_pos rfl).symm

theorem endIn_zero_origins (i : Screen) (now : Time) (o : Origin) (l : SpotList) :
    (endIn i now o 0 l).1.entries.map SpotEntry.origin
      = (l.entries.map SpotEntry.origin).filter fun p => decide (p ≠ o) := by
  rw [List.filter_map]
  cases found : l.entryOf o with
  | some e =>
    unfold endIn
    rw [found]
    refine Eq.trans (congrArg (fun x : SpotList × List Report => x.1.entries.map SpotEntry.origin) (if_pos rfl)) ?_
    rw [closeChange_entries_eq, List.map_map]
    exact List.map_congr_left fun b _ => settled_origin b
  | none =>
    rw [endIn_absent found]
    exact congrArg _ (List.filter_eq_self.mpr fun b hb =>
      decide_eq_true (SpotList.entryOf_eq_none found b hb)).symm

end manual

/-- A command that changes one screen's list and ends. -/
theorem spotTo_finish {s : State} {d : Word} {tag code : Byte} (r : Requester) (inRange : s.ring.inRange)
    (hd : commandByte d 0 = code) (i : Screen) (x : SpotList × List Report) (result : Result) (reason : Reason) :
    let t := (((s.taken d tag).spotTo i x).finishPlain code result reason).completeWrite r
    t.spots[i] = x.1 ∧ (∀ j : Screen, j ≠ i → t.spots[j] = s.spots[j])
      ∧ Touches [.spots, .mem, .ring, .engine, .port] s t
      ∧ Answered s t r d x.2 (s.engine.ended tag result reason 0 0) := by
  intro t
  have effect := State.spotTo_effect (s.taken d tag) i x
  have log := (s.taken_logged d tag).trans ((s.taken d tag).spotTo_logged i x)
  have here := (s.taken d tag).spotTo_spot i x
  have others := fun (j : Screen) hj => (s.taken d tag).spotTo_others i x (j := j) hj
  have engine : ((s.taken d tag).spotTo i x).engine = { s.engine with lastTag := tag } := effect.same .engine
  have answer := answered_of_finish r inRange log (congrArg Engine.lastTag engine) (effect.same .port) result reason 0 0
  rw [hd, engine] at answer
  have spots : t.spots = ((s.taken d tag).spotTo i x).spots :=
    (State.finishPlain_effect _ code result reason).same .spots
  refine ⟨?_, fun j hj => ?_, State.finish_touches effect _ _ _ _ _ r _ (by decide), answer⟩
  · rw [spots]
    exact here
  · rw [spots]
    exact others j hj

/-- Settles O32. -/
theorem manualSpotlights : Obligations.ManualSpotlights := by
  refine ⟨fun r tag screen layout level spare s running role idle inRange => ?_,
    fun r tag screen spare s running role idle inRange => ?_⟩
  · intro d
    have code : commandByte d 0 = 0x20 := commandByte_commandWord_zero ..
    have run : exec (.spotSet r tag screen layout level spare) s
        = .next (((s.taken d tag).idleSpotSet screen layout level).completeWrite r) :=
      commandWrite_idle running role idle (by simp) d tag
    refine ⟨_, run, fun bad => ?_, fun i hi hlayout least most => ?_⟩
    · rw [State.idleSpotSet_bad bad]
      exact (finish_taken r inRange code).symm
    · intro x
      have raises : (s.taken d tag).idleSpotSet screen layout level
          = ((s.taken d tag).spotTo i (x.1, x.2.1)).finishPlain 0x20 (if x.2.2 = .refused then .refused else .done)
            (if x.2.2 = .refused then .listFull else .none) :=
        State.idleSpotSet_raises (s := s.taken d tag) hi hlayout least most
      rw [raises]
      clear_value x
      obtain ⟨here, others, touches, answer⟩ := spotTo_finish r inRange code i (x.1, x.2.1)
        (if x.2.2 = .refused then .refused else .done) (if x.2.2 = .refused then .listFull else .none)
      have ends : s.engine.ended tag (if x.2.2 = .refused then .refused else .done)
          (if x.2.2 = .refused then .listFull else .none) 0 0
          = if x.2.2 = .refused then s.engine.ended tag .refused .listFull 0 0
            else s.engine.ended tag .done .none 0 0 := by
        split <;> rfl
      rw [ends] at answer
      exact ⟨here, others, touches, answer⟩
  · intro d
    have code : commandByte d 0 = 0x21 := commandByte_commandWord_zero ..
    have run : exec (.spotClear r tag screen spare) s
        = .next (((s.taken d tag).idleSpotClear screen).completeWrite r) :=
      commandWrite_idle running role idle (by simp) d tag
    refine ⟨_, run, fun bad => ?_, fun i hi => ?_⟩
    · rw [State.idleSpotClear_bad bad]
      exact (finish_taken r inRange code).symm
    · intro rest
      rw [State.idleSpotClear_ends (s := s.taken d tag) hi, State.taken_time, State.taken_spots]
      obtain ⟨here, others, touches, answer⟩ := spotTo_finish r inRange code i (endIn i s.time .manual 0 s.spots[i])
        .done .none
      refine ⟨(congrArg (fun l : SpotList => l.entries.map SpotEntry.origin) here).trans (endIn_zero_origins ..),
        others,
        touches, answer, fun order => ?_⟩
      have removed := endIn_manual_zero (i := i) (now := s.time) (o := .manual) order
      rw [congrArg Prod.snd removed] at answer
      exact ⟨here.trans (congrArg Prod.fst removed), answer⟩

end Sys2Proof.Machine
end

section
/-! No command changes a byte of a slot that is and stays HELD (O39). -/

namespace Sys2Proof.Machine

set_option Elab.async false

/-! ### The bytes of a slot -/

section area

variable {p : SlotPool} {a i j : Nat}

theorem SlotPool.inArea_of_slot (hi : i < p.slots.length) (lo : p.slotAddr i ≤ a)
    (hi' : a < p.slotAddr i + p.slotBytes) : p.inArea a = true := by
  have fits : (i + 1) * p.slotBytes ≤ p.slots.length * p.slotBytes := Nat.mul_le_mul_right _ hi
  rw [Nat.add_mul, Nat.one_mul] at fits
  unfold SlotPool.slotAddr at lo hi'
  exact decide_eq_true ⟨by omega, by omega⟩

/-- The bytes of two slots are apart. -/
theorem SlotPool.slot_unique (li : p.slotAddr i ≤ a) (ui : a < p.slotAddr i + p.slotBytes) (lj : p.slotAddr j ≤ a)
    (uj : a < p.slotAddr j + p.slotBytes) : i = j := by
  unfold SlotPool.slotAddr at *
  have below : ∀ {m n : Nat}, p.base + m * p.slotBytes ≤ a → a < p.base + n * p.slotBytes + p.slotBytes → ¬n < m :=
    fun {m n} lo up hlt => by
      have fits : (n + 1) * p.slotBytes ≤ m * p.slotBytes := Nat.mul_le_mul_right _ hlt
      rw [Nat.add_mul, Nat.one_mul] at fits
      omega
  exact Nat.le_antisymm (Nat.not_lt.mp (below li uj)) (Nat.not_lt.mp (below lj ui))

theorem State.read_pageWrite {s : State} (off : ¬s.inPage a) {n : Nat} (h : n < 512) (w : WriteData) :
    (s.pageWrite n w).mem.read a = s.mem.read a := by
  refine Memory.read_writeWord_of_ne fun k hk _ e => off ?_
  have fits := s.pageBase_fits
  unfold State.pageAddr Config.pageBytes at *
  rw [physical_of_lt (by omega)] at e
  exact ⟨by omega, by unfold Config.pageBytes; omega⟩

/-- A plain window word holds no byte of the slot area. -/
theorem State.read_store {s : State} {x : Nat} (align : s.pool.base % Config.slotUnit = 0) (aligned : x % 8 = 0)
    (below : x < Config.memoryBytes) (off : s.pool.inArea x = false) (area : s.pool.inArea a = true) (w : WriteData) :
    (s.mem.writeWord x w).read a = s.mem.read a := by
  refine Memory.read_writeWord_of_ne fun k hk _ e => ?_
  unfold Config.memoryBytes at below
  rw [physical_of_lt (by unfold Config.memoryBytes; omega)] at e
  rw [SlotPool.inArea_iff] at area
  have outside := of_decide_eq_false off
  unfold SlotPool.slotBytes at outside
  unfold Config.slotUnit at align outside
  have size : s.pool.slots.length * (s.pool.units * 65536) = s.pool.slots.length * s.pool.units * 65536 := by
    rw [Nat.mul_assoc]
  rw [size] at area outside
  omega

end area

/-! ### A SETUP load -/

section setup

variable {s : State}

/-- While no camera is enabled a take is refused (R138). -/
theorem State.take_pool_of_off (off : ∀ c : Camera, s.cameras[c].enable = false) (o : Origin) (c : Camera) (n : Nat) :
    (s.take o c n).1.pool = s.pool ∧ (s.take o c n).1.cameras = s.cameras := by
  by_cases full : ∀ h : HoldId, s.holds.table.get h ≠ none
  · rw [State.take_tableFull full]
    exact ⟨s.emit_pool _, s.emit_cameras _⟩
  · obtain ⟨h, free⟩ := not_forall_not.mp full
    rw [State.take_noFrame free (.inl (off c))]
    exact ⟨s.emit_pool _, s.emit_cameras _⟩

theorem State.sampleLines_pool_of_off (off : ∀ c : Camera, s.cameras[c].enable = false) :
    s.sampleLines.pool = s.pool := by
  unfold State.sampleLines
  dsimp only
  have before : Effect [.doorUnit, .spots] s
      (({ s with doorUnit := s.doorUnit.sampled s.lines }.sampleStates).sampleNotices s.doorUnit) :=
    Effect.mono (((s.withDoorUnit_effect _).trans (State.sampleStates_effect _)).trans
      (State.sampleNotices_effect _ _)) (by decide)
  have pool := before.same .pool
  have cameras := before.same .cameras
  generalize ({ s with doorUnit := s.doorUnit.sampled s.lines }.sampleStates).sampleNotices s.doorUnit = u at *
  unfold State.sampleTriggers
  refine (List.foldlRecOn (motive := fun v : State => v.pool = s.pool ∧ v.cameras = s.cameras) _ _
    ⟨pool, cameras⟩ fun v hv d _ => ?_).1
  obtain ⟨hp, hc⟩ := hv
  split
  · obtain ⟨kp, kc⟩ := State.take_pool_of_off (s := v) (by rw [hc]; exact off) (.doorAlert d)
      (Fin.ofNat 16 v.doors[d].camera) v.doors[d].post
    exact ⟨kp.trans hp, kc.trans hc⟩
  · exact ⟨hp, hc⟩

theorem State.setupDoors_pool_of_off (off : ∀ c : Camera, s.cameras[c].enable = false) (old new : SetupRec) :
    (s.setupDoors old new).pool = s.pool := by
  have redescribed : Effect [.spots] s
      (if levelActive s.doorUnit.reverse.accepted then s.redescribe .reverse old.reverse new.reverse else s) :=
    .ite (fun _ => s.redescribe_effect _ _ _) fun _ => .refl _ s
  unfold State.setupDoors
  dsimp only
  have pool := redescribed.same .pool
  have cameras := redescribed.same .cameras
  generalize (if levelActive s.doorUnit.reverse.accepted then s.redescribe .reverse old.reverse new.reverse else s) = u
    at *
  split
  · unfold State.debounceChanged
    split
    · exact (State.sampleLines_pool_of_off (s := { u with doorUnit := { u.doorUnit with lastSample := u.time } })
        (by intro c; rw [show u.cameras = s.cameras from cameras]; exact off c)).trans pool
    · exact pool
  · exact pool

theorem State.applySetup_pool_of_off (off : ∀ c : Camera, s.cameras[c].enable = false) (r : SetupRec) :
    (s.applySetup r).pool = s.pool.regeometry r.slotBase r.slotUnits r.slotCount :=
  State.setupDoors_pool_of_off (s := { s with
    setup := r, pool := s.pool.regeometry r.slotBase r.slotUnits r.slotCount }) off s.setup r

theorem State.applySetup_read {a : Nat} (inRange : s.ring.inRange) (off : s.ring.outsideRing a) (r : SetupRec) :
    (s.applySetup r).mem.read a = s.mem.read a :=
  (State.setupDoors_effect { s with
    setup := r, pool := s.pool.regeometry r.slotBase r.slotUnits r.slotCount }
    s.setup r).read_of_outsideRing inRange off

/-- Every slot of the table is FREE. -/
def SlotPool.AllFree (p : SlotPool) : Prop := ∀ x ∈ p.slots, x.disp = .free

theorem SlotPool.AllFree.regeometry {p : SlotPool} (h : p.AllFree) (base units count : Nat) :
    (p.regeometry base units count).AllFree := by
  unfold SlotPool.regeometry
  split
  · exact h
  · intro x hx
    rw [(List.mem_replicate.mp hx).2]
    rfl

theorem SlotPool.AllFree.slot {i : Nat} (h : s.pool.AllFree) (hi : i < s.pool.slots.length) :
    (s.slot i).disp = .free := by
  rw [State.slot_eq_getElem hi]
  exact h _ (List.getElem_mem hi)

/-- A new table is FREE. -/
theorem SlotPool.regeometry_free (p : SlotPool) {base units count : Nat}
    (new : ¬(p.base = base ∧ p.units = units ∧ p.slots.length = count)) : (p.regeometry base units count).AllFree := by
  unfold SlotPool.regeometry
  rw [if_neg new]
  intro x hx
  rw [(List.mem_replicate.mp hx).2]
  rfl

theorem SameGeometry.inArea {t : State} (h : SameGeometry s t) (a : Nat) : t.pool.inArea a = s.pool.inArea a := by
  obtain ⟨base, units, length⟩ := h
  unfold SlotPool.inArea SlotPool.slotBytes
  rw [base, units, length]

/-- A SETUP load leaves the bytes of the slot area while the slot table stands; a new table is FREE (R1, R162). -/
theorem State.applyLoad_setup_kept {a : Nat} (apart : s.regionsApart) (inRange : s.ring.inRange)
    (area : s.pool.inArea a = true) (valid : s.validate = none) (table : s.engine.load.table = .setup) :
    s.applyLoad.mem.read a = s.mem.read a ∧ SameGeometry s s.applyLoad ∨ s.applyLoad.pool.AllFree := by
  have checks := State.setupChecks_of_validate valid table
  rw [State.applyLoad_of_setup table]
  have all := List.foldlRecOn (motive := fun u : State => u.regionsApart ∧ u.straps = s.straps ∧ u.cameras = s.cameras
    ∧ u.ring.inRange ∧ (u.mem.read a = s.mem.read a ∧ SameGeometry s u
      ∨ (∀ c : Camera, s.cameras[c].enable = false) ∧ u.pool.AllFree)) s.engine.records
    (fun u x => u.applySetup (setupOf x.2)) (b := s) ⟨apart, rfl, rfl, inRange, .inl ⟨rfl, .refl s⟩⟩
    fun u hu x hx => by
      obtain ⟨hr, hp, hc, hring, kept⟩ := hu
      have touched := u.applySetup_touches (setupOf x.2)
      obtain ⟨-, -, -, fits, -⟩ := State.setupChecks_hold_iff.mp (checks x hx)
      refine ⟨State.regionsApart_setupRecord apart (checks x hx) hp hc, (touched.same .straps).trans hp,
        (touched.same .cameras).trans hc, State.applySetup_ring_inRange (page := s.pageBase) hring fits, ?_⟩
      rcases kept with ⟨read, geometry⟩ | ⟨off, free⟩
      · have stays : SameGeometry u (u.applySetup (setupOf x.2)) →
            (u.applySetup (setupOf x.2)).mem.read a = s.mem.read a ∧ SameGeometry s (u.applySetup (setupOf x.2)) :=
          fun same => by
            obtain ⟨-, -, -, -, apart', -⟩ := hr
            exact ⟨(State.applySetup_read hring (apart' a ((geometry.inArea a).trans area)).2.1 _).trans read,
              geometry.trans same⟩
        obtain ⟨base, units, length⟩ := u.applySetup_geometry (setupOf x.2)
        by_cases same : u.pool.base = (setupOf x.2).slotBase ∧ u.pool.units = (setupOf x.2).slotUnits
            ∧ u.pool.slots.length = (setupOf x.2).slotCount
        · obtain ⟨hb, hu, hl⟩ := same
          exact .inl (stays ⟨base.trans hb.symm, units.trans hu.symm, length.trans hl.symm⟩)
        · rcases State.geometry_of_setupChecks (checks x hx) with off | ⟨sb, su, sl⟩
          · refine .inr ⟨off, ?_⟩
            rw [State.applySetup_pool_of_off (by rw [hc]; exact off)]
            exact u.pool.regeometry_free same
          · obtain ⟨pb, pu, pl, -⟩ := apart
            obtain ⟨gb, gu, gl⟩ := geometry
            exact absurd ⟨gb.trans (pb.trans sb.symm), gu.trans (pu.trans su.symm), gl.trans (pl.trans sl.symm)⟩ same
      · refine .inr ⟨off, ?_⟩
        rw [State.applySetup_pool_of_off (by rw [hc]; exact off)]
        exact free.regeometry _ _ _
  obtain ⟨-, -, -, -, kept⟩ := all
  exact kept.imp_right And.right

end setup

/-! ### One operation -/

section held

variable {s t : State} {a i : Nat}

/-- Slot `i` is HELD and holds byte `a`. -/
structure HeldByte (s : State) (i a : Nat) : Prop where
  index : i < s.pool.slots.length
  held : ∃ h, (s.slot i).disp = .held h
  lower : s.pool.slotAddr i ≤ a
  upper : a < s.pool.slotAddr i + s.pool.slotBytes

theorem HeldByte.area (h : HeldByte s i a) : s.pool.inArea a = true := SlotPool.inArea_of_slot h.index h.lower h.upper

/-- A landing beat stores into the FILLING member, which is no HELD slot. -/
theorem HeldByte.read_landed {c : Camera} {j n : Nat} (h : HeldByte s i a) (laws : s.poolLaws) (apart : s.regionsApart)
    (filling : s.rings[c].filling = some j) (on : s.cameras[c].enable = true) (below : n < s.cameras[c].frameWords)
    (m : Memory) (w : WriteData) : (m.writeWord (s.pool.slotAddr j + 8 * n) w).read a = m.read a := by
  refine Memory.read_writeWord_of_ne fun k hk _ e => ?_
  obtain ⟨hj, disp⟩ := State.poolLaws.filling laws filling
  obtain ⟨-, -, -, -, inMemory, fits⟩ := apart
  have frame := fits c on
  have words : n < s.cameras[c].w * s.cameras[c].h / 4 := below
  have upper : s.pool.slotAddr j + 8 * n + k < s.pool.slotAddr j + s.pool.slotBytes := by omega
  have here := SlotPool.inArea_of_slot hj (a := s.pool.slotAddr j + 8 * n + k) (by omega) upper
  rw [physical_of_lt (inMemory _ here).1] at e
  subst e
  have same : i = j := SlotPool.slot_unique h.lower h.upper (by omega) upper
  obtain ⟨x, held⟩ := h.held
  rw [same, disp] at held
  cases held

theorem Landed.heldByte {c : Camera} {n : Nat} {w : WriteData} (l : Landed s c n w t) (h : HeldByte s i a)
    (laws : s.poolLaws) (apart : s.regionsApart) (inRange : s.ring.inRange) (on : s.cameras[c].enable = true)
    (below : n < s.cameras[c].frameWords) : t.mem.read a = s.mem.read a := by
  have off : s.ring.outsideRing a := by
    obtain ⟨-, -, -, -, apart, -⟩ := apart
    exact (apart a h.area).2.1
  have after : ∀ {u : State} {k : Nat}, FrameEnded u c k t → u.ring = s.ring → u.mem.read a = s.mem.read a →
      t.mem.read a = s.mem.read a := fun {u k} ended ring mem =>
    (ended.effect.read_of_outsideRing (by rw [ring]; exact inRange) (by rw [ring]; exact off)).trans mem
  cases l with
  | dropped => rfl
  | starved => rfl
  | begun first _ j filling _ outcome =>
    subst first
    exact after outcome (s.beginFrame_ring c j w) (by
      rw [State.beginFrame_mem]
      exact h.read_landed laws apart filling on below s.mem w)
  | begunAnew first _ j filling _ outcome =>
    subst first
    have pool : (s.countTorn c).pool = s.pool := (s.countTorn_touches c).same .pool
    exact after outcome (by rw [State.beginFrame_ring, State.countTorn_ring]) (by
      rw [State.beginFrame_mem, State.countTorn_mem, pool]
      exact h.read_landed laws apart filling on below s.mem w)
  | stored _ j filling _ _ outcome =>
    exact after outcome (by rw [State.landWord_ring, State.setRing_ring])
      (h.read_landed laws apart filling on below s.mem w)
  | marked _ _ outcome => exact after outcome (by rw [State.setRing_ring]) (by rw [State.setRing_mem])

theorem Applied.heldByte (applied : Applied s t) (h : HeldByte s i a) (apart : s.regionsApart)
    (inRange : s.ring.inRange) (valid : s.validate = none) (stays : ∃ h', (t.slot i).disp = .held h') :
    t.mem.read a = s.mem.read a := by
  have loaded : s.applyLoad.mem.read a = s.mem.read a ∧ SameGeometry s s.applyLoad := by
    by_cases table : s.engine.load.table = .setup
    · refine (State.applyLoad_setup_kept apart inRange h.area valid table).resolve_right fun free => ?_
      obtain ⟨h', held⟩ := stays
      rw [applied.effect.touches.slot (by decide) i] at held
      by_cases hi : i < s.applyLoad.pool.slots.length
      · rw [free.slot hi] at held
        cases held
      · rw [State.slot_of_le (Nat.not_lt.mp hi)] at held
        cases held
    · obtain ⟨-, -, -, -, off, -⟩ := apart
      exact ⟨(State.applyLoad_effect table).read_of_outsideRing inRange (off a h.area).2.1,
        State.applyLoad_geometry table⟩
  obtain ⟨read, geometry⟩ := loaded
  obtain ⟨-, -, -, -, off, -⟩ := State.regionsApart_applyLoad apart valid
  exact (applied.effect.read_of_outsideRing (State.applyLoad_ring_inRange inRange valid)
    (off a ((geometry.inArea a).trans h.area)).2.1).trans read

theorem Operation.heldByte (o : Operation s t) (h : HeldByte s i a) (laws : s.poolLaws) (apart : s.regionsApart)
    (inRange : s.ring.inRange) (stays : ∃ h', (t.slot i).disp = .held h') : t.mem.read a = s.mem.read a := by
  have away := apart
  obtain ⟨-, -, -, align, off, -⟩ := away
  obtain ⟨-, outside, page⟩ := off a h.area
  have effect : ∀ {ps : List Piece} {u : State}, Effect ps s u → u.mem.read a = s.mem.read a := fun e =>
    e.read_of_outsideRing inRange outside
  have behind : ∀ {ps : List Piece} {u : State} {n : Nat} {w : WriteData}, n < 512 → Effect ps (s.pageWrite n w) u →
      u.mem.read a = s.mem.read a := fun hn e =>
    (e.read_of_outsideRing inRange outside).trans (State.read_pageWrite page hn _)
  cases o with
  | nothing => rfl
  | drop => rfl
  | store x w aligned below _ area => exact State.read_store align aligned below area h.area w
  | page n w hn => exact State.read_pageWrite page hn w
  | consume w => exact State.read_pageWrite page (by decide) w
  | stage k w => exact behind (by omega) (State.stageBeat_effect _ k w)
  | command d c tag =>
    rcases (State.offer_cases (s.pageWrite 8 ⟨0xFF, d⟩) c tag).effect_or_applied with e | ⟨-, valid, applied⟩
    · exact behind (by decide) e
    · have taken : HeldByte ((s.pageWrite 8 ⟨0xFF, d⟩).takeTag tag) i a := ⟨h.index, h.held, h.lower, h.upper⟩
      exact (applied.heldByte taken apart inRange valid stays).trans (State.read_pageWrite page (by decide) _)
  | land c n w on below => exact (s.landingPhase_cases c n w).heldByte h laws apart inRange on below
  | frameStart k => exact effect (s.frameStart_effect k)
  | status n => exact effect (s.afterStatusRead_effect n)
  | stale c => exact effect (s.staleTimeout_effect c)
  | sample l => exact (State.sampleInstant_effect { s with lines := l }).read_of_outsideRing inRange outside
  | linger k => exact effect (s.lingerExpiry_effect k)
  | close k => exact effect (s.guardClose_effect k)
  | overtime => exact effect s.applyingOvertime_effect

end held

/-- Settles O39. -/
theorem heldSlotsKeepTheirBytes : Obligations.HeldSlotsKeepTheirBytes :=
    fun c s t i h h' a laws apart inRange run hi held held' lower upper => by
  cases notReset : c.isReset with
  | true =>
    cases c with
    | powerOnReset straps =>
      cases run
      rfl
    | resetNFall low refclk =>
      cases run
      rfl
    | _ => cases notReset
  | false =>
    rcases exec_operation notReset run with rfl | ⟨u, p, o, rfl⟩
    · rfl
    · exact o.heldByte ⟨hi, ⟨h, held⟩, lower, upper⟩ laws apart inRange ⟨h', held'⟩

end Sys2Proof.Machine
end

section
/-! The snapshot (O27): its records, how many the Report Writer writes, and what they carry. -/

namespace Sys2Proof.Machine

set_option Elab.async false

/-! ### Free places of the ring -/

/-- How many reports the ring takes before it is full (R177). -/
def ReportRing.places (g : ReportRing) : Nat :=
  if g.configured then g.capacity - 1 - (g.producer + g.capacity - g.consumer) % g.capacity else 0

theorem used_eq {p c n : Nat} (hp : p < n) (hc : c < n) :
    (p + n - c) % n = if c ≤ p then p - c else p + n - c := by
  split
  · rw [show p + n - c = p - c + n by omega, Nat.add_mod_right, Nat.mod_eq_of_lt (by omega)]
  · exact Nat.mod_eq_of_lt (by omega)

theorem next_eq {p n : Nat} (hp : p < n) : (p + 1) % n = if p + 1 = n then 0 else p + 1 := by
  split
  · rename_i h
    rw [h, Nat.mod_self]
  · exact Nat.mod_eq_of_lt (by omega)

/-- A report takes one free place while there is one. -/
theorem ReportRing.places_afterReport {g : ReportRing} (h : g.inRange) :
    g.afterReport.places + bit g.writable = g.places := by
  unfold ReportRing.inRange at h
  unfold ReportRing.places ReportRing.afterReport ReportRing.writable ReportRing.full bit
  cases configured : g.configured with
  | false => simp [configured]
  | true =>
    rw [if_pos configured] at h
    obtain ⟨least, -, hp, hc, -⟩ := h
    have used := used_eq hp hc
    have next := next_eq hp
    by_cases full : (g.producer + 1) % g.capacity = g.consumer
    · simp only [full, decide_true, Bool.not_true, Bool.true_and, if_true, Bool.false_eq_true, if_false]
      omega
    · have hnext : (g.producer + 1) % g.capacity < g.capacity := Nat.mod_lt _ (by omega)
      have after := used_eq hnext hc
      simp only [full, decide_false, Bool.not_true, Bool.not_false, Bool.true_and, if_true,
        Bool.false_eq_true, if_false]
      rw [after, used]
      rw [next] at full ⊢
      split_ifs at full ⊢ <;> omega

theorem ReportRing.writable_places {g : ReportRing} (h : g.inRange) : g.writable = true ↔ 0 < g.places := by
  unfold ReportRing.inRange at h
  unfold ReportRing.places ReportRing.writable ReportRing.full
  cases configured : g.configured with
  | false => simp
  | true =>
    rw [if_pos configured] at h
    obtain ⟨least, -, hp, hc, -⟩ := h
    have used := used_eq hp hc
    have next := next_eq hp
    simp only [Bool.true_and, Bool.not_eq_true', decide_eq_false_iff_not, if_true]
    rw [used, next]
    split_ifs <;> omega

/-- The reports taken and counted: all are handed over, and as many written as there were places. -/
theorem State.emitCounted_foldl (rs : List Report) (u : State) (n : Nat) (h : u.ring.inRange) :
    rs.foldl State.emitCounted (u, n) = (u.emitAll rs, n + min u.ring.places rs.length) := by
  induction rs generalizing u n with
  | nil =>
    show (u, n) = (u, n + min u.ring.places 0)
    rw [Nat.min_zero, Nat.add_zero]
  | cons r rs ih =>
    have step := ReportRing.places_afterReport h
    have writes := ReportRing.writable_places h
    have rest := ih (u.emit r) (n + bit u.ring.writable) (ReportRing.inRange_afterReport h)
    refine rest.trans (Prod.ext rfl ?_)
    show n + bit u.ring.writable + min u.ring.afterReport.places rs.length = n + min u.ring.places (rs.length + 1)
    cases hw : u.ring.writable with
    | true =>
      rw [hw] at step
      change u.ring.afterReport.places + 1 = u.ring.places at step
      show n + 1 + _ = _
      omega
    | false =>
      rw [hw] at step writes
      change u.ring.afterReport.places + 0 = u.ring.places at step
      have none : u.ring.places = 0 := Nat.eq_zero_of_not_pos fun pos => by cases writes.mpr pos
      show n + 0 + _ = _
      omega

/-! ### The records of a snapshot -/

section records

variable {s u : State}

theorem Touches.cameraStatus (h : Touches [.mem, .ring,
  .engine] s u) (c : Camera) : u.cameraStatus c = s.cameraStatus c := by
  unfold State.cameraStatus State.starved
  rw [show u.cameras = s.cameras from h.same .cameras, show u.cadence = s.cadence from h.same .cadence,
    show u.lens = s.lens from h.same .lens, show u.rings = s.rings from h.same .rings]

theorem Touches.spotPlaces (h : Touches [.mem, .ring, .engine] s u) (i : Screen) : u.spotPlaces i = s.spotPlaces i := by
  unfold State.spotPlaces
  rw [show u.spots = s.spots from h.same .spots, show u.time = s.time from h.same .time]

theorem Touches.holdTable (h : Touches [.mem, .ring, .engine] s u) : u.holds.table = s.holds.table := by
  rw [show u.holds = s.holds from h.same .holds]

/-- Records that the reports taken before do not change are those of the state before. -/
theorem foldl_emitCounted {α : Type} (f : State × Nat → α → State × Nat) (report : State → α → Option Report)
    (step : ∀ x a, f x a = match report x.1 a with
      | some r => State.emitCounted x r
      | none => x)
    (same : ∀ {u : State} a, Touches [.mem, .ring, .engine] s u →
      report u a = report s a) (l : List α) (x : State × Nat)
    (here : Effect [] s x.1) : l.foldl f x = (l.filterMap (report s)).foldl State.emitCounted x
      ∧ Effect [] s (l.foldl f x).1 := by
  induction l generalizing x with
  | nil => exact ⟨rfl, here⟩
  | cons a l ih =>
    have hf := step x a
    rw [same a (here.touches.mono (by decide))] at hf
    cases hr : report s a with
    | none =>
      rw [hr] at hf
      rw [List.foldl_cons, hf, List.filterMap_cons_none hr]
      exact ih x here
    | some r =>
      rw [hr] at hf
      rw [List.foldl_cons, hf, List.filterMap_cons_some hr, List.foldl_cons]
      exact ih _ (here.trans (.emit _ _))

/-- The records of a snapshot, in their order (R173). -/
def State.snapshotReports (s : State) : List Report :=
  (List.finRange 16).map (fun c => .cameraStatus c (s.cameraStatus c))
    ++ (List.finRange 4).map (fun i => .spotList i (s.spotPlaces i))
    ++ (List.finRange 16).filterMap (fun h => (s.holds.table.get h).map (.holdList h))

theorem filterMap_some_eq_map {α β : Type} (f : α → β) (l : List α) : (l.filterMap fun a => some (f a)) = l.map f :=
  congrFun (List.filterMap_eq_map (f := f)) l

theorem State.snapshotRecords_eq (h : s.ring.inRange) :
    s.snapshotRecords = (s.emitAll s.snapshotReports, min s.ring.places s.snapshotReports.length) := by
  obtain ⟨cameras, afterCameras⟩ := foldl_emitCounted (s := s)
    (fun (x : State × Nat) c => State.emitCounted x (.cameraStatus c (x.1.cameraStatus c)))
    (fun u (c : Camera) => some (.cameraStatus c (u.cameraStatus c))) (fun _ _ => rfl)
    (fun c e => by rw [e.cameraStatus]) (List.finRange 16) (s, 0) (.refl [] s)
  obtain ⟨spots, afterSpots⟩ := foldl_emitCounted (s := s)
    (fun (x : State × Nat) i => State.emitCounted x (.spotList i (x.1.spotPlaces i)))
    (fun u (i : Screen) => some (.spotList i (u.spotPlaces i))) (fun _ _ => rfl)
    (fun i e => by rw [e.spotPlaces]) (List.finRange 4) _ afterCameras
  obtain ⟨holds, -⟩ := foldl_emitCounted (s := s)
    (fun (x : State × Nat) h => match x.1.holds.table.get h with
      | some y => State.emitCounted x (.holdList h y)
      | none => x)
    (fun u (h : HoldId) => (u.holds.table.get h).map (.holdList h))
    (fun x h => by cases x.1.holds.table.get h <;> rfl)
    (fun h e => by rw [e.holdTable]) (List.finRange 16) _ afterSpots
  have all : s.snapshotRecords = s.snapshotReports.foldl State.emitCounted (s, 0) := by
    unfold State.snapshotReports
    rw [List.foldl_append, List.foldl_append, ← filterMap_some_eq_map, ← filterMap_some_eq_map, ← cameras, ← spots,
      ← holds]
    rfl
  rw [all, State.emitCounted_foldl _ _ _ h, Nat.zero_add]

/-- What a command's word changes is no part of the records. -/
theorem Touches.snapshotReports (h : Touches [.mem, .ring, .engine] s u) : u.snapshotReports = s.snapshotReports := by
  unfold State.snapshotReports
  rw [h.holdTable, show u.cameraStatus = s.cameraStatus from funext h.cameraStatus,
    show u.spotPlaces = s.spotPlaces from funext h.spotPlaces]

theorem State.snapshotReports_length (s : State) : s.snapshotReports.length = 20 + s.holdCount := by
  have holds : ∀ l : List HoldId, (l.filterMap fun h => (s.holds.table.get h).map (Report.holdList h)).length
      = l.countP fun h => (s.holds.table.get h).isSome := fun l => by
    induction l with
    | nil => rfl
    | cons h l ih =>
      cases hx : s.holds.table.get h <;> simp [hx, ih]
  unfold State.snapshotReports State.holdCount
  rw [List.length_append, List.length_append, holds, List.length_map, List.length_map, List.length_finRange,
    List.length_finRange]

/-- In an ordered list the governing entry is the first, and no other has its origin. -/
theorem SpotList.inOrder.lingerAt {l : SpotList} (order : l.inOrder) {n : Nat} {e : SpotEntry}
    (he : l.entries[n]? = some e) (t : Time) :
    l.lingerAt t e = if n = 0 then e.linger - l.counted t else e.linger := by
  unfold SpotList.lingerAt SpotList.governing
  cases hl : l.entries with
  | nil =>
    rw [hl] at he
    cases he
  | cons g rest =>
    have nodup := order.origins
    rw [hl] at he nodup
    rw [List.map_cons, List.nodup_cons] at nodup
    cases n with
    | zero =>
      cases he
      exact (if_pos rfl).trans (if_pos rfl).symm
    | succ n =>
      have member : e ∈ rest := List.mem_of_getElem? he
      rw [if_neg fun same => ?_, if_neg (Nat.succ_ne_zero n)]
      exact nodup.1 (Option.some.inj same ▸ List.mem_map_of_mem member)

end records

/-- Settles O27. -/
theorem snapshotReportsEveryBlock : Obligations.SnapshotReportsEveryBlock := by
  refine ⟨fun r tag spare s running role idle inRange => ?_, fun s c => ?_, fun s i order => ⟨?_, fun n e he => ?_⟩⟩
  · intro places
    have code : commandByte (commandWord 0x40 tag spare) 0 = 0x40 := commandByte_commandWord_zero ..
    have run : exec (.snapshot r tag spare) s
        = .next (((s.taken (commandWord 0x40 tag spare) tag).idleSnapshot).completeWrite r) :=
      commandWrite_idle running role idle (by decide) _ tag
    have touches := (s.taken_touches (commandWord 0x40 tag spare) tag).trans
      (State.idleSnapshot_effect (s.taken (commandWord 0x40 tag spare) tag)).touches
    refine ⟨_, run, touches.completeWrite r (by decide), ?_⟩
    have records := State.snapshotRecords_eq (s := s.taken (commandWord 0x40 tag spare) tag) inRange
    have snapshot : (s.taken (commandWord 0x40 tag spare) tag).idleSnapshot
        = ((s.taken (commandWord 0x40 tag spare) tag).emitAll s.snapshotReports).finish 0x40 .done .none 0
          (BitVec.ofNat 16 (min s.ring.places (20 + s.holdCount))) := by
      rw [((s.taken_touches _ tag).mono (by decide)).snapshotReports, State.snapshotReports_length,
        show (s.taken (commandWord 0x40 tag spare) tag).ring
          = s.ring from (s.taken_touches _ tag).same .ring] at records
      unfold State.idleSnapshot
      rw [records]
    have log := (s.taken_logged (commandWord 0x40 tag spare) tag).trans (Logged.emitAll _ s.snapshotReports)
    have emitted := Effect.emitAll (s.taken (commandWord 0x40 tag spare) tag) s.snapshotReports
    have engine : ((s.taken (commandWord 0x40 tag spare) tag).emitAll s.snapshotReports).engine
        = { s.engine with lastTag := tag } := emitted.same .engine
    have answer := answered_of_finish r inRange log (congrArg Engine.lastTag engine) (emitted.same .port) .done .none 0
      (BitVec.ofNat 16 (min s.ring.places (20 + s.holdCount)))
    rw [code, engine] at answer
    rw [snapshot]
    exact answer
  · exact ⟨rfl, rfl, rfl, State.starved_iff, rfl, rfl, rfl, rfl, rfl, rfl, rfl, rfl, rfl⟩
  · exact List.length_map _
  · intro counted left
    unfold State.spotPlaces
    rw [List.getElem?_map, he, Option.map_some, order.lingerAt he]
    rfl

end Sys2Proof.Machine
end

section
/-! Notices to the screens, door states and debouncers (O34). -/

namespace Sys2Proof.Machine

set_option Elab.async false

/-! ### One change for each screen -/

section screens

variable {s : State} {x : Screen → SpotList × List Report} {f : State → Screen → State}

/-- A fold that changes one screen's list at a time, by what the lists held before. -/
theorem spots_foldl (step : ∀ u i, u.time = s.time → u.spots[i] = s.spots[i] →
      f u i = u.spotTo i (x i) ∨ f u i = u ∧ x i = (s.spots[i], []))
    (l : List Screen) (nodup : l.Nodup) (u : State) (time : u.time = s.time)
    (fresh : ∀ i ∈ l, u.spots[i] = s.spots[i]) :
    (∀ i ∈ l, (l.foldl f u).spots[i] = (x i).1) ∧ (∀ i, i ∉ l → (l.foldl f u).spots[i] = u.spots[i])
      ∧ Logged (l.flatMap fun i => (x i).2) u (l.foldl f u) := by
  induction l generalizing u with
  | nil => exact ⟨fun _ h => (List.not_mem_nil h).elim, fun _ _ => rfl, .refl u⟩
  | cons i l ih =>
    obtain ⟨notIn, nodup⟩ := List.nodup_cons.mp nodup
    have one : (f u i).spots[i] = (x i).1 ∧ (∀ j, j ≠ i → (f u i).spots[j] = u.spots[j])
        ∧ Logged (x i).2 u (f u i) := by
      rcases step u i time (fresh i (List.mem_cons_self ..)) with h | ⟨h, hx⟩
      · rw [h]
        exact ⟨State.spotTo_spot .., fun j hj => State.spotTo_others _ _ _ hj, State.spotTo_logged ..⟩
      · rw [h, hx]
        exact ⟨fresh i (List.mem_cons_self ..), fun _ _ => rfl, .refl u⟩
    obtain ⟨here, others, log⟩ := one
    have ne : ∀ j ∈ l, j ≠ i := fun j hj e => notIn (e ▸ hj)
    obtain ⟨inside, outside, logs⟩ := ih nodup (f u i) (log.2.2.trans time) fun j hj =>
      (others j (ne j hj)).trans (fresh j (List.mem_cons_of_mem _ hj))
    refine ⟨fun j hj => ?_, fun j hj => ?_, log.trans logs⟩
    · rcases List.mem_cons.mp hj with rfl | hj
      · exact (outside j notIn).trans here
      · exact inside j hj
    · obtain ⟨hne, hj⟩ := not_or.mp (List.mem_cons.not.mp hj)
      exact (outside j hj).trans (others j hne)

/-- The same over all four screens. -/
theorem spots_foldl_all (step : ∀ u i, u.time = s.time → u.spots[i] = s.spots[i] →
      f u i = u.spotTo i (x i) ∨ f u i = u ∧ x i = (s.spots[i], [])) :
    (∀ i : Screen, ((List.finRange 4).foldl f s).spots[i] = (x i).1)
      ∧ Logged ((List.finRange 4).flatMap fun i => (x i).2) s ((List.finRange 4).foldl f s) := by
  obtain ⟨all, -, log⟩ := spots_foldl step (List.finRange 4) (List.nodup_finRange 4) s rfl fun _ _ => rfl
  exact ⟨fun i => all i (List.mem_finRange i), log⟩

/-- What a raise notice makes of one screen's list. -/
def raisedFor (s : State) (o : Origin) (q : SpotRequest) (i : Screen) : SpotList × List Report :=
  if q.mask.getLsbD i.val then
    ((raiseIn i s.time o q.level q.layout s.spots[i]).1, (raiseIn i s.time o q.level q.layout s.spots[i]).2.1)
  else (s.spots[i], [])

theorem State.raiseOrigin_spots (s : State) (o : Origin) (q : SpotRequest) :
    (∀ i : Screen, (s.raiseOrigin o q).spots[i] = (raisedFor s o q i).1)
      ∧ Logged ((List.finRange 4).flatMap fun i => (raisedFor s o q i).2) s (s.raiseOrigin o q) := by
  refine spots_foldl_all fun u i time spot => ?_
  unfold raisedFor
  split
  · refine .inl ?_
    unfold State.raiseOn
    rw [time, spot]
  · exact .inr ⟨rfl, rfl⟩

theorem State.endOrigin_spots (s : State) (o : Origin) (lingerMs : Nat) :
    (∀ i : Screen, (s.endOrigin o lingerMs).spots[i] = (endIn i s.time o lingerMs s.spots[i]).1)
      ∧ Logged ((List.finRange 4).flatMap fun i => (endIn i s.time o lingerMs s.spots[i]).2) s
        (s.endOrigin o lingerMs) := by
  refine spots_foldl_all fun u i time spot => .inl ?_
  unfold State.endOn
  rw [time, spot]

end screens

/-! ### Door states -/

theorem State.withDoorUnit_emitAll (u : State) (x : DoorUnit) (rs : List Report) :
    { u.emitAll rs with doorUnit := x } = { u with doorUnit := x }.emitAll rs := by
  induction rs generalizing u with
  | nil => rfl
  | cons r rs ih => exact ih (u.emit r)

/-- The door unit with a door's state stored. -/
def DoorUnit.stored (x : DoorUnit) (d : Door) (y : DoorState) : DoorUnit := { x with states := upd x.states d y }

/-- The DOOR report of a change of state (R117). -/
def doorReports (d : Door) (old new : DoorState) (cause : DoorCause) : List Report :=
  if old = new then [] else [.door d old new cause]

theorem State.setDoorState_eq (s : State) (d : Door) (x : DoorState) (cause : DoorCause) :
    s.setDoorState d x cause = { s with doorUnit := s.doorUnit.stored d x }.emitAll
      (doorReports d (s.doorUnit.states.get d) x cause) := by
  unfold State.setDoorState doorReports
  dsimp only
  by_cases h : x = s.doorUnit.states.get d
  · rw [if_pos h, if_pos h.symm]
    rfl
  · rw [if_neg h, if_neg (Ne.symm h)]
    rfl

section states

variable {form : Door → DoorState} {cause : DoorCause}

/-- Door states formed one by one: all of them, and a report for each change. -/
theorem doorStates_foldl {f : State → Door → State} {good : State → Prop}
    (step : ∀ u d, good u → f u d = u.setDoorState d (form d) cause) (keeps : ∀ u d, good u → good (f u d))
    (l : List Door) (nodup : l.Nodup) (u : State) (here : good u) :
    l.foldl f u = { u with doorUnit := l.foldl (fun x d => x.stored d (form d)) u.doorUnit }.emitAll
      (l.flatMap fun d => doorReports d (u.doorUnit.states.get d) (form d) cause) := by
  induction l generalizing u with
  | nil => rfl
  | cons d l ih =>
    obtain ⟨notIn, nodup⟩ := List.nodup_cons.mp nodup
    have first := step u d here
    have unit : (f u d).doorUnit = u.doorUnit.stored d (form d) := by
      rw [first, State.setDoorState_eq, State.emitAll_doorUnit]
    have others : (l.flatMap fun d' => doorReports d' ((f u d).doorUnit.states.get d') (form d') cause)
        = l.flatMap fun d' => doorReports d' (u.doorUnit.states.get d') (form d') cause := by
      refine List.flatMap_congr fun d' hd => ?_
      rw [unit]
      exact congrArg (fun x => doorReports d' x (form d') cause)
        (upd_get_of_ne u.doorUnit.states (form d) fun e => notIn (e ▸ hd))
    rw [List.foldl_cons, ih nodup (f u d) (keeps u d here), others, unit, first, State.setDoorState_eq,
      State.withDoorUnit_emitAll, ← State.emitAll_append]
    rfl

theorem stored_foldl_states (l : List Door) (x : DoorUnit) (d : Door) :
    (l.foldl (fun x d => x.stored d (form d)) x).states.get d = if d ∈ l then form d else x.states.get d := by
  induction l generalizing x with
  | nil => simp
  | cons e l ih =>
    rw [List.foldl_cons, ih]
    by_cases inside : d ∈ l
    · rw [if_pos inside, if_pos (List.mem_cons_of_mem _ inside)]
    · rw [if_neg inside]
      by_cases same : d = e
      · subst same
        rw [if_pos (List.mem_cons_self ..)]
        exact upd_get_self ..
      · rw [if_neg fun h => (List.mem_cons.mp h).elim same inside]
        exact upd_get_of_ne _ _ same

/-- Storing states leaves the debouncers and the sample instant. -/
theorem stored_foldl_debouncers (l : List Door) (x : DoorUnit) :
    (l.foldl (fun x d => x.stored d (form d)) x) =
      { x with states := (l.foldl (fun x d => x.stored d (form d)) x).states } := by
  induction l generalizing x with
  | nil => rfl
  | cons e l ih => exact ih (x.stored e (form e))

end states

/-- A door's state by the enable and the accepted levels (R116). -/
theorem doorStateOf_eq (enable : Bool) (alert opn : Option Bool) : doorStateOf enable alert opn =
    if enable = false then .closed
    else if alert = none ∨ opn = none then .unknown
    else if alert = some true then .alert
    else if opn = some true then .opened
    else .closed := by
  cases enable with
  | false => rfl
  | true =>
    rcases alert with _ | _ | _ <;> rcases opn with _ | _ | _ <;> rfl

/-- A debouncer's sample (R113). -/
theorem Debouncer.sample_eq (d : Debouncer) (x : Bool) : d.sample x =
    if d.accepted = some x then ⟨some x, none, 0⟩
    else if d.candidate = some x then
      if d.run + 1 = 3 then ⟨some x, none, 0⟩ else ⟨d.accepted, some x, d.run + 1⟩
    else ⟨d.accepted, some x, 1⟩ := by
  unfold Debouncer.sample
  by_cases accepted : d.accepted = some x
  · rw [if_pos accepted, if_pos accepted, ← accepted]
  · rw [if_neg accepted, if_neg accepted]
    by_cases candidate : d.candidate = some x
    · rw [if_pos candidate, if_pos candidate, ← candidate]
    · rw [if_neg candidate, if_neg candidate]

end Sys2Proof.Machine
end

section
/-! A sample instant (O34). -/

namespace Sys2Proof.Machine

set_option Elab.async false

/-- Two folds that agree where an invariant holds. -/
theorem foldl_congr_inv {α β : Type} {f g : β → α → β} {I : β → Prop} (l : List α) (s : β) (here : I s)
    (same : ∀ u a, I u → f u a = g u a) (keeps : ∀ u a, I u → I (f u a)) :
    l.foldl f s = l.foldl g s ∧ I (l.foldl f s) := by
  induction l generalizing s with
  | nil => exact ⟨rfl, here⟩
  | cons a l ih =>
    obtain ⟨equal, inv⟩ := ih (f s a) (keeps s a here)
    exact ⟨equal.trans (by rw [same s a here]; rfl), inv⟩

theorem levelActive_eq (a : Option Bool) : levelActive a = decide (a = some true) := by
  rcases a with _ | _ | _ <;> rfl

theorem State.notice_eq (s : State) (o : Origin) (q : SpotRequest) (was is : Bool) : s.notice o q was is =
    if was = false ∧ is = true then s.raiseOrigin o q
    else if was = true ∧ is = false then s.endOrigin o q.lingerMs
    else s := by
  unfold State.notice
  cases was <;> cases is <;> rfl

section sample

variable {s u : State}

/-- The door states that the accepted levels form. -/
def State.formedState (s : State) (d : Door) : DoorState :=
  doorStateOf s.doors[d].enable (s.doorUnit.alerts.get d).accepted (s.doorUnit.opens.get d).accepted

/-- The door unit with all states formed. -/
def State.formedUnit (s : State) : DoorUnit := (List.finRange 12).foldl (fun x d => x.stored d
  (s.formedState d)) s.doorUnit

theorem State.formedUnit_states (s : State) (d : Door) : s.formedUnit.states.get d = s.formedState d := by
  unfold State.formedUnit
  rw [stored_foldl_states]
  exact if_pos (List.mem_finRange d)

theorem State.formedUnit_eq (s : State) : s.formedUnit = { s.doorUnit with states := s.formedUnit.states } :=
  stored_foldl_debouncers (form := s.formedState) _ _

theorem State.sampleStates_eq (s : State) : s.sampleStates = { s with doorUnit := s.formedUnit }.emitAll
    ((List.finRange 12).flatMap fun d =>
      doorReports d (s.doorUnit.states.get d) (s.formedUnit.states.get d) .lines) := by
  simp only [State.formedUnit_states]
  refine doorStates_foldl (good := fun u => u.doors = s.doors ∧ u.doorUnit.alerts = s.doorUnit.alerts
    ∧ u.doorUnit.opens = s.doorUnit.opens) (fun u d good => ?_) (fun u d good => ?_) _ (List.nodup_finRange 12) s
    ⟨rfl, rfl, rfl⟩
  · obtain ⟨doors, alerts, opens⟩ := good
    rw [doors, alerts, opens]
    rfl
  · obtain ⟨doors, alerts, opens⟩ := good
    rw [State.setDoorState_eq, State.emitAll_doors, State.emitAll_doorUnit]
    exact ⟨doors, alerts, opens⟩

/-- The notices of one door's sources (R114 step 3). -/
def State.noticeDoor (doors : Vector DoorRec 12) (old new : DoorUnit) (u : State) (d : Door) : State :=
  if doors[d].enable then
    (u.notice (.doorOpen d) doors[d].openReq (levelActive (old.opens.get d).accepted)
      (levelActive (new.opens.get d).accepted)).notice (.doorAlert d) doors[d].alertReq
      (levelActive (old.alerts.get d).accepted) (levelActive (new.alerts.get d).accepted)
  else u

/-- The doors' tables and levels stand. -/
def DoorsKept (s u : State) : Prop := u.doors = s.doors ∧ u.doorUnit = s.doorUnit ∧ u.setup = s.setup

theorem Effect.doorsKept {ps : List Piece} {v : State} (e : Effect ps u v) (h : DoorsKept s u)
    (off : ∀ p ∈ [Piece.doors, .doorUnit, .setup], p ∉ .mem :: .ring :: ps) : DoorsKept s v := by
  obtain ⟨doors, unit, setup⟩ := h
  exact ⟨(e.same .doors (off .doors (by decide))).trans doors,
    (e.same .doorUnit (off .doorUnit (by decide))).trans unit,
    (e.same .setup (off .setup (by decide))).trans setup⟩

/-- The notices of one door as the unit gives them at a sample. -/
def State.noticeStep (before : DoorUnit) (u : State) (d : Door) : State :=
  let en := u.doors[d].enable
  let a := u.notice (.doorOpen d) u.doors[d].openReq (en && levelActive (before.opens.get d).accepted) (u.openActive d)
  a.notice (.doorAlert d) a.doors[d].alertReq (en && levelActive (before.alerts.get d).accepted) (a.alertActive d)

theorem State.noticeStep_kept {before : DoorUnit} (h : DoorsKept s u) (d : Door) :
    DoorsKept s (u.noticeStep before d) :=
  ((u.notice_effect _ _ _ _).trans (State.notice_effect _ _ _ _ _)).doorsKept h (by decide)

theorem State.noticeStep_eq {before : DoorUnit} (h : DoorsKept s u) (d : Door) :
    u.noticeStep before d = State.noticeDoor s.doors before s.doorUnit u d := by
  obtain ⟨hd, hu, -⟩ := h
  have first := u.notice_effect (.doorOpen d) u.doors[d].openReq
    (u.doors[d].enable && levelActive (before.opens.get d).accepted) (u.openActive d)
  have sameDoors := first.same .doors
  have sameUnit := first.same .doorUnit
  unfold State.noticeStep State.alertActive
  dsimp only
  rw [sameDoors, sameUnit, State.openActive, hd, hu]
  unfold State.noticeDoor
  cases s.doors[d].enable with
  | true => simp
  | false => simp [State.notice]

theorem State.sampleNotices_eq (s : State) (before : DoorUnit) : s.sampleNotices before =
    ((List.finRange 12).foldl (State.noticeDoor s.doors before s.doorUnit) s).notice .reverse s.setup.reverse
      (levelActive before.reverse.accepted) (levelActive s.doorUnit.reverse.accepted) := by
  obtain ⟨doors, -, unit, setup⟩ := foldl_congr_inv (I := DoorsKept s) (f := State.noticeStep before)
    (g := State.noticeDoor s.doors before s.doorUnit) (List.finRange 12) s ⟨rfl, rfl, rfl⟩
    (fun u d h => State.noticeStep_eq h d) fun u d h => State.noticeStep_kept h d
  unfold State.noticeStep at doors unit setup
  unfold State.sampleNotices
  dsimp only at doors unit setup ⊢
  rw [setup, unit, doors]

/-- The hold trigger of one door (R114 step 4). -/
def State.triggerDoor (doors : Vector DoorRec 12) (old new : DoorUnit) (u : State) (d : Door) : State :=
  if doors[d].enable = true ∧ doors[d].holdFlag = true ∧ levelActive (new.alerts.get d).accepted = true
      ∧ levelActive (old.alerts.get d).accepted = false then
    (u.take (.doorAlert d) (Fin.ofNat 16 doors[d].camera) doors[d].post).1
  else u

theorem State.sampleTriggers_eq (s : State) (before : DoorUnit) : s.sampleTriggers before =
    (List.finRange 12).foldl (State.triggerDoor s.doors before s.doorUnit) s := by
  refine (foldl_congr_inv (I := DoorsKept s) (List.finRange 12) s ⟨rfl, rfl, rfl⟩ (fun u d h => ?_)
    fun u d h => ?_).1
  · obtain ⟨doors, unit, -⟩ := h
    unfold State.triggerDoor State.holdTrigger
    rw [doors, unit]
    simp only [Bool.and_eq_true, Bool.not_eq_true', and_assoc]
  · split
    · exact (u.take_effect _ _ _).doorsKept h (by decide)
    · exact h

/-- The part after a sample, from the unit as it stood before it. -/
theorem State.sampleLines_eq (s : State) :
    let x := { s with doorUnit := s.doorUnit.sampled s.lines }
    let formed := { s with doorUnit := x.formedUnit }.emitAll
      ((List.finRange 12).flatMap fun d => doorReports d (s.doorUnit.states.get d) (x.formedUnit.states.get d) .lines)
    let doors := (List.finRange 12).foldl (State.noticeDoor s.doors s.doorUnit x.formedUnit) formed
    s.sampleLines = (List.finRange 12).foldl (State.triggerDoor s.doors s.doorUnit x.formedUnit)
      (doors.notice .reverse s.setup.reverse (levelActive s.doorUnit.reverse.accepted)
        (levelActive x.formedUnit.reverse.accepted)) := by
  intro x formed doors
  have states : x.sampleStates = formed := x.sampleStates_eq
  have kept : formed.doors = s.doors ∧ formed.doorUnit = x.formedUnit ∧ formed.setup = s.setup := by
    refine ⟨?_, ?_, ?_⟩
    · exact State.emitAll_doors _ _
    · exact State.emitAll_doorUnit _ _
    · exact State.emitAll_setup _ _
  obtain ⟨kd, ku, ks⟩ := kept
  have notices := State.sampleNotices_eq formed s.doorUnit
  rw [kd, ku, ks] at notices
  have after : DoorsKept formed (formed.sampleNotices s.doorUnit) :=
    (State.sampleNotices_effect formed s.doorUnit).doorsKept ⟨rfl, rfl, rfl⟩ (by decide)
  obtain ⟨ad, au, -⟩ := after
  have triggers := State.sampleTriggers_eq (formed.sampleNotices s.doorUnit) s.doorUnit
  rw [ad, au, kd, ku] at triggers
  show (x.sampleStates.sampleNotices s.doorUnit).sampleTriggers s.doorUnit = _
  rw [states, triggers, notices]

end sample

end Sys2Proof.Machine
end

section
/-! The sample instant's statement (O34). -/

namespace Sys2Proof.Machine

set_option Elab.async false

theorem State.noticeDoor_effect (doors : Vector DoorRec 12) (old new : DoorUnit) (u : State) (d : Door) :
    Effect [.spots] u (State.noticeDoor doors old new u d) :=
  .ite (fun _ => ((u.notice_effect _ _ _ _).trans (State.notice_effect _ _ _ _ _)).mono (by decide))
    fun _ => .refl _ u

theorem State.triggerDoor_effect (doors : Vector DoorRec 12) (old new : DoorUnit) (u : State) (d : Door) :
    Effect [.holds, .pool, .rings] u (State.triggerDoor doors old new u d) :=
  .ite (fun _ => (u.take_effect _ _ _).mono (by decide)) fun _ => .refl _ u

/-- The unit with its debouncers' samples taken and its states formed. -/
def State.sampledUnit (s : State) : DoorUnit := { s with doorUnit := s.doorUnit.sampled s.lines }.formedUnit

theorem State.sampledUnit_debouncers (s : State) :
    s.sampledUnit = { s.doorUnit.sampled s.lines with states := s.sampledUnit.states } :=
  State.formedUnit_eq _

/-- A sample leaves the unit sampled, and the lines as they are. -/
theorem State.sampleLines_unit (s : State) :
    s.sampleLines.doorUnit = s.sampledUnit ∧ s.sampleLines.lines = s.lines := by
  rw [s.sampleLines_eq]
  have after : ∀ u : State, Effect [.spots, .holds, .pool, .rings] u
      ((List.finRange 12).foldl (State.triggerDoor s.doors s.doorUnit s.sampledUnit)
        (State.notice ((List.finRange 12).foldl (State.noticeDoor s.doors s.doorUnit s.sampledUnit) u) .reverse
          s.setup.reverse (levelActive s.doorUnit.reverse.accepted) (levelActive s.sampledUnit.reverse.accepted))) :=
    fun u => Effect.mono (((Effect.foldl (fun u d => State.noticeDoor_effect _ _ _ u d) _ u).trans
      (State.notice_effect _ _ _ _ _)).trans (Effect.foldl (fun u d => State.triggerDoor_effect _ _ _ u d) _ _))
        (by decide)
  constructor
  · exact ((after _).same .doorUnit).trans (State.emitAll_doorUnit _ _)
  · exact ((after _).same .lines).trans (State.emitAll_lines _ _)

theorem filterMap_doorReports (l : List Door) (old new : Door → DoorState) (cause : DoorCause) :
    (l.flatMap fun d => doorReports d (old d) (new d) cause)
      = l.filterMap fun d => if old d = new d then none else some (.door d (old d) (new d) cause) := by
  rw [List.filterMap_eq_flatMap_toList]
  refine List.flatMap_congr fun d _ => ?_
  unfold doorReports
  split <;> rfl

/-- Settles O34. -/
theorem sampleInstantDebouncesTheLines : Obligations.SampleInstantDebouncesTheLines := by
  refine ⟨fun opens alerts rev s running => ?_, fun s o q lingerMs => ?_⟩
  · intro accept
    have sample : ∀ d x, Debouncer.sample d x = accept d x := Debouncer.sample_eq
    refine ⟨fun due => ?_, fun early => ?_⟩
    · let v : State := { s with
        lines := ⟨opens, alerts, rev⟩
        doorUnit := { s.doorUnit with lastSample := s.doorUnit.lastSample + BitVec.ofNat 32 s.setup.debounce } }
      have run : exec (.sampleInstant opens alerts rev) s = .next v.sampleLines := by
        rw [exec_sampleInstant running]
        exact congrArg _ (if_pos (decide_eq_true due))
      obtain ⟨unit, lines⟩ := v.sampleLines_unit
      have whole := v.sampleLines_eq
      have bouncers := v.sampledUnit_debouncers
      have states : ∀ d, v.sampledUnit.states.get d = _ := State.formedUnit_states _
      have touches : Touches [.lines, .doorUnit, .spots, .holds, .pool, .rings, .mem, .ring] s v.sampleLines := by
        have changed : Touches [.lines, .doorUnit] s v := fun p hp => by
          cases p <;> first | rfl | exact absurd (by decide) hp
        exact (changed.trans v.sampleLines_effect.touches).mono (by decide)
      refine ⟨_, run, touches, lines, ?_⟩
      generalize v.sampleLines = t at *
      have stored : t.doorUnit = { v.doorUnit.sampled v.lines with states := v.sampledUnit.states } :=
        unit.trans bouncers
      refine ⟨by rw [stored]; rfl, by rw [stored]; exact sample _ _, fun d => ⟨?_, ?_, ?_⟩, ?_⟩
      · rw [stored]
        exact (by simp [DoorUnit.sampled, sample, v])
      · rw [stored]
        exact (by simp [DoorUnit.sampled, sample, v])
      · have alerts : v.sampledUnit.alerts = (v.doorUnit.sampled v.lines).alerts := by rw [bouncers]
        have opens : v.sampledUnit.opens = (v.doorUnit.sampled v.lines).opens := by rw [bouncers]
        rw [unit, states, State.formedState, doorStateOf_eq, alerts, opens]
      · intro on notice formed doors noticed
        have reports := filterMap_doorReports (List.finRange 12) s.doorUnit.states.get t.doorUnit.states.get .lines
        have told : ∀ u o q was is, State.notice u o q was is = notice u o q was is := State.notice_eq
        have active : ∀ x : Debouncer, levelActive x.accepted = on x := fun x => levelActive_eq x.accepted
        have noticing : State.noticeDoor v.doors v.doorUnit v.sampledUnit = fun (u : State) (d : Door) =>
            if s.doors[d].enable then
              notice (notice u (.doorOpen d) s.doors[d].openReq (on (s.doorUnit.opens.get d)) (on
                (t.doorUnit.opens.get d)))
                (.doorAlert d) s.doors[d].alertReq (on (s.doorUnit.alerts.get d)) (on (t.doorUnit.alerts.get d))
            else u := by
          funext u d
          unfold State.noticeDoor
          rw [active, active, active, active, told, told, unit]
        have triggering : State.triggerDoor v.doors v.doorUnit v.sampledUnit = fun (u : State) (d : Door) =>
            if s.doors[d].enable = true ∧ s.doors[d].holdFlag = true ∧ on (t.doorUnit.alerts.get d) = true
                ∧ on (s.doorUnit.alerts.get d) = false then
              (u.take (.doorAlert d) (Fin.ofNat 16 s.doors[d].camera) s.doors[d].post).1
            else u := by
          funext u d
          unfold State.triggerDoor
          rw [active, active, unit]
        have start : formed = { v with doorUnit := v.sampledUnit }.emitAll ((List.finRange 12).flatMap fun d =>
            doorReports d (v.doorUnit.states.get d) (v.sampledUnit.states.get d) .lines) := by
          rw [← unit]
          show State.emitAll { s with lines := t.lines, doorUnit := t.doorUnit } _ = _
          rw [← reports, lines]
        show t = List.foldl _ (notice (List.foldl _ formed _) .reverse s.setup.reverse (on s.doorUnit.reverse)
          (on t.doorUnit.reverse)) _
        rw [← triggering, ← noticing, ← told, ← active, ← active, start, unit]
        exact whole
    · rw [exec_sampleInstant running]
      exact congrArg _ (if_neg (by rw [State.sampleDue, decide_eq_true_iff]; exact Nat.not_le.mpr early))
  · intro raised ended
    obtain ⟨raisedSpots, raisedLog⟩ := s.raiseOrigin_spots o q
    obtain ⟨endedSpots, endedLog⟩ := s.endOrigin_spots o lingerMs
    refine ⟨(s.raiseOrigin_effect o q).touches.mono (by decide),
      (s.endOrigin_effect o lingerMs).touches.mono (by decide),
      fun i => (raisedSpots i).trans ?_, endedSpots, ?_, endedLog.reported_self⟩
    · unfold raisedFor
      split <;> rfl
    · have reports : (fun i : Screen => (raisedFor s o q i).2) = fun i : Screen =>
          if q.mask.getLsbD i.val then (raiseIn i s.time o q.level q.layout s.spots[i]).2.1 else [] := by
        funext i
        unfold raisedFor
        split <;> rfl
      rw [reports] at raisedLog
      exact raisedLog.reported_self

end Sys2Proof.Machine
end

section
/-! The composing of a screen word (O51): the covers of R110 and the pane arithmetic of R88 to R91. -/

namespace Sys2Proof.Machine

set_option Elab.async false

/-! ### Words of pixels -/

theorem bytesOfWord_wordOfBytes (bs : List Byte) (eight : bs.length = 8) : bytesOfWord (wordOfBytes bs) = bs := by
  refine List.ext_getElem (by simp [bytesOfWord, eight]) fun j hj hj' => ?_
  unfold bytesOfWord at hj ⊢
  rw [List.getElem_map, List.getElem_range, byteOf_wordOfBytes bs (by omega) j hj']

theorem bytesOfWord_wordOfPairs (p q : Pair) :
    bytesOfWord (wordOfPairs p q) = [p.y0, p.cb, p.y1, p.cr, q.y0, q.cb, q.y1, q.cr] :=
  bytesOfWord_wordOfBytes _ rfl

theorem Color.bytesOfWord_word (k : Color) : bytesOfWord k.word = [k.y, k.cb, k.y, k.cr, k.y, k.cb, k.y, k.cr] :=
  bytesOfWord_wordOfBytes _ rfl

theorem blackFill_word : blackFill.word = 0x8010801080108010 := by decide

/-! ### The word of a scan context -/

section
variable (ctx : ScanContext) (m : Memory) (x y : Nat)

theorem ScanContext.wordAt_background (bare : ∀ e ∈ ctx.panes, e.contains x y = false) :
    ctx.wordAt m x y = ctx.background.word := by
  unfold ScanContext.wordAt
  rw [List.find?_eq_none.2 fun e he => by rw [bare e he]; decide]

theorem ScanContext.wordAt_pane {before after : List PaneEntry} {e : PaneEntry}
    (split : ctx.panes = before ++ e :: after) (earlier : ∀ e' ∈ before, e'.contains x y = false)
    (inside : e.contains x y = true) :
    ctx.wordAt m x y = wordOfPairs (e.pairAt m ctx.blink x y 0) (e.pairAt m ctx.blink x y 1) := by
  have first : (ctx.panes.find? fun e => e.contains x y) = some e := by
    rw [split, List.find?_append, List.find?_eq_none.2 fun e' he => by rw [earlier e' he]; decide]
    exact List.find?_cons_of_pos (p := fun e : PaneEntry => e.contains x y) inside
  unfold ScanContext.wordAt
  rw [first]

end

theorem ScanContext.readAt_padding (ctx : ScanContext) (m : Memory) {off : Nat}
    (h : ctx.height ≤ off / ctx.stride ∨ ctx.width * 2 ≤ off % ctx.stride) :
    ctx.readAt m off = 0x8010801080108010 := (if_pos h).trans blackFill_word

theorem ScanContext.readAt_picture (ctx : ScanContext) (m : Memory) {off : Nat}
    (row : off / ctx.stride < ctx.height) (column : off % ctx.stride < ctx.width * 2) :
    ctx.readAt m off = ctx.wordAt m (off % ctx.stride / 2) (off / ctx.stride) := if_neg (by omega)

/-! ### The means of R91 -/

theorem foldl_sum_map {α : Type} (l : List α) (f : α → Nat) (n : Nat) :
    l.foldl (fun acc a => acc + f a) n = n + (l.map f).sum := by
  induction l generalizing n with
  | nil => rfl
  | cons a l ih =>
    rw [List.foldl_cons, ih, List.map_cons, List.sum_cons, Nat.add_assoc]

theorem blockSum_eq (d : Nat) (f : Nat → Nat → Nat) :
    blockSum d f = ((List.range d).map fun k => ((List.range d).map fun j => f j k).sum).sum := by
  unfold blockSum
  simp only [foldl_sum_map, Nat.zero_add]

/-! ### The covers of R110 -/

theorem ofNat_dimLuma (dim : Bool) (v : Nat) :
    BitVec.ofNat 8 (dimLuma dim v) = BitVec.ofNat 8 (if dim = true ∧ 16 ≤ v then 16 + (v - 16) / 2 else v) := by
  unfold dimLuma
  simp only [Bool.and_eq_true, decide_eq_true_eq]

theorem ofNat_dimChroma (dim : Bool) (v : Nat) :
    BitVec.ofNat 8 (dimChroma dim v) = if dim then 128 else BitVec.ofNat 8 v := by
  cases dim <;> rfl

namespace PaneEntry
variable (e : PaneEntry) (m : Memory) (blink : Bool) (x y p : Nat)

/-- The pair lies in the border's columns or rows. -/
def Edge (px : Nat) : Prop :=
  px < e.copy.x + 4 ∨ e.copy.x + e.copy.w ≤ px + 4 ∨ y < e.copy.y + 4 ∨ e.copy.y + e.copy.h ≤ y + 4

theorem contains_iff : e.contains x y = true ↔
    e.copy.x ≤ x ∧ x < e.copy.x + e.copy.w ∧ e.copy.y ≤ y ∧ y < e.copy.y + e.copy.h :=
  decide_eq_true_iff

theorem inBorder_iff (px : Nat) : e.inBorder px y = true ↔ e.Edge y px := by
  unfold inBorder Edge
  simp only [Bool.or_eq_true, decide_eq_true_eq, or_assoc]

theorem inMarker_iff (px : Nat) : e.inMarker px y = true ↔
    e.marker = true ∧ e.copy.x + e.copy.w ≤ px + 16 ∧ y < e.copy.y + 16 := by
  unfold inMarker
  simp only [Bool.and_eq_true, decide_eq_true_eq, and_assoc]

theorem inStaleBand_iff : e.inStaleBand y = true ↔ e.staleBand = true ∧ y < e.copy.y + 8 := by
  unfold inStaleBand
  simp only [Bool.and_eq_true, decide_eq_true_eq]

theorem inLensBand_iff : e.inLensBand y = true ↔ e.lensTop ≤ y ∧ y < e.lensTop + e.band.rows := decide_eq_true_iff

/-- The colour of the border where it covers the pair. -/
def borderCover (px : Nat) : Option Color := if e.inBorder px y then borderColor e.border blink else none

variable {e blink x y p}

theorem borderCover_of_edge (edge : e.Edge y (x + 2 * p)) :
    e.borderCover blink y (x + 2 * p) = borderColor e.border blink := if_pos ((e.inBorder_iff y _).2 edge)

theorem borderCover_none (bare : ¬e.Edge y (x + 2 * p) ∨ e.border = .none ∨ e.border = .alertRed ∧ blink = true) :
    e.borderCover blink y (x + 2 * p) = none := by
  unfold borderCover
  rcases bare with inner | plain | ⟨red, dark⟩
  · exact if_neg (mt (e.inBorder_iff y _).1 inner)
  · rw [plain]
    exact ite_self _
  · rw [red, dark]
    exact ite_self _

theorem pairAt_border {c : Color} (cover : e.borderCover blink y (x + 2 * p) = some c) :
    e.pairAt m blink x y p = c.pair := by
  unfold pairAt
  unfold borderCover at cover
  dsimp only
  rw [cover]

theorem pairAt_inside (cover : e.borderCover blink y (x + 2 * p) = none) :
    e.pairAt m blink x y p =
      if e.inMarker (x + 2 * p) y then markerWhite.pair
      else if e.inStaleBand y then staleGrey.pair
      else if e.inLensBand y then (e.stripe (x + 2 * p) y).pair
      else e.picture m x y p := by
  unfold pairAt
  unfold borderCover at cover
  dsimp only
  rw [cover]

section
variable (cover : e.borderCover blink y (x + 2 * p) = none)
include cover

theorem pairAt_marker (marker : e.inMarker (x + 2 * p) y = true) :
    e.pairAt m blink x y p = markerWhite.pair := by
  rw [pairAt_inside m cover, if_pos marker]

theorem pairAt_staleBand (marker : ¬e.inMarker (x + 2 * p) y = true) (stale : e.inStaleBand y = true) :
    e.pairAt m blink x y p = staleGrey.pair := by
  rw [pairAt_inside m cover, if_neg marker, if_pos stale]

theorem pairAt_lensBand (marker : ¬e.inMarker (x + 2 * p) y = true) (stale : ¬e.inStaleBand y = true)
    (lens : e.inLensBand y = true) : e.pairAt m blink x y p = (e.stripe (x + 2 * p) y).pair := by
  rw [pairAt_inside m cover, if_neg marker, if_neg stale, if_pos lens]

theorem pairAt_picture (marker : ¬e.inMarker (x + 2 * p) y = true) (stale : ¬e.inStaleBand y = true)
    (lens : ¬e.inLensBand y = true) : e.pairAt m blink x y p = e.picture m x y p := by
  rw [pairAt_inside m cover, if_neg marker, if_neg stale, if_neg lens]

end

theorem stripe_even {px : Nat} (h : (px + (y - e.copy.y)) / 8 % 2 = 0) : e.stripe px y = yellowStripe := if_pos h

theorem stripe_odd {px : Nat} (h : (px + (y - e.copy.y)) / 8 % 2 = 1) : e.stripe px y = blackFill :=
  if_neg (by omega)

theorem picture_of_none (h : e.latched = none) : e.picture m x y p = noPictureGrey.pair := by
  unfold picture
  rw [h]

theorem picture_of_some {l : Latched} (h : e.latched = some l) : e.picture m x y p =
    ⟨BitVec.ofNat 8 (dimLuma e.dim (e.luma m l.addr x y (2 * p))),
      BitVec.ofNat 8 (dimLuma e.dim (e.luma m l.addr x y (2 * p + 1))),
      BitVec.ofNat 8 (dimChroma e.dim (e.chroma m l.addr x y p 1)),
      BitVec.ofNat 8 (dimChroma e.dim (e.chroma m l.addr x y p 3))⟩ := by
  unfold picture
  rw [h]

end PaneEntry

/-! ### The statement -/

theorem State.screenWord_dark (s : State) (i : Screen) (off : Nat)
    (h : s.screens[i].enable = false ∨ s.contexts[i] = none) : s.screenWord i off = 0x8010801080108010 := by
  unfold State.screenWord
  rw [← blackFill_word]
  rcases h with off | bare
  · rw [off]
    rfl
  · rw [bare]
    exact ite_self _

theorem State.screenWord_of_context (s : State) (i : Screen) (off : Nat) {ctx : ScanContext}
    (on : s.screens[i].enable = true) (h : s.contexts[i] = some ctx) :
    s.screenWord i off = ctx.readAt s.mem off := by
  unfold State.screenWord
  rw [on, h]
  rfl

theorem exec_screenRead_plain {s : State} (running : s.isRunning) (r : Requester) (i : Screen) (word : BitVec 21)
    (plain : word ≠ 0 ∨ s.roleOf r.tag ≠ .display ∨ s.screens[i].enable = false) :
    exec (.screenRead r i word) s = .next (s.returnWord r (s.screenWord i (8 * word.toNat))) := by
  have noStart : s.frameStart r i (8 * word.toNat) = false := by
    unfold State.frameStart
    rcases plain with inner | role | off
    · rw [decide_eq_false (fun h => inner (BitVec.eq_of_toNat_eq (by simpa using h))), Bool.false_and, Bool.false_and]
    · rw [decide_eq_false role, Bool.and_false, Bool.false_and]
    · rw [off, Bool.and_false]
  rw [exec_screenRead running]
  unfold State.screenBeat
  rw [noStart]
  rfl

/-- Settles O51: the word is `screenWord`'s, and a pair's colour goes by the first cover that covers it. -/
theorem screenReadComposes : Obligations.ScreenReadComposes := by
  refine ⟨fun r i word s running plain => ?_, bytesOfWord_wordOfPairs, Color.bytesOfWord_word, ?_⟩
  · refine ⟨_, _, exec_screenRead_plain running r i word plain, returned_of_port r _ rfl,
      s.returnWord_touches r _, s.screenWord_dark i _, fun ctx on h => ?_⟩
    rw [s.screenWord_of_context i _ on h]
    refine ⟨ctx.readAt_padding s.mem, fun row column => ?_⟩
    rw [ctx.readAt_picture s.mem row column]
    exact ⟨ctx.wordAt_background s.mem _ _, fun _ _ _ => ctx.wordAt_pane s.mem _ _⟩
  · intro e m blink x y p
    refine ⟨e.contains_iff x y, fun edge amber => ?_, fun edge red dark => ?_, fun bare => ?_⟩
    · exact PaneEntry.pairAt_border m ((PaneEntry.borderCover_of_edge edge).trans (by rw [amber]; rfl))
    · subst dark
      exact PaneEntry.pairAt_border m ((PaneEntry.borderCover_of_edge (blink := false) edge).trans (by rw [red]; rfl))
    · have cover := PaneEntry.borderCover_none bare
      intro marker stale lens
      have hm : e.inMarker (x + 2 * p) y = true ↔ marker := e.inMarker_iff y _
      have hs : e.inStaleBand y = true ↔ stale := e.inStaleBand_iff y
      have hl : e.inLensBand y = true ↔ lens := e.inLensBand_iff y
      rw [← hm, ← hs, ← hl]
      refine ⟨PaneEntry.pairAt_marker m cover, PaneEntry.pairAt_staleBand m cover, fun h1 h2 h3 h4 => ?_,
        fun h1 h2 h3 h4 => ?_, fun h1 h2 h3 h4 => ?_, fun l h1 h2 h3 h4 => ?_⟩
      · rw [PaneEntry.pairAt_lensBand m cover h1 h2 h3, PaneEntry.stripe_even h4]
        rfl
      · rw [PaneEntry.pairAt_lensBand m cover h1 h2 h3, PaneEntry.stripe_odd h4]
        rfl
      · rw [PaneEntry.pairAt_picture m cover h1 h2 h3, PaneEntry.picture_of_none m h4]
        rfl
      · rw [PaneEntry.pairAt_picture m cover h1 h2 h3, PaneEntry.picture_of_some m h4]
        simp only [ofNat_dimLuma, ofNat_dimChroma, PaneEntry.luma, PaneEntry.chroma, roundedMean, blockSum_eq]
        rfl

end Sys2Proof.Machine
end

section
/-! The latch of a scan context (R80 to R85): the chain, the pins of the shown cameras, the pane entries. -/

namespace Sys2Proof.Machine

set_option Elab.async false

/-! ### Distinct entries -/

section
variable {α : Type} [DecidableEq α]

/-- The step that `distinct` folds. -/
def addNew (acc : List α) (x : α) : List α := if acc.contains x then acc else acc ++ [x]

theorem mem_addNew {acc : List α} {x a : α} : a ∈ addNew acc x ↔ a ∈ acc ∨ a = x := by
  unfold addNew
  split
  · rename_i met
    exact ⟨.inl, fun h => h.elim id fun e => e ▸ List.contains_iff_mem.1 met⟩
  · rw [List.mem_append, List.mem_singleton]

theorem nodup_addNew {acc : List α} {x : α} (h : acc.Nodup) : (addNew acc x).Nodup := by
  unfold addNew
  split
  · exact h
  · rename_i fresh
    exact h.append (List.nodup_singleton x) fun a ha hx =>
      fresh (List.contains_iff_mem.2 (List.mem_singleton.1 hx ▸ ha))

theorem mem_foldl_addNew {l acc : List α} {a : α} : a ∈ l.foldl addNew acc ↔ a ∈ acc ∨ a ∈ l := by
  induction l generalizing acc with
  | nil => simp
  | cons x l ih => rw [List.foldl_cons, ih, mem_addNew, List.mem_cons, or_assoc]

theorem nodup_foldl_addNew {l acc : List α} (h : acc.Nodup) : (l.foldl addNew acc).Nodup := by
  induction l generalizing acc with
  | nil => exact h
  | cons x l ih => exact ih (nodup_addNew h)

theorem mem_distinct {l : List α} {a : α} : a ∈ distinct l ↔ a ∈ l :=
  (mem_foldl_addNew (acc := [])).trans (by simp)

theorem nodup_distinct (l : List α) : (distinct l).Nodup := nodup_foldl_addNew (acc := []) List.nodup_nil

end

/-- Counting along a list without duplicates counts the members among all. -/
theorem countP_finRange_of_nodup {n : Nat} {l : List (Fin n)} (nodup : l.Nodup) (p : Fin n → Bool) :
    l.countP p = (List.finRange n).countP fun c => decide (c ∈ l) && p c := by
  have perm : l.Perm ((List.finRange n).filter fun c => decide (c ∈ l)) :=
    (List.perm_ext_iff_of_nodup nodup ((List.nodup_finRange n).filter _)).2 fun c => by simp
  rw [perm.countP_eq, List.countP_filter]
  exact List.countP_congr fun c _ => by rw [Bool.and_comm]

/-! ### The chain -/

theorem chainIndex_succ (panes : Vector PaneRec 224) {head : Nat} (h : head < 224) (n : Nat) :
    chainIndex panes head (n + 1) = chainIndex panes (panes.get ⟨head, h⟩).next n := by
  induction n with
  | zero => exact dif_pos h
  | succ n ih =>
    rw [chainIndex, ih]
    rfl

theorem chainFrom_cons (panes : Vector PaneRec 224) {head : Nat} (h : head < 224) (fuel : Nat) :
    chainFrom panes (fuel + 1) head = ⟨head, h⟩ :: chainFrom panes fuel (panes.get ⟨head, h⟩).next := dif_pos h

theorem chainFrom_nil (panes : Vector PaneRec 224) {head : Nat} (h : ¬head < 224) (fuel : Nat) :
    chainFrom panes (fuel + 1) head = [] := dif_neg h

theorem chainFrom_getElem? (panes : Vector PaneRec 224) (fuel head n : Nat) :
    (∀ p, (chainFrom panes fuel head)[n]? = some p → p.val = chainIndex panes head n)
      ∧ ((chainFrom panes fuel head)[n]?.isSome = true ↔
        n < fuel ∧ ∀ m, m ≤ n → chainIndex panes head m < 224) := by
  induction fuel generalizing head n with
  | zero => simp [chainFrom]
  | succ fuel ih =>
    by_cases h : head < 224
    · rw [chainFrom_cons panes h]
      cases n with
      | zero =>
        refine ⟨fun p hp => by cases hp; rfl, fun _ => ⟨Nat.succ_pos _, fun m hm => ?_⟩, fun _ => rfl⟩
        obtain rfl : m = 0 := by omega
        exact h
      | succ n =>
        obtain ⟨value, reach⟩ := ih (panes.get ⟨head, h⟩).next n
        rw [List.getElem?_cons_succ, chainIndex_succ panes h, reach]
        refine ⟨value, fun ⟨short, inside⟩ => ⟨by omega, fun m hm => ?_⟩, fun ⟨short, inside⟩ =>
          ⟨by omega, fun m hm => by rw [← chainIndex_succ panes h]; exact inside (m + 1) (by omega)⟩⟩
        cases m with
        | zero => exact h
        | succ m =>
          rw [chainIndex_succ panes h]
          exact inside m (by omega)
    · rw [chainFrom_nil panes h]
      refine ⟨fun p hp => by simp at hp, fun hp => by simp at hp, fun ⟨_, inside⟩ => absurd (inside 0 (by omega)) h⟩

/-! ### The pins -/

/-- The answer that a pin request for the camera gets: its newest READY member, while it is enabled. -/
def State.pinTarget (s : State) (c : Camera) : Option Nat :=
  if s.cameras[c].enable then s.rings[c].ready.getLast? else none

theorem State.pin_answer (s : State) (c : Camera) : (s.pin c).2 = s.pinTarget c := by
  unfold State.pin State.pinTarget RingRec.newest
  cases s.cameras[c].enable
  · rfl
  · cases s.rings[c].ready.getLast? <;> rfl

theorem State.pin_slot (s : State) (c : Camera) {k : Nat} (hk : k < s.pool.slots.length) :
    (s.pin c).1.slot k =
      { s.slot k with pins := (s.slot k).pins + if s.pinTarget c = some k then 1 else 0 } := by
  rw [← s.pin_answer c]
  unfold State.pin
  split
  · rename_i i _ _
    by_cases same : i = k
    · subst same
      rw [s.slot_setSlot_self _ hk, if_pos rfl]
    · rw [s.slot_setSlot_of_ne _ (Ne.symm same), if_neg (fun e => same (Option.some.inj e)), Nat.add_zero]
  · rw [if_neg (by simp), Nat.add_zero]

theorem State.pin_length (s : State) (c : Camera) : (s.pin c).1.pool.slots.length = s.pool.slots.length := by
  unfold State.pin
  split
  · exact s.setSlot_length _ _
  · rfl

theorem State.pin_pinTarget (s : State) (c d : Camera) : (s.pin c).1.pinTarget d = s.pinTarget d := by
  unfold State.pinTarget
  rw [(s.pin_effect c).same .cameras, (s.pin_effect c).same .rings]

/-- The step that `pinShown` folds. -/
def State.pinNext (x : State × List (Camera × Option Nat)) (c : Camera) : State × List (Camera × Option Nat) :=
  ((x.1.pin c).1, x.2 ++ [(c, (x.1.pin c).2)])

theorem State.pinShown_eq (s : State) (cams : List Camera) : s.pinShown cams = cams.foldl State.pinNext (s, []) := rfl

theorem State.foldl_pinNext (cams : List Camera) (x : State × List (Camera × Option Nat)) :
    (cams.foldl State.pinNext x).2 = x.2 ++ cams.map (fun c => (c, x.1.pinTarget c))
      ∧ (cams.foldl State.pinNext x).1.pool.slots.length = x.1.pool.slots.length
      ∧ ∀ k, k < x.1.pool.slots.length → (cams.foldl State.pinNext x).1.slot k =
          { x.1.slot k with pins := (x.1.slot k).pins + cams.countP fun c => decide (x.1.pinTarget c = some k) } := by
  induction cams generalizing x with
  | nil => exact ⟨(List.append_nil _).symm, rfl, fun _ _ => rfl⟩
  | cons c cams ih =>
    obtain ⟨answers, length, slots⟩ := ih (State.pinNext x c)
    refine ⟨?_, length.trans (x.1.pin_length c), fun k hk => ?_⟩
    · rw [List.foldl_cons, answers]
      simp only [State.pinNext, State.pin_pinTarget, State.pin_answer, List.append_assoc, List.map_cons,
        List.singleton_append]
    · rw [List.foldl_cons, slots k (by rw [State.pinNext, x.1.pin_length]; exact hk)]
      simp only [State.pinNext, State.pin_pinTarget, x.1.pin_slot c hk, List.countP_cons, decide_eq_true_eq]
      congr 1
      omega

/-- The latch's pins: each camera's answer, and one pin more for each camera whose newest member a slot is. -/
theorem State.pinShown_answers (s : State) (cams : List Camera) :
    (s.pinShown cams).2 = cams.map fun c => (c, s.pinTarget c) :=
  (State.foldl_pinNext cams (s, [])).1.trans (List.nil_append _)

theorem State.pinShown_length (s : State) (cams : List Camera) :
    (s.pinShown cams).1.pool.slots.length = s.pool.slots.length := (State.foldl_pinNext cams (s, [])).2.1

theorem State.pinShown_slot (s : State) (cams : List Camera) {k : Nat} (hk : k < s.pool.slots.length) :
    (s.pinShown cams).1.slot k =
      { s.slot k with pins := (s.slot k).pins + cams.countP fun c => decide (s.pinTarget c = some k) } :=
  (State.foldl_pinNext cams (s, [])).2.2 k hk

theorem State.pin_touches (s : State) (c : Camera) : Touches [.pool] s (s.pin c).1 := by
  unfold State.pin
  split
  · exact s.setSlot_touches _ _
  · exact .refl _ s

/-- The pins take no report. -/
theorem State.pinShown_touches (s : State) (cams : List Camera) : Touches [.pool] s (s.pinShown cams).1 := by
  rw [State.pinShown_eq]
  suffices h : ∀ (l : List Camera) (x : State × List (Camera × Option Nat)),
      Touches [.pool] x.1 (l.foldl State.pinNext x).1 from h cams (s, [])
  intro l
  induction l with
  | nil => exact fun x => .refl _ x.1
  | cons c l ih => exact fun x => ((x.1.pin_touches c).trans (ih (State.pinNext x c))).mono (by decide)

theorem pinAnswer_map {f : Camera → Option Nat} {cams : List Camera} {c : Camera} (h : c ∈ cams) :
    pinAnswer (cams.map fun c => (c, f c)) c = f c := by
  unfold pinAnswer
  cases answer : f c with
  | none =>
    rw [List.findSome?_eq_none_iff]
    rintro x hx
    obtain ⟨d, -, rfl⟩ := List.mem_map.1 hx
    split
    · rename_i same
      rw [← answer, ← same]
    · rfl
  | some k =>
    obtain ⟨before, after, rfl⟩ := List.append_of_mem h
    induction before with
    | nil => simp [answer]
    | cons d before ih =>
      rw [List.cons_append, List.map_cons, List.findSome?_cons]
      by_cases same : d = c
      · simp [same, answer]
      · rw [if_neg same]
        exact ih (by simp)

/-! ### A released context -/

theorem State.releaseContext_eq (s : State) (i : Screen) :
    s.releaseContext i = (s.unpinContext i).setContext i none := by
  unfold State.releaseContext State.unpinContext
  cases h : s.contexts[i] with
  | none =>
    have same : upd s.contexts i none = s.contexts := by
      rw [← h]
      exact Vector.set_getElem_self _
    exact (congrArg (fun v => { s with contexts := v }) same).symm
  | some x => rfl

theorem State.unpinContext_effect (s : State) (i : Screen) : Effect [.pool, .rings] s (s.unpinContext i) := by
  unfold State.unpinContext
  split
  · exact .refl _ s
  · exact Effect.foldl (fun s x => s.unpin_effect x) _ s

end Sys2Proof.Machine
end

section
/-! The frame start (O52): the pane entries, the new scan context, the answer and the APPLYING wait. -/

namespace Sys2Proof.Machine

set_option Elab.async false

/-! ### Overlays -/

theorem State.doorIn_iff {s : State} {own : Camera} {x : DoorState} :
    s.doorIn own x = true ↔ ∃ d : Door, s.doors[d].camera = own.val ∧ s.doorUnit.states.get d = x := by
  unfold State.doorIn
  simp only [List.any_eq_true, List.mem_finRange, true_and, Bool.and_eq_true, decide_eq_true_eq]

theorem bandOf_eq (p : PaneRec) (hasSlot : Bool) (l : LensState) :
    bandOf p hasSlot l =
      if p.lensBand = false ∨ hasSlot = false then .none
      else if l = .part then .rows8
      else if l = .obscured then .rows16
      else .none := by
  unfold bandOf
  cases p.lensBand <;> cases hasSlot <;> cases l <;> rfl

/-- The border colour of a pane by its flag and the doors of its camera (R103). -/
theorem State.borderOf_cases (s : State) (p : PaneRec) (own : Camera) :
    (p.border = false → s.borderOf p own = .none)
      ∧ (p.border = true → s.doorIn own .alert = true → s.borderOf p own = .alertRed)
      ∧ (p.border = true → ¬s.doorIn own .alert = true → s.doorIn own .opened = true → s.borderOf p own = .openAmber)
      ∧ (¬s.doorIn own .alert = true → ¬s.doorIn own .opened = true → s.borderOf p own = .none) := by
  unfold State.borderOf
  refine ⟨fun flag => ?_, fun flag alert => ?_, fun flag alert opened => ?_, fun alert opened => ?_⟩
  · rw [flag]
    rfl
  · rw [flag, alert]
    rfl
  · rw [flag, if_neg alert, if_pos opened]
    rfl
  · rw [if_neg alert, if_neg opened]
    exact ite_self _

/-! ### What the latch takes from the blocks -/

/-- The blocks that the overlays look at stand in `t` as in `s`. -/
def SameScene (s t : State) : Prop :=
  t.cameras = s.cameras ∧ t.cadence = s.cadence ∧ t.lens = s.lens ∧ t.doors = s.doors ∧ t.doorUnit = s.doorUnit

theorem Effect.scene {ps : List Piece} {s t : State} (e : Effect ps s t)
    (h : ∀ p ∈ [Piece.cameras, .cadence, .lens, .doors, .doorUnit], p ∉ Piece.mem :: Piece.ring :: ps) :
    SameScene s t :=
  have out := fun p hp => e.touches p (h p hp)
  ⟨out .cameras (by decide), out .cadence (by decide), out .lens (by decide), out .doors (by decide),
    out .doorUnit (by decide)⟩

section
variable {s t : State} (same : SameScene s t)
include same

theorem SameScene.usable (rings : t.rings = s.rings) (c : Camera) : t.usable c = s.usable c := by
  obtain ⟨cameras, cadence, lens, -, -⟩ := same
  unfold State.usable
  rw [cameras, cadence, lens, rings]

theorem SameScene.shownCamera (rings : t.rings = s.rings) (p : PaneRec) (own : Camera) :
    t.shownCamera p own = s.shownCamera p own := by
  unfold State.shownCamera
  simp only [same.usable rings, same.1]

theorem SameScene.doorIn (own : Camera) (x : DoorState) : t.doorIn own x = s.doorIn own x := by
  obtain ⟨-, -, -, doors, unit⟩ := same
  unfold State.doorIn
  rw [doors, unit]

theorem SameScene.borderOf (p : PaneRec) (own : Camera) : t.borderOf p own = s.borderOf p own := by
  unfold State.borderOf
  rw [same.doorIn, same.doorIn]

end

/-- The pane entry that the latch of a screen forms for pane `p`, with `u` the part behind the unpins and
`v` behind the pins. -/
def latchedEntry (u v : State) (p : Fin 224) : PaneEntry :=
  v.flagEntry (u.paneEntry p) (u.pinTarget (u.paneEntry p).shown)

section
variable {s u v : State} (hu : SameScene s u) (hv : SameScene s v) (p : Fin 224)

theorem latchedEntry_shown : (latchedEntry u v p).shown = u.shownCamera u.panes[p] (latchedEntry u v p).own := rfl

include hu in
theorem latchedEntry_size : (latchedEntry u v p).shownW = s.cameras[(latchedEntry u v p).shown].w
    ∧ (latchedEntry u v p).shownH = s.cameras[(latchedEntry u v p).shown].h := by
  rw [← hu.1]
  exact ⟨rfl, rfl⟩

theorem latchedEntry_marker :
    (latchedEntry u v p).marker = true ↔ (latchedEntry u v p).shown ≠ (latchedEntry u v p).own :=
  decide_eq_true_iff

theorem latchedEntry_slot :
    (latchedEntry u v p).latched.map Latched.slot = u.pinTarget (latchedEntry u v p).shown := by
  unfold latchedEntry State.flagEntry
  rw [Option.map_map]
  exact Option.map_id'

theorem latchedEntry_isSome :
    (latchedEntry u v p).latched.isSome = (u.pinTarget (latchedEntry u v p).shown).isSome := by
  rw [← latchedEntry_slot, Option.isSome_map]

theorem latchedEntry_addr {l : Latched} (h : (latchedEntry u v p).latched = some l) :
    l.addr = v.pool.slotAddr l.slot := by
  obtain ⟨k, -, rfl⟩ := Option.map_eq_some_iff.1 (h : Option.map _ _ = _)
  rfl

include hv in
theorem latchedEntry_bad : (decide (v.cadence[(latchedEntry u v p).shown].state = .stale)
      || v.cadence[(latchedEntry u v p).shown].frozen) = true ↔
    s.cadence[(latchedEntry u v p).shown].state = .stale ∨ s.cadence[(latchedEntry u v p).shown].frozen = true := by
  rw [hv.2.1, Bool.or_eq_true, decide_eq_true_iff]

include hv in
theorem latchedEntry_dim : (latchedEntry u v p).dim = true ↔ (latchedEntry u v p).latched ≠ none
    ∧ (s.cadence[(latchedEntry u v p).shown].state = .stale ∨ s.cadence[(latchedEntry u v p).shown].frozen = true) := by
  rw [← latchedEntry_bad hv, Option.ne_none_iff_isSome, latchedEntry_isSome, ← Bool.and_eq_true]
  rfl

include hv in
theorem latchedEntry_staleBand : (latchedEntry u v p).staleBand = true ↔ (latchedEntry u v p).latched = none
    ∨ (s.cadence[(latchedEntry u v p).shown].state = .stale ∨ s.cadence[(latchedEntry u v p).shown].frozen = true) := by
  rw [← latchedEntry_bad hv, ← Option.isNone_iff_eq_none, ← Option.not_isSome, latchedEntry_isSome,
    Option.not_isSome, ← Bool.or_eq_true]
  rfl

include hv in
theorem latchedEntry_band : (latchedEntry u v p).band =
    if (latchedEntry u v p).copy.lensBand = false ∨ (latchedEntry u v p).latched = none then .none
    else if s.lens[(latchedEntry u v p).shown].state = .part then .rows8
    else if s.lens[(latchedEntry u v p).shown].state = .obscured then .rows16
    else .none := by
  have band : (latchedEntry u v p).band = bandOf (latchedEntry u v p).copy
      (u.pinTarget (latchedEntry u v p).shown).isSome v.lens[(latchedEntry u v p).shown].state := rfl
  rw [band, bandOf_eq, ← latchedEntry_isSome, hv.2.2.1]
  simp only [Option.isSome_eq_false_iff, Option.isNone_iff_eq_none]

include hv in
theorem latchedEntry_border :
    (latchedEntry u v p).border = s.borderOf (latchedEntry u v p).copy (latchedEntry u v p).own :=
  hv.borderOf _ _

end

/-! ### The latch -/

section
variable (s : State) (i : Screen)

theorem State.pin_setContext (u : State) (x : Option ScanContext) (c : Camera) :
    (u.setContext i x).pin c = ((u.pin c).1.setContext i x, (u.pin c).2) := by
  cases newest : u.rings[c].newest with
  | none =>
    rw [State.pin_none (s := u) (.inr newest)]
    exact State.pin_none (.inr newest)
  | some k =>
    cases on : u.cameras[c].enable with
    | false =>
      rw [State.pin_none (s := u) (.inl on)]
      exact State.pin_none (.inl on)
    | true =>
      rw [State.pin_of_newest (s := u) on newest]
      exact State.pin_of_newest on newest

theorem State.pinShown_setContext (u : State) (x : Option ScanContext) (cams : List Camera) :
    (u.setContext i x).pinShown cams = ((u.pinShown cams).1.setContext i x, (u.pinShown cams).2) := by
  rw [State.pinShown_eq, State.pinShown_eq]
  suffices h : ∀ (l : List Camera) (a : State) (b : List (Camera × Option Nat)),
      l.foldl State.pinNext (a.setContext i x, b)
        = ((l.foldl State.pinNext (a, b)).1.setContext i x, (l.foldl State.pinNext (a, b)).2) from h cams u []
  intro l
  induction l with
  | nil => exact fun _ _ => rfl
  | cons c l ih =>
    intro a b
    rw [List.foldl_cons, List.foldl_cons]
    unfold State.pinNext at ih ⊢
    dsimp only
    rw [State.pin_setContext, ih]

theorem State.setContext_setContext (u : State) (x y : Option ScanContext) :
    (u.setContext i x).setContext i y = u.setContext i y := by
  simp [State.setContext, upd]

/-- The layout that the screen follows. -/
def State.latchLayout : Fin 32 :=
  Fin.ofNat 32 ((s.spots[i].entries.head?.map SpotEntry.layout).getD s.screens[i].base)

/-- The pane entries of the chain of the layout that the screen follows, not yet flagged. -/
def State.chainEntries : List PaneEntry := (chainFrom s.panes 8 s.layouts[s.latchLayout i].head).map s.paneEntry

/-- The part behind the pins of a latch that finds no context of the screen, before the new one. -/
def State.pinnedFor : State := (s.pinShown (distinct ((s.chainEntries i).map PaneEntry.shown))).1

/-- The scan context that a latch forms behind the unpins. -/
def State.newContext : ScanContext :=
  { width := s.screens[i].width, height := s.screens[i].height, stride := s.screens[i].stride,
    layout := (s.latchLayout i).val, background := s.layouts[s.latchLayout i].background,
    panes := (chainFrom s.panes 8 s.layouts[s.latchLayout i].head).map (latchedEntry s (s.pinnedFor i)),
    blink := blinkOf s.time }

theorem State.pinnedFor_effect : Effect [.pool] s (s.pinnedFor i) := State.pinShown_effect _ _

theorem State.newContext_panes : (s.newContext i).panes = (s.chainEntries i).map fun e =>
    (s.pinnedFor i).flagEntry e
      (pinAnswer (s.pinShown (distinct ((s.chainEntries i).map PaneEntry.shown))).2 e.shown) := by
  unfold State.newContext
  dsimp only
  rw [State.chainEntries, List.map_map]
  refine List.map_congr_left fun p hp => ?_
  have shown : (s.paneEntry p).shown ∈ distinct ((s.chainEntries i).map PaneEntry.shown) :=
    mem_distinct.2 (List.mem_map_of_mem (List.mem_map_of_mem hp))
  rw [Function.comp_apply, s.pinShown_answers]
  rw [State.chainEntries] at shown
  rw [pinAnswer_map shown]
  rfl

/-- The latch behind the unpins. -/
def State.latchOn : State :=
  let entries := (chainFrom s.panes Config.chainMax s.layouts[s.chosenLayout i].head).map s.paneEntry
  let pinned := s.pinShown (distinct (entries.map PaneEntry.shown))
  pinned.1.setContext i (some
    { width := s.screens[i].width, height := s.screens[i].height, stride := s.screens[i].stride,
      layout := (s.chosenLayout i).val, background := s.layouts[s.chosenLayout i].background,
      panes := entries.map fun e => pinned.1.flagEntry e (pinAnswer pinned.2 e.shown), blink := blinkOf pinned.1.time })

theorem State.latchOn_setContext :
    (s.setContext i none).latchOn i = (s.pinnedFor i).setContext i (some (s.newContext i)) := by
  have time : (s.pinnedFor i).time = s.time := (s.pinnedFor_effect i).same .time
  have context : s.newContext i =
      { width := s.screens[i].width, height := s.screens[i].height, stride := s.screens[i].stride,
        layout := (s.latchLayout i).val, background := s.layouts[s.latchLayout i].background,
        panes := (s.newContext i).panes, blink := blinkOf (s.pinnedFor i).time } := by
    rw [time]
    rfl
  rw [context, s.newContext_panes]
  have pinned := State.pinShown_setContext i s none (distinct ((s.chainEntries i).map PaneEntry.shown))
  show (((s.setContext i none).pinShown (distinct ((s.chainEntries i).map PaneEntry.shown))).1.setContext i (some
    { width := s.screens[i].width, height := s.screens[i].height, stride := s.screens[i].stride,
      layout := (s.latchLayout i).val, background := s.layouts[s.latchLayout i].background,
      panes := (s.chainEntries i).map fun e =>
        ((s.setContext i none).pinShown (distinct ((s.chainEntries i).map PaneEntry.shown))).1.flagEntry e
          (pinAnswer ((s.setContext i none).pinShown (distinct ((s.chainEntries i).map PaneEntry.shown))).2 e.shown),
      blink := blinkOf ((s.setContext i none).pinShown
        (distinct ((s.chainEntries i).map PaneEntry.shown))).1.time })) = _
  rw [pinned, State.setContext_setContext]
  rfl

/-- The latch: the unpins of the old context, the pins, and the new context. -/
theorem State.latch_eq : s.latch i =
    ((s.unpinContext i).pinnedFor i).setContext i (some ((s.unpinContext i).newContext i)) := by
  have latch : s.latch i = (s.releaseContext i).latchOn i := rfl
  rw [latch, s.releaseContext_eq i, State.latchOn_setContext]

end

end Sys2Proof.Machine
end

section
/-! The statement about frame starts (O52). -/

namespace Sys2Proof.Machine

set_option Elab.async false

/-! ### The frame start notice -/

section
variable {s : State} {i : Screen}

theorem State.frameStartNotice_idle (h : s.engine.state ≠ .applying ∨ s.engine.pending.getLsbD i.val = false) :
    s.frameStartNotice i = s := by
  unfold State.frameStartNotice
  split
  · rename_i applying
    exact if_neg (by rw [h.resolve_left (fun k => k applying)]; decide)
  · rfl
  · rfl
  · rfl

section
variable (applying : s.engine.state = .applying) (waits : s.engine.pending.getLsbD i.val = true)
include applying waits

theorem State.frameStartNotice_waits (left : s.engine.pending &&& ~~~(1#4 <<< i.val) ≠ 0) :
    s.frameStartNotice i = s.setEngine { s.engine with pending := s.engine.pending &&& ~~~(1#4 <<< i.val) } := by
  unfold State.frameStartNotice
  rw [applying]
  dsimp only
  rw [if_pos waits, if_neg (by exact left)]

theorem State.frameStartNotice_last (left : s.engine.pending &&& ~~~(1#4 <<< i.val) = 0) :
    s.frameStartNotice i =
      (s.setEngine { s.engine with pending := s.engine.pending &&& ~~~(1#4 <<< i.val) }).endApplying .done := by
  unfold State.frameStartNotice
  rw [applying]
  dsimp only
  rw [if_pos waits, if_pos (by exact left)]

end

end

/-! ### The latch, seen from before the unpins -/

section
variable (s : State) (i : Screen)

theorem State.unpinContext_scene : SameScene s (s.unpinContext i) := (s.unpinContext_effect i).scene (by decide)

theorem State.latchPins_scene : SameScene s ((s.unpinContext i).pinnedFor i) :=
  ((s.unpinContext_effect i).trans ((s.unpinContext i).pinnedFor_effect i)).scene (by decide)

theorem State.latchLayout_unpinContext : (s.unpinContext i).latchLayout i = s.latchLayout i := by
  unfold State.latchLayout
  rw [(s.unpinContext_effect i).same .spots, (s.unpinContext_effect i).same .screens]

theorem State.pinTarget_unpinContext (c : Camera) : (s.unpinContext i).pinTarget c =
    if s.cameras[c].enable then (s.unpinContext i).rings[c].ready.getLast? else none := by
  unfold State.pinTarget
  rw [(s.unpinContext_effect i).same .cameras]

theorem blinkOf_iff (t : Time) : blinkOf t = true ↔ t.toNat / 250000 % 2 = 1 := decide_eq_true_iff

/-- The new context's own fields. -/
theorem State.latched_frame : ((s.unpinContext i).newContext i).width = s.screens[i].width
    ∧ ((s.unpinContext i).newContext i).height = s.screens[i].height
    ∧ ((s.unpinContext i).newContext i).stride = s.screens[i].stride
    ∧ ((s.unpinContext i).newContext i).layout = (s.latchLayout i).val
    ∧ ((s.unpinContext i).newContext i).background = s.layouts[s.latchLayout i].background
    ∧ (((s.unpinContext i).newContext i).blink = true ↔ s.time.toNat / 250000 % 2 = 1)
    ∧ ((s.unpinContext i).newContext i).panes =
        (chainFrom s.panes 8 s.layouts[s.latchLayout i].head).map
          (latchedEntry (s.unpinContext i) ((s.unpinContext i).pinnedFor i)) := by
  have kept := s.unpinContext_effect i
  have layout : (s.unpinContext i).layouts[(s.unpinContext i).latchLayout i] = s.layouts[s.latchLayout i] := by
    simp only [s.latchLayout_unpinContext i]
    exact congrArg (fun l => l[s.latchLayout i]) (kept.same .layouts)
  unfold State.newContext
  dsimp only
  rw [layout, s.latchLayout_unpinContext i, kept.same .screens, kept.same .panes, kept.same .time]
  exact ⟨rfl, rfl, rfl, rfl, rfl, blinkOf_iff _, rfl⟩

/-- The slots under the latch's pins: one pin more for each camera shown whose newest READY member a slot is. -/
theorem State.latched_slot {k : Nat} (hk : k < (s.unpinContext i).pool.slots.length) :
    ((s.unpinContext i).pinnedFor i).slot k = { (s.unpinContext i).slot k with
      pins := ((s.unpinContext i).slot k).pins + (List.finRange 16).countP fun c : Camera =>
        decide ((∃ e ∈ ((s.unpinContext i).newContext i).panes, e.shown = c)
          ∧ (if s.cameras[c].enable then (s.unpinContext i).rings[c].ready.getLast? else none) = some k) } := by
  have members (c : Camera) : c ∈ distinct (((s.unpinContext i).chainEntries i).map PaneEntry.shown) ↔
      ∃ e ∈ ((s.unpinContext i).newContext i).panes, e.shown = c := by
    rw [mem_distinct, (s.unpinContext i).newContext_panes i, List.mem_map]
    simp only [List.mem_map]
    exact ⟨fun ⟨e, he, shown⟩ => ⟨_, ⟨e, he, rfl⟩, shown⟩, fun ⟨_, ⟨e, he, same⟩, shown⟩ => ⟨e, he, by
      rw [← shown, ← same]; rfl⟩⟩
  refine ((s.unpinContext i).pinShown_slot _ hk).trans ?_
  rw [countP_finRange_of_nodup (nodup_distinct _)]
  refine congrArg (fun n => ({ (s.unpinContext i).slot k with pins := ((s.unpinContext i).slot k).pins + n } : SlotRec))
    (List.countP_congr fun c _ => ?_)
  rw [Bool.and_eq_true, decide_eq_true_iff, decide_eq_true_iff, decide_eq_true_iff, members,
    s.pinTarget_unpinContext i c]

end

/-! ### The statement -/

theorem exec_frameStart {s : State} (running : s.isRunning) {r : Requester} {i : Screen}
    (role : s.roleOf r.tag = .display) (on : s.screens[i].enable = true) :
    exec (.screenRead r i 0) s = .next (((s.latch i).frameStartNotice i).returnWord r
      (((s.latch i).frameStartNotice i).screenWord i 0)) := by
  have start : s.frameStart r i 0 = true := by
    unfold State.frameStart
    rw [decide_eq_true role, on]
    rfl
  have run := exec_screenRead running r i 0
  unfold State.screenBeat at run
  rw [if_pos (show s.frameStart r i (8 * (0 : BitVec 21).toNat) = true from start)] at run
  exact run

/-- The facts of one pane entry of the new context. -/
theorem State.latched_entry (s : State) (i : Screen) {e : PaneEntry}
    (h : e ∈ ((s.unpinContext i).newContext i).panes) :
    ∃ p, e = latchedEntry (s.unpinContext i) ((s.unpinContext i).pinnedFor i) p := by
  rw [(s.latched_frame i).2.2.2.2.2.2] at h
  obtain ⟨p, -, rfl⟩ := List.mem_map.1 h
  exact ⟨p, rfl⟩

theorem Logged.setContext {rs : List Report} {s t : State} (h : Logged rs s t) (i : Screen) (x : Option ScanContext) :
    Logged rs s (t.setContext i x) := h

/-- Behind the unpins a latch takes no report. -/
theorem State.latch_logged (s : State) (i : Screen) : Logged [] (s.unpinContext i) (s.latch i) := by
  rw [s.latch_eq i]
  exact Logged.setContext (((s.unpinContext i).pinShown_touches _).logged (by decide) (by decide) (by decide)) i _

/-- What the notice leaves of the engine, and what it reports. -/
theorem State.frameStart_engine (s : State) (i : Screen) :
    let left := s.engine.pending &&& ~~~(1#4 <<< i.val)
    let u := s.unpinContext i
    let n := (s.latch i).frameStartNotice i
    (s.engine.state ≠ .applying ∨ s.engine.pending.getLsbD i.val = false →
      n.engine = s.engine ∧ n.mem = u.mem ∧ n.ring = u.ring)
    ∧ (s.engine.state = .applying → s.engine.pending.getLsbD i.val = true → left ≠ 0 →
      n.engine = { s.engine with pending := left } ∧ n.mem = u.mem ∧ n.ring = u.ring)
    ∧ (s.engine.state = .applying → s.engine.pending.getLsbD i.val = true → left = 0 →
      n.engine = { s.engine with
        state := .idle, pending := 0, result := .done, reason := .none, table := b8 s.engine.load.table.code
        index := BitVec.ofNat 16 s.engine.load.first }
        ∧ Reported u u.mem [.commandDone 0x02 s.engine.lastTag .done .none (b8 s.engine.load.table.code)
          (BitVec.ofNat 16 s.engine.load.first)] n) := by
  have engine : (s.latch i).engine = s.engine := (s.latch_effect i).same .engine
  have log := s.latch_logged i
  generalize s.latch i = v at engine log
  intro left u n
  refine ⟨fun calm => ?_, fun applying waits others => ?_, fun applying waits last => ?_⟩
  · have same : n = v := State.frameStartNotice_idle (by rwa [engine])
    rw [same]
    exact ⟨engine, log.1, log.2.1⟩
  · have same : n = _ := State.frameStartNotice_waits (by rwa [engine]) (by rwa [engine]) (by rwa [engine])
    rw [same, engine]
    exact ⟨rfl, log.1, log.2.1⟩
  · have same : n = _ := State.frameStartNotice_last (by rwa [engine]) (by rwa [engine]) (by rwa [engine])
    have ends : Logged _ u ((v.setEngine { v.engine with pending := left }).endApplying .done) :=
      (log.trans (State.setEngine_logged _ _)).trans
        ((State.setEngine_logged _ _).trans (State.finish_logged _ _ _ _ _ _))
    rw [same, engine]
    rw [engine] at ends
    refine ⟨?_, ends.reported_self⟩
    rw [State.endApplying_engine, State.setEngine_engine]
    rfl

/-- Settles O52: the latch by `latch_eq`, the pane entries one by one, and the notice by its three cases. -/
theorem frameStartLatches : Obligations.FrameStartLatches := by
  refine ⟨fun r i s running role on => ?_, fun panes head n => chainFrom_getElem? panes 8 head n⟩
  intro lay left u newest bad named
  obtain ⟨width, height, stride, layout, background, blink, panes⟩ := s.latched_frame i
  have latch := s.latch_eq i
  have notice := (s.latch i).frameStartNotice_effect i
  have kept := s.unpinContext_effect i
  have pins := u.pinnedFor_effect i
  have run := exec_frameStart running role on
  have contexts : ((s.latch i).frameStartNotice i).contexts = upd s.contexts i (some (u.newContext i)) := by
    rw [notice.same .contexts, latch, State.setContext_contexts, pins.same .contexts, kept.same .contexts]
  have pool : ((s.latch i).frameStartNotice i).pool = (u.pinnedFor i).pool := by
    rw [notice.same .pool, latch, State.setContext_pool]
  have rings : ((s.latch i).frameStartNotice i).rings = u.rings := by
    rw [notice.same .rings, latch, State.setContext_rings, pins.same .rings]
  have screens : ((s.latch i).frameStartNotice i).screens = s.screens := (s.frameStart_effect i).same .screens
  have own : ((s.latch i).frameStartNotice i).contexts[i] = some (u.newContext i) := by
    rw [contexts, upd_getElem_self]
  have word : ((s.latch i).frameStartNotice i).screenWord i 0 =
      (u.newContext i).readAt ((s.latch i).frameStartNotice i).mem 0 :=
    State.screenWord_of_context _ i 0 (by rw [screens]; exact on) own
  have port : ((s.latch i).frameStartNotice i).port = s.port := (s.frameStart_effect i).same .port
  have touches := (s.frameStart_effect i).touches
  have facts := s.frameStart_engine i
  generalize (s.latch i).frameStartNotice i = n at *
  generalize n.screenWord i 0 = w at run word
  refine ⟨_, u.newContext i, run, own, fun j hj => ?_, touches.returnWord r w (by decide), width, height, stride,
    layout,
    background, blink, ?_, fun e he => ?_, rings, ?_, fun k hk => ?_, ⟨w, returned_of_port r w port, ?_, ?_⟩, ?_,
      ?_, ?_⟩
  · show n.contexts[j] = s.contexts[j]
    rw [contexts, upd_getElem_of_ne _ _ hj]
  · rw [panes, List.map_map]
    refine List.map_congr_left fun p _ => ?_
    show (p.val, (s.unpinContext i).panes[p]) = (p.val, s.panes[p])
    rw [kept.same .panes]
  · obtain ⟨p, rfl⟩ := s.latched_entry i he
    have scene := s.latchPins_scene i
    refine ⟨rfl, rfl, (latchedEntry_size (s.unpinContext_scene i) p).1,
      (latchedEntry_size (s.unpinContext_scene i) p).2,
      latchedEntry_marker p, (latchedEntry_slot p).trans (s.pinTarget_unpinContext i _), fun l hl => ?_,
      latchedEntry_dim scene p, latchedEntry_staleBand scene p, latchedEntry_band scene p, ?_⟩
    · rw [latchedEntry_addr p hl]
      exact congrArg (fun q => q.slotAddr l.slot) pool.symm
    · simp only [named, ← State.doorIn_iff, latchedEntry_border scene p]
      exact s.borderOf_cases _ _
  · show n.pool.slots.length = u.pool.slots.length
    rw [pool]
    exact u.pinShown_length _
  · exact (State.slot_congr (s := u.pinnedFor i) pool k).trans (s.latched_slot i hk)
  · intro empty
    rw [word, (u.newContext i).readAt_padding _ (by rw [Nat.zero_div, Nat.zero_mod]; omega)]
  · intro tall wide
    rw [word, (u.newContext i).readAt_picture _ (by rwa [Nat.zero_div]) (by rw [Nat.zero_mod]; omega),
      Nat.zero_mod, Nat.zero_div, Nat.zero_div]
    exact ⟨(u.newContext i).wordAt_background _ _ _, fun _ _ _ => (u.newContext i).wordAt_pane _ _ _⟩
  · exact facts.1
  · exact facts.2.1
  · exact facts.2.2

end Sys2Proof.Machine
end

section
/-! The accepted notice of the Lens Monitor (O49). -/

namespace Sys2Proof.Machine

set_option Elab.async false

/-! ### The arithmetic of R52 to R54 -/

theorem zoneScore_spec (e ratio : Nat) (he : e ≤ 1023) (hr : ratio ≤ 1023) :
    zoneScore e ratio = (7 * e + ratio + 4) / 8 ∧ zoneScore e ratio ≤ 1023 ∧ zoneScore e e = e := by
  unfold zoneScore
  exact ⟨rfl, by omega, by omega⟩

theorem zoneFlag_iff (on off e : Nat) (was : Bool) :
    zoneFlag on off e was = true ↔ e < on ∨ e < off ∧ was = true := by
  unfold zoneFlag
  split
  · rename_i low
    exact ⟨fun _ => .inl low, fun _ => rfl⟩
  · rename_i high
    split
    · rename_i above
      exact ⟨fun h => (nomatch h), fun h => by omega⟩
    · rename_i between
      exact ⟨fun h => .inr ⟨by omega, h⟩, fun h => (h.resolve_left high).2⟩

theorem frameClass_obscured_iff (part obsc z u : Nat) : frameClass part obsc z u = .obscured ↔ obsc * u ≤ 16 * z := by
  unfold frameClass
  split
  · rename_i h
    exact ⟨fun _ => h, fun _ => rfl⟩
  · rename_i h
    exact ⟨fun e => by (split at e <;> exact nomatch e), fun e => absurd e h⟩

theorem frameClass_part_iff (part obsc z u : Nat) :
    frameClass part obsc z u = .part ↔ 16 * z < obsc * u ∧ part * u ≤ 16 * z := by
  unfold frameClass
  split
  · rename_i h
    exact ⟨fun e => (nomatch e), fun e => by omega⟩
  · rename_i h
    split
    · rename_i h'
      exact ⟨fun _ => ⟨by omega, h'⟩, fun _ => rfl⟩
    · rename_i h'
      exact ⟨fun e => (nomatch e), fun e => absurd e.2 h'⟩

theorem frameClass_clean_iff (part obsc z u : Nat) :
    frameClass part obsc z u = .clean ↔ 16 * z < obsc * u ∧ 16 * z < part * u := by
  unfold frameClass
  split
  · rename_i h
    exact ⟨fun e => (nomatch e), fun e => by omega⟩
  · rename_i h
    split
    · rename_i h'
      exact ⟨fun e => (nomatch e), fun e => by omega⟩
    · rename_i h'
      exact ⟨fun _ => by omega, fun _ => rfl⟩

/-! ### The class history -/

theorem pushClass_eq {h : List FrameClass} (short : h.length ≤ 8) (x : FrameClass) :
    pushClass h x = (if h.length < 8 then h else h.tail) ++ [x] := by
  unfold pushClass
  by_cases full : h.length < 8
  · rw [if_pos full, if_neg (by omega)]
  · rw [if_neg full, if_pos (by omega)]

/-- The counts of two classes together are at most a history's length. -/
theorem count_add_count_le (h : List FrameClass) {x y : FrameClass} (ne : x ≠ y) :
    h.count x + h.count y ≤ h.length := by
  induction h with
  | nil => exact Nat.le_refl 0
  | cons z h ih =>
    rw [List.count_cons, List.count_cons, List.length_cons]
    by_cases hx : z = x
    · subst hx
      rw [beq_self_eq_true, if_pos rfl, if_neg (by rw [beq_iff_eq]; exact ne)]
      omega
    · rw [if_neg (by rw [beq_iff_eq]; exact hx)]
      split <;> omega

theorem FrameClass.mem_all (k : FrameClass) : k ∈ [FrameClass.clean, .part, .obscured] := by cases k <;> decide

theorem newVerdict_some {state : LensState} {h : List FrameClass} {k : FrameClass} (full : h.length = 8)
    (five : 5 ≤ h.count k) (other : k.state ≠ state) : newVerdict state h = some k := by
  unfold newVerdict
  rw [if_pos full]
  cases found : [FrameClass.clean, .part, .obscured].find?
      fun x => decide (x.state ≠ state) && decide (5 ≤ h.count x) with
  | none =>
    have bad := List.find?_eq_none.1 found k k.mem_all
    rw [decide_eq_true other, decide_eq_true five] at bad
    exact absurd rfl bad
  | some x =>
    have holds := List.find?_some found
    rw [Bool.and_eq_true, decide_eq_true_iff, decide_eq_true_iff] at holds
    by_cases same : x = k
    · rw [same]
    · have := count_add_count_le h same
      omega

theorem newVerdict_none {state : LensState} {h : List FrameClass}
    (calm : h.length < 8 ∨ ∀ k : FrameClass, 5 ≤ h.count k → k.state = state) : newVerdict state h = none := by
  unfold newVerdict
  split
  · rename_i full
    refine List.find?_eq_none.2 fun k _ => ?_
    rw [Bool.and_eq_true, decide_eq_true_iff, decide_eq_true_iff]
    exact fun ⟨other, five⟩ => other ((calm.resolve_left (by omega)) k five)
  · rfl

/-! ### A judged frame -/

section
variable (c : Camera) (setup : SetupRec) (base : Baseline) (a : FrameAcc) (l : LensRec)

/-- The scores after a judged frame. -/
def judgedScores : Vector Nat 48 := Vector.ofFn fun z : Zone =>
  if base.usable.get z then zoneScore (l.scores.get z) (zoneRatio (sharpness (a.zones.get z)) (base.b.get z))
  else l.scores.get z

/-- The flags after a judged frame. -/
def judgedFlags : Vector Bool 48 := Vector.ofFn fun z : Zone =>
  if base.usable.get z then zoneFlag setup.onLevel setup.offLevel ((judgedScores base a l).get z) (l.flags.get z)
  else l.flags.get z

/-- Z, the usable zones flagged after a judged frame. -/
def judgedCount : Nat :=
  (List.finRange 48).countP fun z : Zone => base.usable.get z && (judgedFlags setup base a l).get z

/-- The class history after a judged frame. -/
def judgedHistory : List FrameClass :=
  pushClass l.history (frameClass setup.partFrac setup.obscFrac (judgedCount setup base a l) l.usableCount)

/-- The lens state after a judged frame. -/
def judgedState : LensState :=
  ((newVerdict l.state (judgedHistory setup base a l)).map FrameClass.state).getD l.state

/-- The LENS report of a judged frame, if its verdict changes the state. -/
def judgedReports : List Report :=
  match newVerdict l.state (judgedHistory setup base a l) with
  | some x => [.lens c l.state x.state .judged (some (judgedCount setup base a l, l.usableCount))]
  | none => []

theorem judgeFrame_eq : judgeFrame c setup base a l =
    ({ l with
        scores := judgedScores base a l, flags := judgedFlags setup base a l,
        history := judgedHistory setup base a l, state := judgedState setup base a l },
      judgedReports c setup base a l) := by
  unfold judgedState judgedReports
  have verdict : judgeFrame c setup base a l =
      match newVerdict l.state (judgedHistory setup base a l) with
      | some x => ({ l with
          scores := judgedScores base a l, flags := judgedFlags setup base a l,
          history := judgedHistory setup base a l, state := x.state },
          [.lens c l.state x.state .judged (some (judgedCount setup base a l, l.usableCount))])
      | none => ({ l with
          scores := judgedScores base a l, flags := judgedFlags setup base a l,
          history := judgedHistory setup base a l }, []) := rfl
  rw [verdict]
  cases newVerdict l.state (judgedHistory setup base a l) <;> rfl

theorem get_ofFn {α : Type} {n : Nat} (f : Fin n → α) (i : Fin n) : (Vector.ofFn f).get i = f i := by
  rw [Vector.get_eq_getElem, Vector.getElem_ofFn]

theorem judgeFrame_spec (short : l.history.length ≤ 8) :
    let x := judgeFrame c setup base a l
    let flagged := (List.finRange 48).countP fun z : Zone => base.usable.get z && x.1.flags.get z
    (∀ z : Zone, base.usable.get z = false →
        x.1.scores.get z = l.scores.get z ∧ x.1.flags.get z = l.flags.get z)
      ∧ (∀ z : Zone, base.usable.get z = true →
          x.1.scores.get z = zoneScore (l.scores.get z) (zoneRatio (sharpness (a.zones.get z)) (base.b.get z))
            ∧ x.1.flags.get z = zoneFlag setup.onLevel setup.offLevel (x.1.scores.get z) (l.flags.get z))
      ∧ x.1.history = (if l.history.length < 8 then l.history else l.history.tail)
          ++ [frameClass setup.partFrac setup.obscFrac flagged l.usableCount]
      ∧ (∀ k : FrameClass, x.1.history.length = 8 → 5 ≤ x.1.history.count k → k.state ≠ l.state →
          x.1.state = k.state ∧ x.2 = [.lens c l.state k.state .judged (some (flagged, l.usableCount))])
      ∧ ((x.1.history.length < 8 ∨ ∀ k : FrameClass, 5 ≤ x.1.history.count k → k.state = l.state) →
          x.1.state = l.state ∧ x.2 = []) := by
  rw [judgeFrame_eq]
  intro x flagged
  refine ⟨fun z off => ⟨?_, ?_⟩, fun z on => ⟨?_, ?_⟩, pushClass_eq short _, fun k full five other => ?_,
    fun calm => ?_⟩
  · exact (get_ofFn _ z).trans (if_neg (by rw [off]; decide))
  · exact (get_ofFn _ z).trans (if_neg (by rw [off]; decide))
  · exact (get_ofFn _ z).trans (if_pos on)
  · exact (get_ofFn _ z).trans (if_pos on)
  · have verdict := newVerdict_some full five other
    refine ⟨?_, ?_⟩
    · show judgedState setup base a l = k.state
      unfold judgedState
      rw [show newVerdict l.state (judgedHistory setup base a l) = some k from verdict]
      rfl
    · show judgedReports c setup base a l = _
      unfold judgedReports
      rw [show newVerdict l.state (judgedHistory setup base a l) = some k from verdict]
      rfl
  · have verdict := newVerdict_none calm
    refine ⟨?_, ?_⟩
    · show judgedState setup base a l = l.state
      unfold judgedState
      rw [show newVerdict l.state (judgedHistory setup base a l) = none from verdict]
      rfl
    · show judgedReports c setup base a l = _
      unfold judgedReports
      rw [show newVerdict l.state (judgedHistory setup base a l) = none from verdict]

end

end Sys2Proof.Machine
end

section
/-! The accepted notice as a whole (O49): the frame's figures, the candidate, the learning run. -/

namespace Sys2Proof.Machine

set_option Elab.async false

/-! ### The frame's figures -/

theorem mem_includedZones {r : CameraRec} {z : Zone} : z ∈ includedZones r ↔ r.excl.getLsbD z.val = false := by
  unfold includedZones
  rw [List.mem_filter, Bool.not_eq_true']
  exact and_iff_right (List.mem_finRange z)

theorem foldl_min_le (ms : List Nat) (m : Nat) : ms.foldl min m ≤ m ∧ ∀ x ∈ ms, ms.foldl min m ≤ x := by
  induction ms generalizing m with
  | nil => exact ⟨Nat.le_refl m, fun _ h => absurd h List.not_mem_nil⟩
  | cons y ms ih =>
    obtain ⟨low, all⟩ := ih (min m y)
    rw [List.foldl_cons]
    refine ⟨by omega, fun x hx => ?_⟩
    rcases List.mem_cons.1 hx with rfl | h
    · omega
    · exact all x h

theorem foldl_min_mem (ms : List Nat) (m : Nat) : ms.foldl min m ∈ m :: ms := by
  induction ms generalizing m with
  | nil => exact List.mem_cons_self ..
  | cons y ms ih =>
    rw [List.foldl_cons]
    rcases List.mem_cons.1 (ih (min m y)) with h | h
    · rw [h]
      rcases min_choice m y with e | e <;> rw [e] <;> simp
    · exact List.mem_cons_of_mem _ (List.mem_cons_of_mem _ h)

theorem darkestZone_none (r : CameraRec) (a : FrameAcc) (h : ∀ z : Zone, ¬r.excl.getLsbD z.val = false) :
    darkestZone r a = frameMean r a := by
  have empty : includedZones r = [] := List.eq_nil_iff_forall_not_mem.2 fun z hz => h z (mem_includedZones.1 hz)
  unfold darkestZone
  rw [empty]
  rfl

/-- The darkest zone luma is the least mean among the included zones. -/
theorem darkestZone_least (r : CameraRec) (a : FrameAcc) (h : ∃ z : Zone, r.excl.getLsbD z.val = false) :
    (∃ z : Zone, r.excl.getLsbD z.val = false ∧ darkestZone r a = zoneMean (a.zones.get z))
      ∧ ∀ z : Zone, r.excl.getLsbD z.val = false → darkestZone r a ≤ zoneMean (a.zones.get z) := by
  obtain ⟨z, hz⟩ := h
  have mem (z : Zone) (hz : r.excl.getLsbD z.val = false) :
      zoneMean (a.zones.get z) ∈ (includedZones r).map fun z => zoneMean (a.zones.get z) :=
    List.mem_map_of_mem (mem_includedZones.2 hz)
  have back : ∀ x ∈ (includedZones r).map fun z => zoneMean (a.zones.get z),
      ∃ z : Zone, r.excl.getLsbD z.val = false ∧ x = zoneMean (a.zones.get z) := fun x hx => by
    obtain ⟨z, hz, rfl⟩ := List.mem_map.1 hx
    exact ⟨z, mem_includedZones.1 hz, rfl⟩
  unfold darkestZone
  generalize (includedZones r).map (fun z => zoneMean (a.zones.get z)) = means at mem back
  cases means with
  | nil => exact absurd (mem z hz) List.not_mem_nil
  | cons m ms =>
    refine ⟨back _ (foldl_min_mem ms m), fun z hz => ?_⟩
    rcases List.mem_cons.1 (mem z hz) with e | e
    · exact e ▸ (foldl_min_le ms m).1
    · exact (foldl_min_le ms m).2 _ e

/-! ### What the verdict and the run leave of a record -/

/-- The figures of R47 stand in `m` as in `l`. -/
def SameFigures (l m : LensRec) : Prop := m.lastMean = l.lastMean ∧ m.lastDark = l.lastDark

section
variable (c : Camera) (r : CameraRec) (setup : SetupRec) (a : FrameAcc) (l : LensRec)

theorem learnFailTest_figures : SameFigures l (learnFailTest c l).1 := by
  unfold learnFailTest
  split <;> exact ⟨rfl, rfl⟩

theorem learnComplete_figures : SameFigures l (learnComplete c r l).1 := by
  unfold learnComplete
  dsimp only
  split <;> exact ⟨rfl, rfl⟩

/-- The record with a judged frame's sharpness added to the learn sums (R58). -/
def tallied : LensRec :=
  { l with sums := Vector.ofFn fun z : Zone => l.sums.get z + sharpness (a.zones.get z), learned := l.learned + 1 }

theorem learnFrame_complete (last : l.learned + 1 = 64) : learnFrame c r a l = learnComplete c r (tallied a l) :=
  if_pos (show (tallied a l).learned = Config.learnFrames from last)

theorem learnFrame_goesOn (more : l.learned + 1 ≠ 64) : learnFrame c r a l = learnFailTest c (tallied a l) :=
  if_neg (show ¬(tallied a l).learned = Config.learnFrames from more)

theorem tallied_figures : SameFigures l (tallied a l) := by
  unfold SameFigures tallied
  exact ⟨rfl, rfl⟩

theorem SameFigures.trans {l m n : LensRec} (h : SameFigures l m) (k : SameFigures m n) : SameFigures l n :=
  ⟨k.1.trans h.1, k.2.trans h.2⟩

theorem learnFrame_figures : SameFigures l (learnFrame c r a l).1 := by
  by_cases last : l.learned + 1 = 64
  · rw [learnFrame_complete c r a l last]
    exact (tallied_figures a l).trans (learnComplete_figures c r _)
  · rw [learnFrame_goesOn c r a l last]
    exact (tallied_figures a l).trans (learnFailTest_figures c _)

/-- The verdict on a judged frame, with no baseline none (R52). -/
def judged : LensRec × List Report :=
  match l.baseline with
  | some base => judgeFrame c setup base a l
  | none => (l, [])

/-- A verdict changes scores, flags, history and state alone. -/
theorem judged_keeps : (judged c setup a l).1 = { l with
    scores := (judged c setup a l).1.scores, flags := (judged c setup a l).1.flags,
    history := (judged c setup a l).1.history, state := (judged c setup a l).1.state } := by
  unfold judged
  split
  · rw [judgeFrame_eq]
  · rfl

theorem judged_run : (judged c setup a l).1.learn = l.learn ∧ (judged c setup a l).1.learned = l.learned
    ∧ (judged c setup a l).1.sums = l.sums ∧ (judged c setup a l).1.candidates = l.candidates := by
  rw [judged_keeps]
  exact ⟨rfl, rfl, rfl, rfl⟩

/-- The record of a candidate frame, counted while a run is RUNNING (R50). -/
def counted : LensRec :=
  { l with candidates := if l.learn = .running then l.candidates + 1 else l.candidates }

theorem candidateFrame_eq : candidateFrame c r setup a l =
    if lightGate setup (frameMean r a) then
      if l.learn = .running then
        ((learnFrame c r a (judged c setup a (counted l)).1).1,
          (judged c setup a (counted l)).2 ++ (learnFrame c r a (judged c setup a (counted l)).1).2)
      else judged c setup a (counted l)
    else if l.learn = .running then learnFailTest c (counted l)
    else (counted l, []) := by
  have same : (if l.learn = .running then { l with candidates := l.candidates + 1 } else l) = counted l := by
    unfold counted
    split <;> rfl
  have learn : (judged c setup a (counted l)).1.learn = l.learn := (judged_run c setup a (counted l)).1
  unfold candidateFrame
  rw [same]
  show (if lightGate setup (frameMean r a) then
      if (judged c setup a (counted l)).1.learn = .running then
        ((learnFrame c r a (judged c setup a (counted l)).1).1,
          (judged c setup a (counted l)).2 ++ (learnFrame c r a (judged c setup a (counted l)).1).2)
      else judged c setup a (counted l)
    else if l.learn = .running then learnFailTest c (counted l)
    else (counted l, [])) = _
  rw [learn]

theorem candidateFrame_figures : SameFigures l (candidateFrame c r setup a l).1 := by
  have verdict : SameFigures l (judged c setup a (counted l)).1 := by
    rw [judged_keeps]
    exact ⟨rfl, rfl⟩
  rw [candidateFrame_eq]
  split
  · split
    · exact verdict.trans (learnFrame_figures c r a _)
    · exact verdict
  · split
    · exact learnFailTest_figures c (counted l)
    · exact ⟨rfl, rfl⟩

end

/-! ### The accepted notice by its cases -/

section
variable (c : Camera) (r : CameraRec) (setup : SetupRec) (prior : CadenceState) (frozen : Bool) (l : LensRec)

/-- The record with the figures of the frame just accepted. -/
def figured : LensRec :=
  { l with
    acc := none, lastMean := frameMean r (l.acc.getD .zero), lastDark := darkestZone r (l.acc.getD .zero) }

theorem frameEligible_iff :
    frameEligible r prior frozen = true ↔ r.lensOn = true ∧ prior = .locked ∧ frozen = false := by
  unfold frameEligible
  rw [Bool.and_eq_true, Bool.and_eq_true, decide_eq_true_iff, Bool.not_eq_true', and_assoc]

theorem lensAcceptedOf_ineligible (h : ¬(r.lensOn = true ∧ prior = .locked ∧ frozen = false)) :
    lensAcceptedOf c r setup prior frozen l = (figured r l, []) := by
  unfold lensAcceptedOf
  exact if_neg (mt (frameEligible_iff r prior frozen).1 h)

variable {r prior frozen} (h : r.lensOn = true ∧ prior = .locked ∧ frozen = false)
include h

theorem lensAcceptedOf_counted (early : l.eligible + 1 < r.judge) :
    lensAcceptedOf c r setup prior frozen l = ({ figured r l with eligible := l.eligible + 1 }, []) := by
  unfold lensAcceptedOf
  exact (if_pos ((frameEligible_iff r prior frozen).2 h)).trans (if_pos early)

theorem lensAcceptedOf_candidate (due : r.judge ≤ l.eligible + 1) :
    lensAcceptedOf c r setup prior frozen l =
      candidateFrame c r setup (l.acc.getD .zero) { figured r l with eligible := 0 } := by
  unfold lensAcceptedOf
  exact (if_pos ((frameEligible_iff r prior frozen).2 h)).trans (if_neg (by omega))

end

theorem lensAcceptedOf_figures (c : Camera) (r : CameraRec) (setup : SetupRec) (prior : CadenceState) (frozen : Bool)
    (l : LensRec) : SameFigures (figured r l) (lensAcceptedOf c r setup prior frozen l).1 := by
  by_cases h : r.lensOn = true ∧ prior = .locked ∧ frozen = false
  · by_cases early : l.eligible + 1 < r.judge
    · rw [lensAcceptedOf_counted c setup l h early]
      exact ⟨rfl, rfl⟩
    · rw [lensAcceptedOf_candidate c setup l h (by omega)]
      exact candidateFrame_figures c r setup _ { figured r l with eligible := 0 }
  · rw [lensAcceptedOf_ineligible c r setup prior frozen l h]
    exact ⟨rfl, rfl⟩

/-! ### The end of a run -/

section
variable (c : Camera) (r : CameraRec) (l : LensRec)

theorem usableZones_learnedBaseline : (learnedBaseline r l).usableZones =
    (List.finRange 48).countP fun z : Zone =>
      decide (r.excl.getLsbD z.val = false ∧ 64 ≤ (l.sums.get z + 32) / 64) := by
  unfold Baseline.usableZones learnedBaseline
  rw [Vector.toList_ofFn, List.ofFn_eq_map, List.countP_map]
  refine List.countP_congr fun z _ => ?_
  simp

theorem learnedBaseline_spec (z : Zone) : (learnedBaseline r l).b.get z = (l.sums.get z + 32) / 64
    ∧ ((learnedBaseline r l).usable.get z = true ↔
      r.excl.getLsbD z.val = false ∧ 64 ≤ (l.sums.get z + 32) / 64) := by
  unfold learnedBaseline
  rw [get_ofFn, get_ofFn, Bool.and_eq_true, decide_eq_true_iff, Bool.not_eq_true']
  exact ⟨rfl, Iff.rfl⟩

theorem learnComplete_eq : learnComplete c r l =
    if (learnedBaseline r l).usableZones < 12 then
      (l.learnIdle, [.learnEnd c .featureless l.learned l.candidates (some (learnedBaseline r l).usableZones)])
    else
      ({ l.verdictCleared.learnIdle with
          baseline := some (learnedBaseline r l), usableCount := (learnedBaseline r l).usableZones, state := .clean },
        (if l.state ≠ .clean then [.lens c l.state .clean .learned none] else [])
          ++ [.learnEnd c .complete l.learned l.candidates (some (learnedBaseline r l).usableZones)]) := by
  unfold learnComplete
  rfl

theorem learnComplete_featureless (few : (learnedBaseline r l).usableZones < 12) : learnComplete c r l =
    (l.learnIdle, [.learnEnd c .featureless l.learned l.candidates (some (learnedBaseline r l).usableZones)]) := by
  rw [learnComplete_eq, if_pos few]

theorem learnComplete_complete (enough : 12 ≤ (learnedBaseline r l).usableZones) : learnComplete c r l =
    ({ l.verdictCleared.learnIdle with
        baseline := some (learnedBaseline r l), usableCount := (learnedBaseline r l).usableZones, state := .clean },
      (if l.state = .clean then [] else [.lens c l.state .clean .learned none])
        ++ [.learnEnd c .complete l.learned l.candidates (some (learnedBaseline r l).usableZones)]) := by
  rw [learnComplete_eq, if_neg (Nat.not_lt.2 enough)]
  by_cases clean : l.state = .clean
  · rw [if_pos clean, if_neg (fun ne => ne clean)]
  · rw [if_neg clean, if_pos clean]

end

/-- Settles O49: the arithmetic, the verdict, and the notice by eligibility, interval, light gate and run. -/
theorem judgedFrame : Obligations.JudgedFrame := by
  refine ⟨⟨fun si b => rfl, zoneScore_spec, fun on off e was _ => zoneFlag_iff on off e was, frameClass_obscured_iff,
    frameClass_part_iff, frameClass_clean_iff⟩, judgeFrame_spec, fun c r setup prior frozen l => ?_⟩
  intro a x mean si included eligible light figured' candidate idle dark
  obtain ⟨meanIs, darkIs⟩ := lensAcceptedOf_figures c r setup prior frozen l
  have figures : figured' = figured r l := by
    show ({ l with acc := none, lastMean := x.1.lastMean, lastDark := x.1.lastDark } : LensRec) = _
    rw [meanIs, darkIs]
    rfl
  have lightIs : light ↔ lightGate setup (frameMean r a) = true := by
    show setup.darkGate ≤ x.1.lastMean ∧ x.1.lastMean ≤ setup.glareGate ↔ _
    rw [meanIs]
    exact decide_eq_true_iff.symm
  have counted : candidate = counted { figured r l with eligible := 0 } := by
    show ({ figured' with
      eligible := 0, candidates := if l.learn = .running then l.candidates + 1 else l.candidates } : LensRec) = _
    rw [figures]
    rfl
  have darkEq (m : LensRec) (h : m.candidates = l.candidates + 1) : dark m = learnFailTest c m := by
    show (if 4096 ≤ l.candidates + 1 ∧ m.learned < 64 then _ else _) = _
    rw [← h]
    rfl
  refine ⟨meanIs, fun none => ?_, fun some => ?_, fun ineligible => ?_, fun elig early => ?_, fun elig due gate => ?_,
    fun elig due gate => ?_⟩
  · rw [darkIs, meanIs]
    exact darkestZone_none r a none
  · rw [darkIs]
    exact darkestZone_least r a some
  · rw [figures]
    exact lensAcceptedOf_ineligible c r setup prior frozen l ineligible
  · rw [figures]
    exact lensAcceptedOf_counted c setup l elig early
  · rw [counted]
    refine (lensAcceptedOf_candidate c setup l elig due).trans ?_
    rw [candidateFrame_eq, if_neg (mt lightIs.2 gate)]
    refine ite_congr rfl (fun running => (darkEq _ ?_).symm) fun _ => rfl
    exact if_pos running
  · intro j k b usable u
    have verdict : j = judged c setup a (Machine.counted { figured r l with eligible := 0 }) := by
      show (match l.baseline with
        | some base => judgeFrame c setup base a candidate
        | none => (candidate, [])) = _
      rw [counted]
      rfl
    have accepted : x = if l.learn = .running then
        ((learnFrame c r a j.1).1, j.2 ++ (learnFrame c r a j.1).2) else j := by
      rw [verdict]
      refine (lensAcceptedOf_candidate c setup l elig due).trans ?_
      rw [candidateFrame_eq, if_pos (lightIs.1 gate)]
      rfl
    obtain ⟨-, learned, sums, candidates⟩ :=
      judged_run c setup a (Machine.counted { figured r l with eligible := 0 })
    rw [← verdict] at learned sums candidates
    replace learned : j.1.learned = l.learned := learned
    replace sums : j.1.sums = l.sums := sums
    replace candidates (running : l.learn = .running) : j.1.candidates = l.candidates + 1 :=
      candidates.trans (if_pos running)
    have tally : k = tallied a j.1 := by
      show ({ j.1 with
        sums := Vector.ofFn fun z : Zone => l.sums.get z + si z, learned := l.learned + 1 } : LensRec) = _
      unfold tallied
      rw [sums, learned]
      rfl
    have counts : u = (learnedBaseline r k).usableZones := (usableZones_learnedBaseline r k).symm
    clear_value j
    have total (last : l.learned + 1 = 64) : k.learned = 64 := last
    have tried (running : l.learn = .running) : k.candidates = l.candidates + 1 := candidates running
    have complete (last : l.learned + 1 = 64) : learnFrame c r a j.1 = learnComplete c r k := by
      rw [tally, learnFrame_complete c r a _ (by rwa [learned])]
    have goesOn (more : l.learned + 1 ≠ 64) : learnFrame c r a j.1 = learnFailTest c k := by
      rw [tally, learnFrame_goesOn c r a _ (by rwa [learned])]
    clear_value k
    refine ⟨fun idle => ?_, fun running more => ?_, fun running last few => ?_, fun running last enough =>
      ⟨learnedBaseline r k, learnedBaseline_spec r _, ?_⟩⟩
    · rw [accepted, if_neg idle]
    · rw [accepted, if_pos running, goesOn more, darkEq _ (tried running)]
    · rw [accepted, if_pos running, complete last, learnComplete_featureless c r _ (counts ▸ few), total last,
        tried running, counts]
      rfl
    · rw [accepted, if_pos running, complete last, learnComplete_complete c r _ (counts ▸ enough), total last,
        tried running, counts, List.append_assoc]
      rfl

end Sys2Proof.Machine
end

section
/-! The operations of chapter 3 keep a lens record's ranges (R43) and the figures behind it (O57). -/

namespace Sys2Proof.Machine

set_option Elab.async false

/-! ### The ranges in two parts -/

/-- The ranges of a record's verdict and baseline. -/
def LensRec.verdictIn (l : LensRec) : Prop :=
  (∀ z : Zone, l.scores.get z ≤ 1023)
    ∧ l.history.length ≤ 8
    ∧ (l.state = .unlearned ↔ l.baseline = none)
    ∧ ∀ b, l.baseline = some b →
        12 ≤ l.usableCount ∧ l.usableCount = b.usableZones
          ∧ ∀ z : Zone, b.usable.get z = false → l.scores.get z = 256 ∧ l.flags.get z = false

/-- The ranges of a record's learning run. -/
def LensRec.runIn (l : LensRec) : Prop :=
  (l.learn = .idle → l.learned = 0 ∧ l.candidates = 0 ∧ ∀ z : Zone, l.sums.get z = 0)
    ∧ l.learned < Config.learnFrames ∧ l.candidates < Config.learnLimit

theorem LensRec.inRange_iff {l : LensRec} : l.inRange ↔ l.verdictIn ∧ l.runIn := by
  unfold LensRec.inRange LensRec.verdictIn LensRec.runIn
  exact ⟨fun ⟨h1, h2, h3, h4, h5⟩ => ⟨⟨h1, h2, h3, h4⟩, h5⟩, fun ⟨⟨h1, h2, h3, h4⟩, h5⟩ => ⟨h1, h2, h3, h4, h5⟩⟩

theorem get_replicate {α : Type} {n : Nat} (x : α) (i : Fin n) : (Vector.replicate n x).get i = x := by
  rw [Vector.get_eq_getElem, Vector.getElem_replicate]

/-- A record whose run has gone is in range when its verdict is. -/
theorem LensRec.learnIdle_inRange {l : LensRec} (h : l.verdictIn) : l.learnIdle.inRange :=
  LensRec.inRange_iff.2 ⟨h, fun _ => ⟨rfl, rfl, fun z => get_replicate 0 z⟩,
    (by decide : 0 < Config.learnFrames), (by decide : 0 < Config.learnLimit)⟩

/-- The verdict state cleared, on no baseline and none. -/
theorem LensRec.verdictCleared_unlearned (l : LensRec) (n : Nat) :
    LensRec.verdictIn { l.verdictCleared with baseline := none, usableCount := n, state := .unlearned } :=
  ⟨fun z => by
    show (Vector.replicate 48 256).get z ≤ 1023
    rw [get_replicate]
    decide, Nat.zero_le _, Iff.rfl.trans ⟨fun _ => rfl, fun _ => rfl⟩, fun _ h => nomatch h⟩

/-- The verdict state cleared, on a baseline with enough usable zones. -/
theorem LensRec.verdictCleared_clean (l : LensRec) {b : Baseline} {n : Nat} (enough : 12 ≤ n) (count : n
  = b.usableZones) :
    LensRec.verdictIn { l.verdictCleared with baseline := some b, usableCount := n, state := .clean } := by
  refine ⟨fun z => ?_, Nat.zero_le _, ⟨fun h => (nomatch h), fun h => (nomatch h)⟩, fun b' h => ⟨enough, ?_,
    fun z _ => ⟨?_, ?_⟩⟩⟩
  · show (Vector.replicate 48 256).get z ≤ 1023
    rw [get_replicate]
    decide
  · cases h
    exact count
  · exact get_replicate 256 z
  · exact get_replicate false z

/-- A record as a completed run leaves it. -/
theorem LensRec.learned_inRange (l : LensRec) {b : Baseline} {n : Nat} (enough : 12 ≤ n) (count : n = b.usableZones) :
    LensRec.inRange { l.verdictCleared.learnIdle with baseline := some b, usableCount := n, state := .clean } :=
  LensRec.learnIdle_inRange (l.verdictCleared_clean enough count)

/-- The ranges of the verdict speak of six fields. -/
theorem LensRec.verdictIn_congr {l m : LensRec} (scores : m.scores = l.scores) (history : m.history = l.history)
    (state : m.state = l.state) (baseline : m.baseline = l.baseline) (count : m.usableCount = l.usableCount)
    (flags : m.flags = l.flags) (h : l.verdictIn) : m.verdictIn := by
  unfold LensRec.verdictIn
  rw [scores, history, state, baseline, count, flags]
  exact h

section
variable {c : Camera} {l : LensRec}

/-! ### The verdict -/

theorem pushClass_length (h : List FrameClass) (x : FrameClass) (short : h.length ≤ 8) :
  (pushClass h x).length ≤ 8 := by
  rw [pushClass_eq short, List.length_append]
  split
  · simp only [List.length_singleton]
    omega
  · rw [List.length_tail]
    simp only [List.length_singleton]
    omega

theorem FrameClass.state_ne_unlearned (k : FrameClass) : k.state ≠ .unlearned := by cases k <;> decide

theorem judgedState_ne_unlearned (setup : SetupRec) (base : Baseline) (a : FrameAcc) (h : l.state ≠ .unlearned) :
    judgedState setup base a l ≠ .unlearned := by
  unfold judgedState
  cases newVerdict l.state (judgedHistory setup base a l) with
  | none => exact h
  | some k => exact k.state_ne_unlearned

theorem judged_verdictIn (setup : SetupRec) (a : FrameAcc) (h : l.verdictIn) : (judged c setup a l).1.verdictIn := by
  unfold judged
  cases standing : l.baseline with
  | none => exact h
  | some base =>
    obtain ⟨scores, history, learned, usable⟩ := h
    dsimp only
    rw [judgeFrame_eq]
    have learnedIs : l.state ≠ .unlearned := fun e => by
      rw [learned.1 e] at standing
      exact nomatch standing
    refine ⟨fun z => ?_, pushClass_length _ _ history,
      ⟨fun e => absurd e (judgedState_ne_unlearned setup base a learnedIs),
      fun e => ?_⟩, fun b hb => ?_⟩
    · show (judgedScores base a l).get z ≤ 1023
      unfold judgedScores
      rw [get_ofFn]
      split
      · exact (zoneScore_spec _ _ (scores z) (Nat.min_le_left _ _)).2.1
      · exact scores z
    · exact absurd (standing.symm.trans e) (by simp)
    · obtain rfl : base = b := Option.some.inj (standing.symm.trans hb)
      obtain ⟨enough, count, off⟩ := usable base standing
      refine ⟨enough, count, fun z hz => ⟨?_, ?_⟩⟩
      · show (judgedScores base a l).get z = 256
        unfold judgedScores
        rw [get_ofFn, if_neg (by rw [hz]; decide)]
        exact (off z hz).1
      · show (judgedFlags setup base a l).get z = false
        unfold judgedFlags
        rw [get_ofFn, if_neg (by rw [hz]; decide)]
        exact (off z hz).2

/-! ### The learning run -/

theorem learnComplete_inRange (r : CameraRec) (h : l.verdictIn) : (learnComplete c r l).1.inRange := by
  by_cases few : (learnedBaseline r l).usableZones < 12
  · rw [learnComplete_featureless c r l few]
    exact LensRec.learnIdle_inRange h
  · rw [learnComplete_complete c r l (by omega)]
    exact l.learned_inRange (by omega) rfl

theorem learnFailTest_inRange (h : l.verdictIn) (run : l.learn ≠ .idle) (few : l.learned < 64) :
    (learnFailTest c l).1.inRange := by
  unfold learnFailTest
  split
  · exact LensRec.learnIdle_inRange h
  · rename_i early
    exact LensRec.inRange_iff.2 ⟨h, fun e => absurd e run, few, Nat.not_le.1 fun k => early ⟨k, few⟩⟩

theorem tallied_verdictIn (a : FrameAcc) (h : l.verdictIn) : (tallied a l).verdictIn := by
  refine LensRec.verdictIn_congr ?_ ?_ ?_ ?_ ?_ ?_ h <;> unfold tallied <;> rfl

theorem tallied_run (a : FrameAcc) : (tallied a l).learn = l.learn ∧ (tallied a l).learned = l.learned + 1 := by
  unfold tallied
  exact ⟨rfl, rfl⟩

theorem learnFrame_inRange (r : CameraRec) (a : FrameAcc) (h : l.verdictIn) (run : l.learn ≠ .idle)
    (few : l.learned < 64) : (learnFrame c r a l).1.inRange := by
  by_cases last : l.learned + 1 = 64
  · rw [learnFrame_complete c r a l last]
    exact learnComplete_inRange r (tallied_verdictIn a h)
  · rw [learnFrame_goesOn c r a l last]
    obtain ⟨learn, learned⟩ := tallied_run a (l := l)
    exact learnFailTest_inRange (tallied_verdictIn a h) (by rw [learn]; exact run) (by rw [learned]; omega)

theorem candidateFrame_inRange (r : CameraRec) (setup : SetupRec) (a : FrameAcc) (h : l.inRange) :
    (candidateFrame c r setup a l).1.inRange := by
  obtain ⟨verdict, run⟩ := LensRec.inRange_iff.1 h
  have countedIn : (counted l).verdictIn := verdict
  obtain ⟨learn, learned, sums, candidates⟩ := judged_run c setup a (counted l)
  have idle (still : l.learn ≠ .running) : (counted l).runIn := by
    have same : (counted l).candidates = l.candidates := if_neg still
    obtain ⟨zero, few, below⟩ := run
    exact ⟨fun e => by rw [same]; exact zero e, few, by rwa [same]⟩
  rw [candidateFrame_eq]
  split
  · split
    · rename_i running
      refine learnFrame_inRange r a (judged_verdictIn setup a countedIn) ?_ (learned ▸ run.2.1)
      rw [learn]
      exact fun e => nomatch running.symm.trans e
    · rename_i still
      refine LensRec.inRange_iff.2 ⟨judged_verdictIn setup a countedIn, ?_⟩
      unfold LensRec.runIn
      rw [learn, learned, sums, candidates]
      exact idle still
  · split
    · rename_i running
      exact learnFailTest_inRange countedIn (fun e => nomatch running.symm.trans e) run.2.1
    · rename_i still
      exact LensRec.inRange_iff.2 ⟨countedIn, idle still⟩

theorem lensAcceptedOf_inRange (r : CameraRec) (setup : SetupRec) (prior : CadenceState) (frozen : Bool)
    (h : l.inRange) : (lensAcceptedOf c r setup prior frozen l).1.inRange := by
  by_cases elig : r.lensOn = true ∧ prior = .locked ∧ frozen = false
  · by_cases early : l.eligible + 1 < r.judge
    · rw [lensAcceptedOf_counted c setup l elig early]
      exact h
    · rw [lensAcceptedOf_candidate c setup l elig (by omega)]
      exact candidateFrame_inRange r setup _ (l := { figured r l with eligible := 0 }) h
  · rw [lensAcceptedOf_ineligible c r setup prior frozen l elig]
    exact h

theorem learnStart_inRange (r : CameraRec) (h : l.inRange) : (learnStart r l).1.inRange := by
  unfold learnStart
  split
  · exact h
  · split
    · exact h
    · exact LensRec.inRange_iff.2 ⟨(LensRec.inRange_iff.1 h).1, fun e => (nomatch e),
      (by decide : 0 < Config.learnFrames), (by decide : 0 < Config.learnLimit)⟩

/-- Another activity than IDLE asks nothing of the run's figures but their limits. -/
theorem LensRec.inRange_activity {x : LearnActivity} (run : x ≠ .idle) (h : l.inRange) :
    LensRec.inRange { l with learn := x } := by
  obtain ⟨verdict, -, few, below⟩ := LensRec.inRange_iff.1 h
  exact LensRec.inRange_iff.2 ⟨verdict, fun e => absurd e run, few, below⟩

theorem learnPause_inRange (h : l.inRange) : (learnPause l).1.inRange := by
  unfold learnPause
  split
  · exact h
  · exact LensRec.inRange_activity (by decide) h
  · exact h

theorem learnContinue_inRange (h : l.inRange) : (learnContinue l).1.inRange := by
  unfold learnContinue
  split
  · exact h
  · exact h
  · exact LensRec.inRange_activity (by decide) h

/-! ### Enable, disable, configuration, restart -/

theorem discardRun_inRange (cause : DiscardCause) (h : l.inRange) : (discardRun c cause l).1.inRange := by
  unfold discardRun
  split
  · exact h
  · exact LensRec.learnIdle_inRange (LensRec.inRange_iff.1 h).1

theorem verdictRestart_inRange (cause : LensCause) (h : l.inRange) : (verdictRestart c cause l).1.inRange := by
  obtain ⟨⟨-, -, -, usable⟩, run⟩ := LensRec.inRange_iff.1 h
  unfold verdictRestart
  split
  · exact h
  · rename_i base standing
    obtain ⟨enough, count, -⟩ := usable base standing
    have cleared := l.verdictCleared_clean enough count
    rw [← standing] at cleared
    exact LensRec.inRange_iff.2 ⟨cleared, run⟩

theorem lensEnabled_inRange (h : l.inRange) : (lensEnabled c l).1.inRange :=
  verdictRestart_inRange (l := { l with eligible := 0 }) _ h

theorem lensDisabled_inRange (old new : CameraRec) (h : l.inRange) : (lensDisabled c old new l).1.inRange :=
  discardRun_inRange _ h

theorem baselineDiscard_inRange (h : l.inRange) : (baselineDiscard c l).1.inRange :=
  discardRun_inRange (l := { l.verdictCleared with baseline := none, usableCount := 0, state := .unlearned }) _
    (LensRec.inRange_iff.2 ⟨l.verdictCleared_unlearned 0, (LensRec.inRange_iff.1 h).2⟩)

theorem lensSwitch_inRange (old new : CameraRec) (h : l.inRange) : (lensSwitch c old new l).1.inRange := by
  unfold lensSwitch
  split
  · exact discardRun_inRange _ h
  · split <;> exact h

theorem lensConfigured_inRange (old new : CameraRec) (h : l.inRange) : (lensConfigured c old new l).1.inRange := by
  unfold lensConfigured
  refine lensSwitch_inRange old new ?_
  split
  · exact baselineDiscard_inRange h
  · exact h

theorem lensRestarted_inRange (h : l.inRange) : (lensRestarted c l).1.inRange := by
  unfold lensRestarted
  exact verdictRestart_inRange _ (discardRun_inRange (l := { l with acc := none }) _ h)

end

end Sys2Proof.Machine
end

section
/-! The figures behind a lens record under the operations of chapter 3 (R43, R45; O57). -/

namespace Sys2Proof.Machine

set_option Elab.async false

/-! ### The accumulators of a frame -/

/-- The zones hold no more than their words can give (R45). -/
def FrameAcc.Bounded (a : FrameAcc) : Prop :=
  ∀ z : Zone, (a.zones.get z).gradient ≤ 765 * (a.zones.get z).words
    ∧ (a.zones.get z).luma ≤ 1020 * (a.zones.get z).words

theorem coredStep_le (tn : Nat) (a b : Byte) : coredStep tn a b ≤ 255 := by
  have := a.isLt
  have := b.isLt
  unfold coredStep
  omega

theorem coredGradient_le (tn : Nat) (w : Word) : coredGradient tn w ≤ 765 := by
  unfold coredGradient
  have h1 := coredStep_le tn (byteOf w 0) (byteOf w 2)
  have h2 := coredStep_le tn (byteOf w 2) (byteOf w 4)
  have h3 := coredStep_le tn (byteOf w 4) (byteOf w 6)
  omega

theorem lumaSum_le (w : Word) : lumaSum w ≤ 1020 := by
  unfold lumaSum
  have h1 := (byteOf w 0).isLt
  have h2 := (byteOf w 2).isLt
  have h3 := (byteOf w 4).isLt
  have h4 := (byteOf w 6).isLt
  omega

/-- Also where they saturate, the sums stay below what the saturated word count gives. -/
theorem ZoneAcc.add_bounded {z : ZoneAcc} (tn : Nat) (w : Word)
    (h : z.gradient ≤ 765 * z.words ∧ z.luma ≤ 1020 * z.words) :
    (z.add tn w).gradient ≤ 765 * (z.add tn w).words ∧ (z.add tn w).luma ≤ 1020 * (z.add tn w).words := by
  have gradient := coredGradient_le tn w
  have luma := lumaSum_le w
  unfold ZoneAcc.add Config.gradientMax Config.lumaMax Config.zoneWordsMax
  dsimp only
  generalize coredGradient tn w = g at *
  generalize lumaSum w = l at *
  omega

theorem FrameAcc.zero_bounded : FrameAcc.zero.Bounded := fun z => by
  unfold FrameAcc.zero
  rw [get_replicate]
  exact ⟨Nat.zero_le _, Nat.zero_le _⟩

theorem FrameAcc.add_bounded {a : FrameAcc} (r : CameraRec) (tn n : Nat) (w : Word) (h : a.Bounded) :
    (a.add r tn n w).Bounded := fun z => by
  unfold FrameAcc.add
  dsimp only
  by_cases here : z = zoneOf r n
  · subst here
    rw [upd_get_self]
    exact ZoneAcc.add_bounded tn w (h _)
  · rw [upd_get_of_ne _ _ here]
    exact h z

theorem FrameAcc.add_total (a : FrameAcc) (r : CameraRec) (tn n : Nat) (w : Word) :
    (a.add r tn n w).total ≤ a.total + 1020 := by
  have := lumaSum_le w
  unfold FrameAcc.add
  dsimp only
  omega

/-! ### The figures of a frame -/

theorem sharpness_le {z : ZoneAcc} (h : z.gradient ≤ 765 * z.words) : sharpness z ≤ 65280 := by
  unfold sharpness
  split
  · exact Nat.zero_le _
  · rename_i some
    have : z.gradient * 256 / (3 * z.words) ≤ 65280 := by
      rw [Nat.div_le_iff_le_mul_add_pred (by omega)]
      omega
    exact this

theorem zoneMean_le {z : ZoneAcc} (h : z.luma ≤ 1020 * z.words) : zoneMean z ≤ 255 := by
  unfold zoneMean
  split
  · exact Nat.zero_le _
  · rename_i some
    have : z.luma / (4 * z.words) ≤ 255 := by
      rw [Nat.div_le_iff_le_mul_add_pred (by omega)]
      omega
    exact this

/-- The mean luma of a frame whose words are all counted. -/
theorem frameMean_le {r : CameraRec} {a : FrameAcc} (h : a.total ≤ 1020 * r.frameWords) : frameMean r a ≤ 255 := by
  unfold CameraRec.frameWords at h
  unfold frameMean
  generalize r.w * r.h = area at *
  have : a.total ≤ 255 * area := by omega
  rcases Nat.eq_zero_or_pos area with zero | some
  · rw [zero, Nat.div_zero]
    exact Nat.zero_le _
  · rw [Nat.div_le_iff_le_mul_add_pred some]
    have := Nat.mul_comm area 255
    omega

theorem darkestZone_le {r : CameraRec} {a : FrameAcc} (bounded : a.Bounded) (mean : frameMean r a ≤ 255) :
    darkestZone r a ≤ 255 := by
  by_cases some : ∃ z : Zone, r.excl.getLsbD z.val = false
  · obtain ⟨⟨z, -, least⟩, -⟩ := darkestZone_least r a some
    rw [least]
    exact zoneMean_le (bounded z).2
  · rw [darkestZone_none r a fun z h => some ⟨z, h⟩]
    exact mean

/-! ### The figures of a record -/

/-- The figures behind a lens record, but for the frame's total. -/
structure LensRec.Bounded (l : LensRec) : Prop where
  eligible : l.eligible ≤ 15
  noise : l.noiseInUse ≤ 31
  mean : l.lastMean ≤ 255
  dark : l.lastDark ≤ 255
  baseline : ∀ b, l.baseline = some b → ∀ z : Zone, b.b.get z ≤ 65280
  learned : l.learned ≤ 64
  sums : ∀ z : Zone, l.sums.get z ≤ 65280 * l.learned
  acc : ∀ a, l.acc = some a → a.Bounded

/-- The figures speak of eight fields. -/
theorem LensRec.Bounded.congr {l m : LensRec} (h : l.Bounded) (eligible : m.eligible = l.eligible)
    (noise : m.noiseInUse = l.noiseInUse) (mean : m.lastMean = l.lastMean) (dark : m.lastDark = l.lastDark)
    (baseline : m.baseline = l.baseline) (learned : m.learned = l.learned) (sums : m.sums = l.sums)
    (acc : m.acc = l.acc) : m.Bounded where
  eligible := eligible ▸ h.eligible
  noise := noise ▸ h.noise
  mean := mean ▸ h.mean
  dark := dark ▸ h.dark
  baseline := baseline ▸ h.baseline
  learned := learned ▸ h.learned
  sums := by rw [sums, learned]; exact h.sums
  acc := acc ▸ h.acc

section
variable {c : Camera} {l : LensRec} (h : l.Bounded)
include h

theorem LensRec.Bounded.dropped : LensRec.Bounded { l with acc := none } :=
  ⟨h.eligible, h.noise, h.mean, h.dark, h.baseline, h.learned, h.sums, fun _ e => nomatch e⟩

theorem LensRec.Bounded.begun {n : Nat} (noise : n ≤ 31) :
    LensRec.Bounded { l with acc := some .zero, noiseInUse := n } :=
  ⟨h.eligible, noise, h.mean, h.dark, h.baseline, h.learned, h.sums,
    fun _ e => Option.some.inj e ▸ FrameAcc.zero_bounded⟩

theorem LensRec.Bounded.added (r : CameraRec) (n : Nat) (w : Word) :
    LensRec.Bounded { l with acc := l.acc.map fun a => a.add r l.noiseInUse n w } :=
  ⟨h.eligible, h.noise, h.mean, h.dark, h.baseline, h.learned, h.sums, fun a e => by
    obtain ⟨b, hb, rfl⟩ := Option.map_eq_some_iff.1 (e : l.acc.map _ = some a)
    exact FrameAcc.add_bounded r _ n w (h.acc b hb)⟩

theorem LensRec.Bounded.uncounted : LensRec.Bounded { l with eligible := 0 } :=
  ⟨Nat.zero_le _, h.noise, h.mean, h.dark, h.baseline, h.learned, h.sums, h.acc⟩

theorem LensRec.Bounded.learnIdle : l.learnIdle.Bounded :=
  ⟨h.eligible, h.noise, h.mean, h.dark, h.baseline, Nat.zero_le _, fun z => by
    show (Vector.replicate 48 0).get z ≤ _
    rw [get_replicate]
    exact Nat.zero_le _, h.acc⟩

theorem LensRec.Bounded.based {b : Option Baseline} {n : Nat} {x : LensState}
    (base : ∀ b', b = some b' → ∀ z : Zone, b'.b.get z ≤ 65280) :
    LensRec.Bounded { l.verdictCleared with baseline := b, usableCount := n, state := x } :=
  ⟨h.eligible, h.noise, h.mean, h.dark, base, h.learned, h.sums, h.acc⟩

/-! ### The verdict and the run -/

theorem judged_bounded (setup : SetupRec) (a : FrameAcc) : (judged c setup a l).1.Bounded := by
  rw [judged_keeps]
  exact h.congr rfl rfl rfl rfl rfl rfl rfl rfl

theorem tallied_bounded {a : FrameAcc} (bounded : a.Bounded) (few : l.learned < 64) : (tallied a l).Bounded := by
  unfold tallied
  refine ⟨h.eligible, h.noise, h.mean, h.dark, h.baseline, few, fun z => ?_, h.acc⟩
  have sharp := sharpness_le (bounded z).1
  have sum := h.sums z
  show (Vector.ofFn fun z : Zone => l.sums.get z + sharpness (a.zones.get z)).get z ≤ 65280 * (l.learned + 1)
  rw [get_ofFn]
  omega

theorem learnFailTest_bounded : (learnFailTest c l).1.Bounded := by
  unfold learnFailTest
  split
  · exact h.learnIdle
  · exact h

/-- The means of at most 64 learned frames. -/
theorem learnedBaseline_le (r : CameraRec) (z : Zone) : (learnedBaseline r l).b.get z ≤ 65280 := by
  rw [(learnedBaseline_spec r l z).1]
  have := h.sums z
  have := h.learned
  have : l.sums.get z ≤ 65280 * 64 := by omega
  omega

theorem learnComplete_bounded (r : CameraRec) : (learnComplete c r l).1.Bounded := by
  by_cases few : (learnedBaseline r l).usableZones < 12
  · rw [learnComplete_featureless c r l few]
    exact h.learnIdle
  · rw [learnComplete_complete c r l (by omega)]
    have base := learnedBaseline_le h r
    generalize learnedBaseline r l = b at base
    exact ((h.based (b := some b) fun b' e => Option.some.inj e ▸ base).learnIdle).congr rfl rfl rfl rfl rfl rfl rfl rfl

theorem learnFrame_bounded (r : CameraRec) {a : FrameAcc} (bounded : a.Bounded) (few : l.learned < 64) :
    (learnFrame c r a l).1.Bounded := by
  have next := tallied_bounded h bounded few
  by_cases last : l.learned + 1 = 64
  · rw [learnFrame_complete c r a l last]
    exact learnComplete_bounded next r
  · rw [learnFrame_goesOn c r a l last]
    exact learnFailTest_bounded next

theorem candidateFrame_bounded (r : CameraRec) (setup : SetupRec) {a : FrameAcc} (bounded : a.Bounded)
    (few : l.learned < 64) : (candidateFrame c r setup a l).1.Bounded := by
  have countedIn : (counted l).Bounded := h.congr rfl rfl rfl rfl rfl rfl rfl rfl
  have verdict := judged_bounded (c := c) countedIn setup a
  have learned := (judged_run c setup a (counted l)).2.1
  rw [candidateFrame_eq]
  split
  · split
    · exact learnFrame_bounded verdict r bounded (by rw [learned]; exact few)
    · exact verdict
  · split
    · exact learnFailTest_bounded countedIn
    · exact countedIn

/-- The accepted notice, for a frame whose words are all counted. -/
theorem lensAcceptedOf_bounded {r : CameraRec} (setup : SetupRec) (prior : CadenceState) (frozen : Bool)
    (judge : r.judge ≤ 16) (few : l.learned < 64) (total : ∀ a, l.acc = some a → a.total ≤ 1020 * r.frameWords) :
    (lensAcceptedOf c r setup prior frozen l).1.Bounded := by
  have bounded : (l.acc.getD .zero).Bounded := by
    cases standing : l.acc with
    | none => exact FrameAcc.zero_bounded
    | some a => exact h.acc a standing
  have mean : frameMean r (l.acc.getD .zero) ≤ 255 := by
    refine frameMean_le ?_
    cases standing : l.acc with
    | none => exact Nat.zero_le _
    | some a => exact total a standing
  have figures : (figured r l).Bounded :=
    ⟨h.eligible, h.noise, mean, darkestZone_le bounded mean, h.baseline, h.learned, h.sums, fun _ e => nomatch e⟩
  by_cases elig : r.lensOn = true ∧ prior = .locked ∧ frozen = false
  · by_cases early : l.eligible + 1 < r.judge
    · rw [lensAcceptedOf_counted c setup l elig early]
      exact ⟨show l.eligible + 1 ≤ 15 by omega, figures.noise, figures.mean, figures.dark, figures.baseline,
        figures.learned, figures.sums, figures.acc⟩
    · rw [lensAcceptedOf_candidate c setup l elig (by omega)]
      exact candidateFrame_bounded figures.uncounted r setup bounded few
  · rw [lensAcceptedOf_ineligible c r setup prior frozen l elig]
    exact figures

theorem learnStart_bounded (r : CameraRec) : (learnStart r l).1.Bounded := by
  unfold learnStart
  split
  · exact h
  · split
    · exact h
    · exact h.learnIdle.congr rfl rfl rfl rfl rfl rfl rfl rfl

theorem learnPause_bounded : (learnPause l).1.Bounded := by
  unfold learnPause
  split <;> exact h.congr rfl rfl rfl rfl rfl rfl rfl rfl

theorem learnContinue_bounded : (learnContinue l).1.Bounded := by
  unfold learnContinue
  split <;> exact h.congr rfl rfl rfl rfl rfl rfl rfl rfl

/-! ### Enable, disable, configuration, restart -/

theorem discardRun_bounded (cause : DiscardCause) : (discardRun c cause l).1.Bounded := by
  unfold discardRun
  split
  · exact h
  · exact h.learnIdle

theorem verdictRestart_bounded (cause : LensCause) : (verdictRestart c cause l).1.Bounded := by
  unfold verdictRestart
  split
  · exact h
  · exact h.congr rfl rfl rfl rfl rfl rfl rfl rfl

theorem lensEnabled_bounded : (lensEnabled c l).1.Bounded := verdictRestart_bounded h.uncounted _

theorem baselineDiscard_bounded : (baselineDiscard c l).1.Bounded :=
  discardRun_bounded (h.based (b := none) fun _ e => nomatch e) _

theorem lensSwitch_bounded (old new : CameraRec) : (lensSwitch c old new l).1.Bounded := by
  unfold lensSwitch
  split
  · exact discardRun_bounded h _
  · split
    · exact h.uncounted
    · exact h

theorem lensConfigured_bounded (old new : CameraRec) : (lensConfigured c old new l).1.Bounded := by
  unfold lensConfigured
  refine lensSwitch_bounded ?_ old new
  split
  · exact baselineDiscard_bounded h
  · exact h

theorem lensRestarted_bounded : (lensRestarted c l).1.Bounded := by
  unfold lensRestarted
  exact (verdictRestart_bounded (discardRun_bounded h.dropped _) _).uncounted

end

end Sys2Proof.Machine
end

section
/-! The landing phases of the cameras (R10, R11) under everything but a landing beat: no operation puts a camera
into the FRAME phase, counts a word of its frame or takes its FILLING member away. -/

namespace Sys2Proof.Machine

set_option Elab.async false

/-! ### The relation -/

/-- A ring in the FRAME phase was in it before, with the same word count, and has a FILLING member if it had. -/
def RingRec.LandingKept (g g' : RingRec) : Prop :=
  g'.phase = .inFrame → g.phase = .inFrame ∧ g'.writes = g.writes ∧ (g.filling.isSome = true → g'.filling.isSome = true)

/-- The same, of every camera. -/
def LandingKept (s t : State) : Prop := ∀ c : Camera, s.rings[c].LandingKept t.rings[c]

theorem RingRec.LandingKept.refl (g : RingRec) : g.LandingKept g := fun h => ⟨h, rfl, id⟩

theorem LandingKept.refl (s : State) : LandingKept s s := fun c => .refl s.rings[c]

theorem LandingKept.trans {s t u : State} (h : LandingKept s t)
  (k : LandingKept t u) : LandingKept s u := fun c hu => by
  obtain ⟨ht, writes, filling⟩ := k c hu
  obtain ⟨hs, writes', filling'⟩ := h c ht
  exact ⟨hs, writes.trans writes', filling ∘ filling'⟩

theorem LandingKept.foldl {α : Type} {f : State → α → State} (h : ∀ u x,
  LandingKept u (f u x)) (l : List α) (s : State) :
    LandingKept s (l.foldl f s) := by
  induction l generalizing s with
  | nil => exact .refl s
  | cons x l ih => exact (h s x).trans (ih _)

theorem LandingKept.of_rings {s t : State} (h : t.rings = s.rings) : LandingKept s t := fun c => by
  rw [h]
  exact .refl _

theorem Effect.landingKept {ps : List Piece} {s t : State} (e : Effect ps s t)
    (h : Piece.rings ∉ Piece.mem :: .ring :: ps := by decide) : LandingKept s t := .of_rings (e.same .rings h)

theorem LandingKept.setRing (s : State) {c : Camera} {g : RingRec} (h : s.rings[c].LandingKept g) :
    LandingKept s (s.setRing c g) := fun d => by
  rw [State.setRing_rings]
  rcases upd_getElem_cases s.rings c d g with ⟨e, rfl⟩ | ⟨e, -⟩
  · rw [e]
    exact h
  · rw [e]
    exact .refl _

theorem State.setSlot_landingKept (s : State) (i : Nat) (x : SlotRec) : LandingKept s (s.setSlot i x) :=
  (s.setSlot_effect i x).landingKept

/-! ### The Slot Manager -/

theorem targetChoice_landingKept {pins : Nat → Nat} {r g : RingRec} {i : Nat} (h : targetChoice pins r = some (i, g)) :
    r.LandingKept g := by
  cases he : r.empty with
  | cons k rest =>
    rw [targetChoice_of_empty he] at h
    cases h
    exact fun ph => ⟨ph, rfl, fun _ => rfl⟩
  | nil =>
    rw [targetChoice_of_full he] at h
    obtain ⟨k, -, e⟩ := Option.map_eq_some_iff.1 h
    cases e
    exact fun ph => ⟨ph, rfl, fun _ => rfl⟩

theorem State.takeTarget_landingKept {s t : State} {c : Camera} (h : s.takeTarget c = some t) : LandingKept s t := by
  unfold State.takeTarget at h
  split at h
  · rename_i i g choice
    cases h
    exact (LandingKept.setRing s (targetChoice_landingKept choice)).trans (State.setSlot_landingKept _ _ _)
  · cases h

theorem State.chooseTarget_landingKept (s : State) (c : Camera) : LandingKept s (s.chooseTarget c) := by
  unfold State.chooseTarget
  split
  · exact State.takeTarget_landingKept ‹_›
  · exact (Effect.emit s _).landingKept

theorem State.endStarved_landingKept (s : State) (c : Camera) : LandingKept s (s.endStarved c) := by
  unfold State.endStarved
  split
  · exact (State.takeTarget_landingKept ‹_›).trans (Effect.emit _ _).landingKept
  · exact .refl s

/-- A ring in the WAITING phase asks nothing. -/
theorem LandingKept.setRing_waiting (s : State) (c : Camera) {g : RingRec} (h : g.phase = .waiting) :
    LandingKept s (s.setRing c g) := .setRing s fun k => nomatch h.symm.trans k

theorem State.buildRing_landingKept (s : State) (c : Camera) (k : Nat) : LandingKept s (s.buildRing c k) := by
  have h := (s.claimSlots_effect k c).landingKept
  unfold State.buildRing
  generalize s.claimSlots c k = x at h ⊢
  obtain ⟨is, u⟩ := x
  cases is with
  | nil => exact h.trans (.setRing_waiting u c rfl)
  | cons i is => exact (h.trans (.setRing_waiting u c rfl)).trans (State.setSlot_landingKept _ _ _)

theorem State.slotsEnable_landingKept (s : State) (c : Camera) : LandingKept s (s.slotsEnable c) :=
  (s.buildRing_landingKept c _).trans (.setRing _ fun h => ⟨h, rfl, id⟩)

theorem State.slotsDisable_landingKept (s : State) (c : Camera) : LandingKept s (s.slotsDisable c) :=
  LandingKept.setRing_waiting (s := { s with pool := { s.pool with
    slots := s.pool.slots.map fun r => SlotRec.dissolved r c } }) c rfl

theorem State.unpinned_landingKept (s : State) (i : Nat) : LandingKept s (s.unpinned i) := by
  unfold State.unpinned
  split
  · split
    · exact s.endStarved_landingKept _
    · exact .refl s
  · exact .refl s
  · exact .refl s
  · exact s.setSlot_landingKept _ _
  · exact .refl s
  · exact .refl s

theorem State.unpin_landingKept (s : State) (i : Nat) : LandingKept s (s.unpin i) := by
  unfold State.unpin
  dsimp only
  split
  · exact .refl s
  · split
    · exact (s.setSlot_landingKept _ _).trans (State.unpinned_landingKept _ _)
    · exact s.setSlot_landingKept _ _

theorem State.liftMember_landingKept (s : State) (c : Camera) (h : HoldId) (i : Nat) :
    LandingKept s (s.liftMember c h i) :=
  (LandingKept.setRing s (g := { s.rings[c] with ready := s.rings[c].ready.erase i }) fun ph => ⟨ph, rfl, id⟩).trans
    (State.setSlot_landingKept _ _ _)

theorem State.joinEmpty_landingKept (s : State) (c : Camera) (i : Nat) : LandingKept s (s.joinEmpty c i) :=
  LandingKept.setRing s (g := { s.rings[c] with empty := s.rings[c].empty ++ [i] }) fun ph => ⟨ph, rfl, id⟩

theorem State.transfer_landingKept {s t : State} {c : Camera} {h : HoldId} {i : Nat} {x : Taken}
    (e : s.transfer c h i = some (x, t)) : LandingKept s t := by
  unfold State.transfer at e
  split at e
  · cases e
  · cases e
    exact ((s.liftMember_landingKept c h i).trans (State.setSlot_landingKept _ _ _)).trans
      (State.joinEmpty_landingKept _ c _)

theorem State.takeRequest_landingKept {s t : State} {c : Camera} {h : HoldId} {x : Taken}
    (e : s.takeRequest c h = some (x, t)) : LandingKept s t := by
  unfold State.takeRequest at e
  split at e
  · cases e
  · split at e
    · cases e
    · rename_i y u hu
      cases e
      split
      · exact (State.transfer_landingKept hu).trans (State.endStarved_landingKept _ _)
      · exact State.transfer_landingKept hu

/-- A restart leaves no camera in the FRAME phase. -/
theorem State.slotsRestart_landingKept (s : State) : LandingKept s s.slotsRestart := by
  unfold State.slotsRestart
  refine LandingKept.trans (t := { s with
    pool := { s.pool with slots := s.pool.slots.map SlotRec.restarted }
    rings := Vector.ofFn fun c : Fin 16 => s.rings[c].restarted }) (fun c h => ?_) (.foldl (fun u c => ?_) _ _)
  · replace h : (Vector.ofFn fun c : Fin 16 => s.rings[c].restarted)[c].phase = .inFrame := h
    rw [Fin.getElem_fin, Vector.getElem_ofFn] at h
    exact nomatch h
  · split
    · exact u.buildRing_landingKept _ _
    · exact .refl u

/-! ### The blocks that call it -/

theorem State.take_landingKept (s : State) (o : Origin) (c : Camera) (n : Nat) : LandingKept s (s.take o c n).1 := by
  have refuse : ∀ reason, LandingKept s (s.refuseTake o c n reason).1 := fun _ => (Effect.emit s _).landingKept
  unfold State.take
  split
  · exact refuse _
  · split
    · exact refuse _
    · split
      · exact refuse _
      · split
        · exact (State.takeRequest_landingKept ‹_›).trans (State.makeHold_effect _ _ _ _ _ _).landingKept
        · exact refuse _

theorem State.offerFrame_landingKept (s : State) (c : Camera) (i : Nat) : LandingKept s (s.offerFrame c i) := by
  unfold State.offerFrame
  split
  · exact .refl s
  · split
    · exact (s.completeHold_effect _ _ _ _).landingKept
    · dsimp only
      split
      · exact (State.transfer_landingKept ‹_›).trans (State.completeHold_effect _ _ _ _ _).landingKept
      · exact (State.transfer_landingKept ‹_›).trans (State.setHold_effect _ _ _).landingKept

theorem State.sampleLines_landingKept (s : State) : LandingKept s s.sampleLines := by
  unfold State.sampleLines State.sampleTriggers
  refine LandingKept.trans (Effect.landingKept (((s.withDoorUnit_effect _).trans (State.sampleStates_effect _)).trans
    (State.sampleNotices_effect _ _))) (.foldl (fun u d => ?_) _ _)
  split
  · exact u.take_landingKept _ _ _
  · exact .refl u

theorem State.sampleInstant_landingKept (s : State) : LandingKept s s.sampleInstant := by
  unfold State.sampleInstant
  split
  · exact (s.withDoorUnit_effect _).landingKept.trans (State.sampleLines_landingKept _)
  · exact .refl s

theorem State.debounceChanged_landingKept (s : State) : LandingKept s s.debounceChanged := by
  unfold State.debounceChanged
  split
  · exact (s.withDoorUnit_effect _).landingKept.trans (State.sampleLines_landingKept _)
  · exact .refl s

theorem State.setupDoors_landingKept (s : State) (old new : SetupRec) : LandingKept s (s.setupDoors old new) := by
  have redescribed : LandingKept s
      (if levelActive s.doorUnit.reverse.accepted then s.redescribe .reverse old.reverse new.reverse else s) := by
    split
    · exact (s.redescribe_effect _ _ _).landingKept
    · exact .refl s
  unfold State.setupDoors
  dsimp only
  split
  · exact redescribed.trans (State.debounceChanged_landingKept _)
  · exact redescribed

theorem State.applySetup_landingKept (s : State) (r : SetupRec) : LandingKept s (s.applySetup r) :=
  State.setupDoors_landingKept { s with
    setup := r, pool := s.pool.regeometry r.slotBase r.slotUnits r.slotCount } s.setup r

theorem State.releaseContext_landingKept (s : State) (i : Screen) : LandingKept s (s.releaseContext i) := by
  unfold State.releaseContext
  split
  · exact .refl s
  · exact (LandingKept.foldl (fun u j => u.unpin_landingKept j) _ s).trans (State.setContext_effect _ _ _).landingKept

theorem State.latch_landingKept (s : State) (i : Screen) : LandingKept s (s.latch i) :=
  ((s.releaseContext_landingKept i).trans (State.pinShown_effect _ _).landingKept).trans
    (State.setContext_effect _ _ _).landingKept

theorem State.applyScreen_landingKept (s : State) (i : Screen) (r : ScreenRec) : LandingKept s (s.applyScreen i r) := by
  unfold State.applyScreen
  dsimp only
  split
  · exact (s.setScreen_effect i r).landingKept.trans (State.releaseContext_landingKept _ _)
  · exact (s.setScreen_effect i r).landingKept

theorem State.idleHoldTake_landingKept (s : State) (c n : Byte) : LandingKept s (s.idleHoldTake c n) := by
  unfold State.idleHoldTake
  split
  · exact (s.finishPlain_effect _ _ _).landingKept
  · split
    · exact (s.finishPlain_effect _ _ _).landingKept
    · dsimp only
      split
      · exact (s.take_landingKept _ _ _).trans (State.finish_effect _ _ _ _ _ _).landingKept
      · exact (s.take_landingKept _ _ _).trans (State.finishPlain_effect _ _ _ _).landingKept

theorem State.frameStart_landingKept (s : State) (i : Screen) : LandingKept s ((s.latch i).frameStartNotice i) :=
  (s.latch_landingKept i).trans (State.frameStartNotice_effect _ i).landingKept

/-- What a disable and an enable do besides a camera's record, cadence and lens. -/
theorem State.disableCamera_landingKept (s : State) (c : Camera) (old new : CameraRec) :
    LandingKept s (s.disableCamera c old new) := by
  unfold State.disableCamera
  exact (((s.setLens_effect c _).trans (State.setCadence_effect _ c _)).landingKept.trans
    (State.slotsDisable_landingKept _ c)).trans (((State.cadenceTo_effect _ c _).trans
      (State.lensTo_effect _ c _)).trans
    (State.completeShort_effect _ _ _)).landingKept

theorem State.enableCamera_landingKept (s : State) (c : Camera) : LandingKept s (s.enableCamera c) := by
  unfold State.enableCamera
  exact (s.slotsEnable_landingKept c).trans ((State.cadenceTo_effect _ c _).trans
    (State.lensTo_effect _ c _)).landingKept

theorem State.applyCamera_landingKept (s : State) (c : Camera) (r : CameraRec) : LandingKept s (s.applyCamera c r) := by
  unfold State.applyCamera
  dsimp only
  split
  · exact ((s.setCamera_effect c r).landingKept.trans (State.disableCamera_landingKept _ c _ r)).trans
      (State.configureLens_effect _ c _ r).landingKept
  · split
    · exact ((s.setCamera_effect c r).trans (State.configureLens_effect _ c _ r)).landingKept.trans
        (State.enableCamera_landingKept _ c)
    · split
      · exact (((s.setCamera_effect c r).trans (State.configureLens_effect _ c _ r)).trans
          (State.staleTimeout_effect _ c)).landingKept
      · exact ((s.setCamera_effect c r).trans (State.configureLens_effect _ c _ r)).landingKept

/-- The warm restart, and the rest of what a command in IDLE does. -/
theorem State.warmRestart_landingKept (s : State) (tag : Byte) : LandingKept s (s.warmRestart tag) := by
  unfold State.warmRestart State.restartBlocks
  exact ((((s.takeTag_effect tag).trans (State.discardStaging_effect _)).trans ((State.cutApplying_effect _ _).trans
    (State.setEngine_effect _ _))).landingKept.trans (State.slotsRestart_landingKept _)).trans
    (Effect.landingKept (((((((State.cadenceRestart_effect _).trans (State.lensRestart_effect _)).trans
      (State.withContexts_effect _ _)).trans (State.doorsRestart_effect _)).trans (State.spotsRestart_effect _)).trans
      (State.completeShort_effect _ _ _)).trans ((State.withEpisodes_effect _ _).trans
      (State.finishPlain_effect _ _ _ _))))

theorem State.idleCommand_landingKept (s : State) (c : Command) : LandingKept s (s.idleCommand c) := by
  cases c with
  | load t f n => exact (s.idleLoad_effect t f n).landingKept
  | commit => exact (s.finishPlain_effect _ _ _).landingKept
  | abortClear => exact (s.finishPlain_effect _ _ _).landingKept
  | learn m => exact (s.idleLearn_effect m).landingKept
  | learnSuspend m => exact (s.idleLearnSuspend_effect m).landingKept
  | learnResume m => exact (s.idleLearnResume_effect m).landingKept
  | spotSet i l v => exact (s.idleSpotSet_effect i l v).landingKept
  | spotClear i => exact (s.idleSpotClear_effect i).landingKept
  | holdTake c n => exact s.idleHoldTake_landingKept c n
  | holdRelease h => exact (s.idleHoldRelease_effect h).landingKept
  | holdLock => exact s.idleHoldLock_effect.landingKept
  | snapshot => exact s.idleSnapshot_effect.landingKept
  | restart => exact .refl s
  | undefinedCode x => exact (s.finishPlain_effect _ _ _).landingKept

end Sys2Proof.Machine
end

section
/-! Predicates of lens records that every operation but a landing beat keeps. -/

namespace Sys2Proof.Machine

set_option Elab.async false

/-- A predicate that the operations on a lens record keep, but for the beats and the acceptance of a frame. -/
structure LensClosed (P : LensRec → Prop) : Prop where
  dropped : ∀ l, P l → P { l with acc := none }
  started : ∀ r l, P l → P (learnStart r l).1
  paused : ∀ l, P l → P (learnPause l).1
  continued : ∀ l, P l → P (learnContinue l).1
  enabled : ∀ c l, P l → P (lensEnabled c l).1
  disabled : ∀ c old new l, P l → P (lensDisabled c old new l).1
  configured : ∀ c old new l, P l → P (lensConfigured c old new l).1
  restarted : ∀ c l, P l → P (lensRestarted c l).1

/-- Every camera's lens record has its predicate. -/
def State.allLens (P : Camera → LensRec → Prop) (s : State) : Prop := ∀ c : Camera, P c s.lens[c]

section
variable {P : Camera → LensRec → Prop} {s : State}

theorem State.allLens_congr {t : State} (h : t.lens = s.lens) (hs : s.allLens P) : t.allLens P := fun c => by
  rw [h]
  exact hs c

theorem Effect.allLens {ps : List Piece} {t : State} (e : Effect ps s t) (hs : s.allLens P)
    (h : Piece.lens ∉ Piece.mem :: .ring :: ps := by decide) : t.allLens P :=
  State.allLens_congr (e.same .lens h) hs

theorem Touches.allLens {ps : List Piece} {t : State} (e : Touches ps s t) (hs : s.allLens P)
    (h : Piece.lens ∉ ps := by decide) : t.allLens P := State.allLens_congr (e.same .lens h) hs

theorem State.allLens_setLens {c : Camera} {l : LensRec} (hs : s.allLens P) (hl : P c l) : (s.setLens c l).allLens P :=
  fun d => by
    rw [State.setLens_lens]
    rcases upd_getElem_cases s.lens c d l with ⟨e, rfl⟩ | ⟨e, -⟩
    · rw [e]
      exact hl
    · rw [e]
      exact hs d

theorem State.allLens_lensTo {c : Camera} {x : LensRec × List Report} (hs : s.allLens P) (hx : P c x.1) :
    (s.lensTo c x).allLens P := (Effect.emitAll _ x.2).allLens (State.allLens_setLens hs hx)

theorem State.allLens_learnEach {f : CameraRec → LensRec → LensRec × Option Reason} (mask : BitVec 16)
    (hf : ∀ c l, P c l → P c (f s.cameras[c] l).1) (hs : s.allLens P) : (s.learnEach f mask).1.allLens P := fun c => by
  rw [State.learnEach_eq]
  show P c (learnedLenses f s (camerasOf mask) s.lens)[c]
  rw [learnedLenses_getElem]
  split
  · exact hf c _ (hs c)
  · exact hs c

variable (closed : ∀ c, LensClosed (P c)) (hs : s.allLens P)
include closed hs

theorem State.allLens_idleCommand (c : Command) : (s.idleCommand c).allLens P := by
  cases c with
  | learn m =>
    exact (State.finishLearn_effect _ _ _).allLens (State.allLens_learnEach m (fun c => (closed c).started _) hs)
  | learnSuspend m =>
    exact (State.finishLearn_effect _ _ _).allLens (State.allLens_learnEach m (fun c => (closed c).paused) hs)
  | learnResume m =>
    exact (State.finishLearn_effect _ _ _).allLens (State.allLens_learnEach m (fun c => (closed c).continued) hs)
  | load t f n => exact (s.idleLoad_effect t f n).allLens hs
  | commit => exact (s.finishPlain_effect _ _ _).allLens hs
  | abortClear => exact (s.finishPlain_effect _ _ _).allLens hs
  | spotSet i l v => exact (s.idleSpotSet_effect i l v).allLens hs
  | spotClear i => exact (s.idleSpotClear_effect i).allLens hs
  | holdTake c n => exact (s.idleHoldTake_effect c n).allLens hs
  | holdRelease h => exact (s.idleHoldRelease_effect h).allLens hs
  | holdLock => exact s.idleHoldLock_effect.allLens hs
  | snapshot => exact s.idleSnapshot_effect.allLens hs
  | restart => exact hs
  | undefinedCode x => exact (s.finishPlain_effect _ _ _).allLens hs

theorem State.allLens_configureLens (c : Camera) (old new : CameraRec) : (s.configureLens c old new).allLens P :=
  State.allLens_lensTo hs ((closed c).configured c old new _ (hs c))

theorem State.allLens_disableCamera (c : Camera) (old new : CameraRec) : (s.disableCamera c old new).allLens P := by
  have dropped : (s.lensDrop c).allLens P := State.allLens_setLens hs ((closed c).dropped _ (hs c))
  have before := (((State.setCadence_effect _ c { (s.lensDrop c).cadence[c] with sigAcc := none }).trans
    (State.slotsDisable_effect _ c)).trans (State.cadenceTo_effect _ c (cadenceDisabled c
      (((s.lensDrop c).signatureDrop c).slotsDisable c).cadence[c]))).allLens dropped
  unfold State.disableCamera
  exact (State.completeShort_effect _ _ _).allLens
    (State.allLens_lensTo before ((closed c).disabled c old new _ (before c)))

theorem State.allLens_enableCamera (c : Camera) : (s.enableCamera c).allLens P := by
  have before := ((s.slotsEnable_effect c).trans (State.cadenceTo_effect _ c (cadenceEnabled c
    (s.slotsEnable c).time (s.slotsEnable c).cadence[c]))).allLens hs
  unfold State.enableCamera
  exact State.allLens_lensTo before ((closed c).enabled c _ (before c))

theorem State.allLens_applyCamera (c : Camera) (r : CameraRec) : (s.applyCamera c r).allLens P := by
  have stored := (s.setCamera_effect c r).allLens hs
  unfold State.applyCamera
  dsimp only
  split
  · exact State.allLens_configureLens closed (State.allLens_disableCamera closed stored c _ r) c _ r
  · have configured := State.allLens_configureLens closed stored c s.cameras[c] r
    split
    · exact State.allLens_enableCamera closed configured c
    · split
      · exact (State.staleTimeout_effect _ c).allLens configured
      · exact configured

theorem State.allLens_applyLoad : s.applyLoad.allLens P := by
  by_cases ht : s.engine.load.table = .cameras
  · rw [State.applyLoad_of_cameras ht]
    exact List.foldlRecOn (motive := fun u : State => u.allLens P) _ _ hs fun _ hu x _ =>
      State.allLens_applyCamera closed hu _ _
  · exact s.applyLoad_touches.allLens hs (by revert ht; cases s.engine.load.table <;> decide)

theorem State.allLens_lensRestart : s.lensRestart.allLens P :=
  List.foldlRecOn (motive := fun u : State => u.allLens P) _ _ hs fun _ hu c _ =>
    State.allLens_lensTo hu ((closed c).restarted c _ (hu c))

theorem State.allLens_warmRestart (tag : Byte) : (s.warmRestart tag).allLens P := by
  have taken := (((s.takeTag_effect tag).trans (State.discardStaging_effect _)).trans
    (State.cutApplying_effect _ s.engine.lastTag)).allLens hs
  have idle := (State.setEngine_effect _ { ((s.takeTag tag).discardStaging.cutApplying s.engine.lastTag).engine with
    state := .idle, pending := 0 }).allLens taken
  have restarted := State.allLens_lensRestart closed
    (((State.slotsRestart_effect _).trans (State.cadenceRestart_effect _)).allLens idle)
  unfold State.warmRestart State.restartBlocks
  exact Effect.allLens ((((((State.withContexts_effect _ _).trans
    (State.doorsRestart_effect _)).trans (State.spotsRestart_effect _)).trans
    (State.completeShort_effect _ _ _)).trans ((State.withEpisodes_effect _ _).trans
    (State.finishPlain_effect _ _ _ _)))) restarted

theorem Offered.allLens {t : State} {c : Command} {tag : Byte} (o : Offered s c tag t) : t.allLens P := by
  have taken := (s.takeTag_effect tag).allLens hs
  cases o with
  | ignored => exact hs
  | restart => exact State.allLens_warmRestart closed hs tag
  | idle => exact State.allLens_idleCommand closed taken c
  | cleared => exact ((State.enter_effect _ _).trans (State.finishPlain_effect _ _ _ _)).allLens taken
  | aborted => exact (State.abortLoad_effect _ _ _).allLens taken
  | invalid =>
    exact (((State.discardStaging_effect _).trans (State.enter_effect _ _)).trans
      (State.finish_effect _ _ _ _ _ _)).allLens taken
  | applied _ _ _ _ outcome => exact outcome.effect.allLens (State.allLens_applyLoad closed taken)

theorem State.allLens_countTorn (c : Camera) : (s.countTorn c).allLens P := by
  have dropped := (closed c).dropped _ (hs c)
  unfold State.countTorn
  exact (State.setCadence_effect _ c _).allLens
    (State.allLens_setLens ((s.setRing_effect c _).allLens hs) dropped)

/-- Every operation but a landing beat. -/
theorem Operation.allLens {t : State} (o : Operation s t)
    (landed : ∀ c n w, s.cameras[c].enable = true → n < s.cameras[c].frameWords → t = s.landingPhase c n w →
      t.allLens P) :
    t.allLens P := by
  cases o with
  | nothing => exact hs
  | drop k tag a => exact (s.guardDrop_effect k tag a).allLens hs
  | store a w => exact (s.setMem_touches _).allLens hs
  | page n w => exact (s.pageWrite_touches n w).allLens hs
  | consume w => exact (s.consumerBeat_touches w).allLens hs
  | stage i w => exact (State.stageBeat_effect _ i w).allLens ((s.pageWrite_touches _ w).allLens hs)
  | command d c tag => exact (State.offer_cases _ c tag).allLens closed ((s.pageWrite_touches 8 _).allLens hs)
  | land c n w on below => exact landed c n w on below rfl
  | frameStart i => exact (s.frameStart_effect i).allLens hs
  | status n => exact (s.afterStatusRead_effect n).allLens hs
  | stale c => exact (s.staleTimeout_effect c).allLens hs
  | sample l => exact (State.sampleInstant_effect { s with lines := l }).allLens hs
  | linger i => exact (s.lingerExpiry_effect i).allLens hs
  | close k => exact (s.guardClose_effect k).allLens hs
  | overtime => exact s.applyingOvertime_effect.allLens hs

end

/-! ### The ranges of R43 -/

theorem lensClosed_inRange : LensClosed LensRec.inRange where
  dropped _ h := h
  started r _ := learnStart_inRange r
  paused _ := learnPause_inRange
  continued _ := learnContinue_inRange
  enabled _ _ := lensEnabled_inRange
  disabled _ old new _ := lensDisabled_inRange old new
  configured _ old new _ := lensConfigured_inRange old new
  restarted _ _ := lensRestarted_inRange

theorem lensClosed_bounded : LensClosed LensRec.Bounded where
  dropped _ h := h.dropped
  started r _ h := learnStart_bounded h r
  paused _ := learnPause_bounded
  continued _ := learnContinue_bounded
  enabled _ _ := lensEnabled_bounded
  disabled _ _ _ _ h := discardRun_bounded h _
  configured _ old new _ h := lensConfigured_bounded h old new
  restarted _ _ := lensRestarted_bounded

/-- A record that accumulates what `a` says, or nothing. -/
def LensRec.accFrom (a : Option FrameAcc) (l : LensRec) : Prop := l.acc = none ∨ l.acc = a

theorem lensClosed_accFrom (a : Option FrameAcc) : LensClosed (LensRec.accFrom a) := by
  have run (c : Camera) (cause : DiscardCause) (l : LensRec) : (discardRun c cause l).1.acc = l.acc := by
    unfold discardRun
    split <;> rfl
  have verdict (c : Camera) (cause : LensCause) (l : LensRec) : (verdictRestart c cause l).1.acc = l.acc := by
    unfold verdictRestart
    split <;> rfl
  have same {l m : LensRec} (h : m.acc = l.acc) (hl : l.accFrom a) : m.accFrom a := by
    unfold LensRec.accFrom
    rwa [h]
  refine ⟨fun l _ => .inl rfl, fun r l => same ?_, fun l => same ?_, fun l => same ?_, fun c l => same (verdict c _ _),
    fun c old new l => same (run c _ _), fun c old new l => same ?_, fun c l _ => .inl ?_⟩
  · unfold learnStart
    split
    · rfl
    · split <;> rfl
  · unfold learnPause
    split <;> rfl
  · unfold learnContinue
    split <;> rfl
  · have switch (m : LensRec) : (lensSwitch c old new m).1.acc = m.acc := by
      unfold lensSwitch
      split
      · exact run c _ m
      · split <;> rfl
    unfold lensConfigured
    refine (switch _).trans ?_
    split
    · exact run c _ _
    · rfl
  · unfold lensRestarted
    exact (verdict c _ _).trans (run c _ _)

end Sys2Proof.Machine
end

section
/-! The lens records stay in range (O57): landing beats, COMMIT of a CAMERAS load, and the statement. -/

namespace Sys2Proof.Machine

set_option Elab.async false

/-! ### Landing beats and the ranges of R43 -/

section
variable {s t : State} {c : Camera} {n : Nat}

theorem State.allLens_accept {P : Camera → LensRec → Prop} (hs : s.allLens P) (c : Camera) (i : Nat)
    (accepted : P c (lensAcceptedOf c s.cameras[c] s.setup s.cadence[c].state s.cadence[c].frozen s.lens[c]).1) :
    (s.accept c i).allLens P := by
  have arrived := (s.memberReady_effect c i).trans (State.arrival_effect (s.memberReady c i) c)
  have lens : ((s.memberReady c i).arrival c).lens = s.lens := arrived.same .lens
  have cameras : ((s.memberReady c i).arrival c).cameras = s.cameras := arrived.same .cameras
  have setup : ((s.memberReady c i).arrival c).setup = s.setup := arrived.same .setup
  have told : (((s.memberReady c i).arrival c).lensAccepted c s.cadence[c].state s.cadence[c].frozen).allLens P :=
    State.allLens_lensTo (State.allLens_congr lens hs) (by rw [lens, cameras, setup]; exact accepted)
  unfold State.accept
  exact Effect.allLens (((State.offerFrame_effect _ c i).trans (State.chooseTarget_effect _ c)).trans
    (State.setRing_effect _ c _)) told

theorem FrameEnded.lensInRange (e : FrameEnded s c n t) (hs : s.allLens fun _ => LensRec.inRange) :
    t.allLens fun _ => LensRec.inRange := by
  cases e with
  | goesOn => exact hs
  | accepted _ i => exact State.allLens_accept hs c i (lensAcceptedOf_inRange _ _ _ _ (hs c))
  | torn => exact (State.setRing_effect _ c _).allLens (State.allLens_countTorn (fun _ => lensClosed_inRange) hs c)

/-- The ranges of R43 do not speak of the accumulators. -/
theorem LensRec.inRange_gathering {l : LensRec} (h : l.inRange) (a : Option FrameAcc) (tn : Nat) :
    LensRec.inRange { l with acc := a, noiseInUse := tn } := h

theorem State.lensInRange_lensAdd (hs : s.allLens fun _ => LensRec.inRange) (c : Camera) (n : Nat) (w : Word) :
    (s.lensAdd c n w).allLens fun _ => LensRec.inRange :=
  State.allLens_setLens hs (LensRec.inRange_gathering (hs c) _ s.lens[c].noiseInUse)

theorem State.lensInRange_lensBegin (hs : s.allLens fun _ => LensRec.inRange) (c : Camera) :
    (s.lensBegin c).allLens fun _ => LensRec.inRange :=
  State.allLens_setLens hs (LensRec.inRange_gathering (hs c) _ _)

theorem State.lensInRange_landWord (hs : s.allLens fun _ => LensRec.inRange) (c : Camera) (i n : Nat) (w : WriteData) :
    (s.landWord c i n w).allLens fun _ => LensRec.inRange := by
  unfold State.landWord
  exact (State.setCadence_effect _ c _).allLens
    (State.lensInRange_lensAdd ((s.setMem_touches _).allLens hs) c n w.data)

theorem State.lensInRange_beginFrame (hs : s.allLens fun _ => LensRec.inRange) (c : Camera) (i : Nat) (w : WriteData) :
    (s.beginFrame c i w).allLens fun _ => LensRec.inRange := by
  have ring := (s.setRing_effect c { s.rings[c] with phase := .inFrame, writes := 1, tornMark := false }).allLens hs
  unfold State.beginFrame
  exact State.lensInRange_landWord ((State.setCadence_effect _ c _).allLens
    (State.lensInRange_lensBegin ring c)) c i 0 w

theorem Landed.lensInRange {w : WriteData} (l : Landed s c n w t) (hs : s.allLens fun _ => LensRec.inRange) :
    t.allLens fun _ => LensRec.inRange := by
  cases l with
  | dropped => exact hs
  | starved => exact (s.setRing_effect c _).allLens hs
  | begun _ _ i _ _ outcome => exact outcome.lensInRange (State.lensInRange_beginFrame hs c i w)
  | begunAnew _ _ i _ _ outcome =>
    exact outcome.lensInRange (State.lensInRange_beginFrame
      (State.allLens_countTorn (fun _ => lensClosed_inRange) hs c) c i w)
  | stored _ i _ _ _ outcome =>
    exact outcome.lensInRange (State.lensInRange_landWord ((s.setRing_effect c _).allLens hs) c i n w)
  | marked _ _ outcome => exact outcome.lensInRange ((s.setRing_effect c _).allLens hs)

theorem Operation.lensInRange (o : Operation s t) (hs : s.allLens fun _ => LensRec.inRange) :
    t.allLens fun _ => LensRec.inRange :=
  o.allLens (fun _ => lensClosed_inRange) hs fun c n w _ _ same => same ▸ (s.landingPhase_cases c n w).lensInRange hs

end

/-! ### The total of a frame in progress -/

/-- The total of a frame in progress is what its words can give (R45). -/
def totalIn (r : CameraRec) (g : RingRec) (l : LensRec) : Prop :=
  ∀ a, l.acc = some a → r.enable = true → g.phase = .inFrame → g.writes ≤ r.frameWords → a.total ≤ 1020 * g.writes

/-- Every camera's total is what its words can give. -/
def State.totalsIn (s : State) : Prop := ∀ c : Camera, totalIn s.cameras[c] s.rings[c] s.lens[c]

theorem State.lensFigures_iff {s : State} : (∀ c : Camera, s.lensFigures c) ↔
    (∀ c : Camera, s.cameras[c].judge ≤ 16 ∧ s.cameras[c].noise ≤ 31)
      ∧ (s.allLens fun _ => LensRec.Bounded) ∧ s.totalsIn := by
  refine ⟨fun h => ⟨fun c => ?_, fun c => ?_, fun c => ?_⟩, fun ⟨hc, hl, ht⟩ c => ?_⟩
  · obtain ⟨judge, noise, -⟩ := h c
    exact ⟨judge, noise⟩
  · obtain ⟨-, -, h1, h2, h3, h4, h5, h6, h7, h8⟩ := h c
    exact ⟨h1, h2, h3, h4, h5, h6, h7, fun a ha => (h8 a ha).1⟩
  · obtain ⟨-, -, -, -, -, -, -, -, -, h8⟩ := h c
    exact fun a ha => (h8 a ha).2
  · exact ⟨(hc c).1, (hc c).2, (hl c).eligible, (hl c).noise, (hl c).mean, (hl c).dark, (hl c).baseline, (hl c).learned,
      (hl c).sums, fun a ha => ⟨(hl c).acc a ha, ht c a ha⟩⟩

section
variable {r : CameraRec} {g g' : RingRec} {l l' : LensRec}

theorem totalIn.kept (h : totalIn r g l) (landing : g.LandingKept g') (acc : l'.accFrom l.acc) : totalIn r g' l' := by
  intro a ha on inFrame below
  obtain ⟨within, writes, -⟩ := landing inFrame
  rcases acc with none | same
  · exact nomatch none.symm.trans ha
  · rw [writes] at below ⊢
    exact h a (same ▸ ha) on within below

theorem totalIn_outside (h : g.phase ≠ .inFrame) : totalIn r g l := fun _ _ _ inFrame => absurd inFrame h

/-- One more word of a frame in progress is counted. -/
theorem totalIn.counted (h : totalIn r g l) (inFrame : g.phase = .inFrame) (writes : g'.writes = countWrite r g.writes)
    (total : ∀ x', l'.acc = some x' → ∃ x, l.acc = some x ∧ x'.total ≤ x.total + 1020) : totalIn r g' l' := by
  intro x' hx on _ below
  obtain ⟨x, hx, more⟩ := total x' hx
  rw [writes] at below ⊢
  unfold countWrite at below ⊢
  have := h x hx on inFrame (by omega)
  have : min (g.writes + 1) (r.frameWords + 1) = g.writes + 1 := by omega
  omega

end

/-! ### Landing beats and the figures -/

section
variable {s t : State} {c : Camera} {n : Nat}

theorem State.takeTarget_others {s t : State} {c : Camera} (h : s.takeTarget c = some t) : OthersKept c s t := by
  unfold State.takeTarget at h
  split at h
  · cases h
    exact (s.setRing_others c _).trans
      ((State.setSlot_touches _ _ _).others c (by decide) (by decide) (by decide))
  · cases h

theorem State.chooseTarget_others (s : State) (c : Camera) : OthersKept c s (s.chooseTarget c) := by
  unfold State.chooseTarget
  split
  · exact State.takeTarget_others ‹_›
  · exact (s.emit_touches _).others c (by decide) (by decide) (by decide)

theorem State.accept_others (s : State) (c : Camera) (i : Nat) : OthersKept c s (s.accept c i) :=
  (((((s.memberReady_others c i).trans (State.cadenceTo_others _ c _)).trans (State.lensTo_others _ c _)).trans
    (State.offerFrame_kept _ c i).2).trans (State.chooseTarget_others _ c)).trans (State.setRing_others _ c _)

/-- The totals of the other cameras, and a camera that is between frames. -/
theorem OthersKept.totalsIn (h : OthersKept c s t) (cameras : t.cameras = s.cameras) (hs : s.totalsIn)
    (own : totalIn t.cameras[c] t.rings[c] t.lens[c]) : t.totalsIn := fun d => by
  by_cases same : d = c
  · rw [same]
    exact own
  · obtain ⟨ring, -, lens⟩ := h d same
    rw [cameras, ring, lens]
    exact hs d

theorem State.landingIdle_outside (s : State) (c : Camera) : (s.landingIdle c).rings[c].phase ≠ .inFrame := by
  rw [State.landingIdle_ring]
  exact nofun

/-- A camera's figures while one of its frames is in progress, with the frame's own total. -/
structure Gathering (s : State) (c : Camera) : Prop where
  on : s.cameras[c].enable = true
  phase : s.rings[c].phase = .inFrame
  cameras : ∀ c : Camera, s.cameras[c].judge ≤ 16 ∧ s.cameras[c].noise ≤ 31
  ranges : s.allLens fun _ => LensRec.inRange
  bounded : s.allLens fun _ => LensRec.Bounded
  totals : s.totalsIn

theorem FrameEnded.figures (e : FrameEnded s c n t) (h : Gathering s c) :
    (t.allLens fun _ => LensRec.Bounded) ∧ t.totalsIn := by
  obtain ⟨on, phase, cameras, ranges, bounded, totals⟩ := h
  cases e with
  | goesOn => exact ⟨bounded, totals⟩
  | accepted _ i _ whole =>
    refine ⟨State.allLens_accept bounded c i ?_,
      (s.accept_others c i).totalsIn ((s.accept_effect c i).same .cameras) totals
      (totalIn_outside (State.landingIdle_outside _ c))⟩
    refine lensAcceptedOf_bounded (bounded c) s.setup _ _ (cameras c).1 (LensRec.inRange_iff.1 (ranges c)).2.2.1
      fun a ha => ?_
    rw [← whole]
    exact totals c a ha on phase (Nat.le_of_eq whole)
  | torn =>
    exact ⟨(State.setRing_effect _ c _).allLens (State.allLens_countTorn (fun _ => lensClosed_bounded) bounded c),
      ((s.countTorn_others c).trans (State.setRing_others _ c _)).totalsIn
        ((s.countTorn_touches c).same .cameras) totals (totalIn_outside (State.landingIdle_outside _ c))⟩

theorem State.bounded_landWord (hs : s.allLens fun _ => LensRec.Bounded) (c : Camera) (i n : Nat) (w : WriteData) :
    (s.landWord c i n w).allLens fun _ => LensRec.Bounded := by
  unfold State.landWord
  exact (State.setCadence_effect _ c _).allLens
    (State.allLens_setLens ((s.setMem_touches _).allLens hs) ((hs c).added s.cameras[c] n w.data))

theorem State.bounded_beginFrame (hs : s.allLens fun _ => LensRec.Bounded) (c : Camera)
    (noise : s.cameras[c].noise ≤ 31) (i : Nat) (w : WriteData) :
    (s.beginFrame c i w).allLens fun _ => LensRec.Bounded := by
  have ring := (s.setRing_effect c { s.rings[c] with phase := .inFrame, writes := 1, tornMark := false }).allLens hs
  unfold State.beginFrame
  exact State.bounded_landWord ((State.setCadence_effect _ c _).allLens
    (State.allLens_setLens ring ((hs c).begun noise))) c i 0 w

/-- The figures of the part, with the ranges of R43. -/
structure State.FiguresIn (s : State) : Prop where
  cameras : ∀ c : Camera, s.cameras[c].judge ≤ 16 ∧ s.cameras[c].noise ≤ 31
  ranges : s.allLens fun _ => LensRec.inRange
  bounded : s.allLens fun _ => LensRec.Bounded
  totals : s.totalsIn

theorem State.FiguresIn.beginFrame (h : s.FiguresIn) (on : s.cameras[c].enable = true) (i : Nat) (w : WriteData) :
    Gathering (s.beginFrame c i w) c := by
  have cameras : (s.beginFrame c i w).cameras = s.cameras := (s.beginFrame_touches c i w).same .cameras
  obtain ⟨ring, -, lens, -⟩ := s.beginFrame_records c i w
  refine ⟨by rwa [cameras], by rw [ring], by rw [cameras]; exact h.cameras, State.lensInRange_beginFrame h.ranges c i w,
    State.bounded_beginFrame h.bounded c (h.cameras c).2 i w, (s.beginFrame_others c i w).totalsIn cameras h.totals ?_⟩
  rw [ring, lens]
  intro a ha _ _ _
  cases ha
  exact FrameAcc.add_total _ _ _ _ _

theorem State.FiguresIn.countTorn (h : s.FiguresIn) (c : Camera) : (s.countTorn c).FiguresIn := by
  have cameras : (s.countTorn c).cameras = s.cameras := (s.countTorn_touches c).same .cameras
  refine ⟨by rw [cameras]; exact h.cameras, State.allLens_countTorn (fun _ => lensClosed_inRange) h.ranges c,
    State.allLens_countTorn (fun _ => lensClosed_bounded) h.bounded c,
    (s.countTorn_others c).totalsIn cameras h.totals ?_⟩
  obtain ⟨-, -, lens, -⟩ := s.countTorn_records c
  rw [lens]
  exact fun _ ha => nomatch ha

theorem State.FiguresIn.wordStored (h : s.FiguresIn) (on : s.cameras[c].enable = true)
    (within : s.rings[c].phase = .inFrame) (i n : Nat) (w : WriteData) : Gathering (s.wordStored c i n w) c := by
  have cameras : (s.wordStored c i n w).cameras = s.cameras := (s.wordStored_touches c i n w).same .cameras
  obtain ⟨ring, -, lens, -⟩ := s.wordStored_records c i n w
  have counting := s.setRing_effect c { s.rings[c] with writes := countWrite s.cameras[c] s.rings[c].writes }
  refine ⟨by rwa [cameras], by rw [ring]; exact within, by rw [cameras]; exact h.cameras,
    State.lensInRange_landWord (counting.allLens h.ranges) c i n w,
    State.bounded_landWord (counting.allLens h.bounded) c i n w,
    (s.wordStored_others c i n w).totalsIn cameras h.totals ?_⟩
  rw [cameras, ring, lens]
  refine (h.totals c).counted within rfl fun x hx => ?_
  obtain ⟨a, ha, rfl⟩ := Option.map_eq_some_iff.1 (hx : s.lens[c].acc.map _ = some x)
  exact ⟨a, ha, FrameAcc.add_total _ _ _ _ _⟩

theorem Landed.figures {w : WriteData} (l : Landed s c n w t) (h : s.FiguresIn) (on : s.cameras[c].enable = true) :
    (t.allLens fun _ => LensRec.Bounded) ∧ t.totalsIn := by
  cases l with
  | dropped => exact ⟨h.bounded, h.totals⟩
  | starved =>
    refine ⟨(s.setRing_effect c _).allLens h.bounded, (s.setRing_others c _).totalsIn rfl h.totals (totalIn_outside ?_)⟩
    rw [State.setRing_rings, upd_getElem_self]
    exact nofun
  | begun _ _ i _ _ outcome => exact outcome.figures (h.beginFrame on i w)
  | begunAnew _ _ i _ _ outcome =>
    refine outcome.figures ((h.countTorn c).beginFrame ?_ i w)
    rwa [show (s.countTorn c).cameras = s.cameras from (s.countTorn_touches c).same .cameras]
  | stored _ i _ within _ outcome =>
    exact FrameEnded.figures (s := s.wordStored c i n w) outcome (h.wordStored on within i n w)
  | marked _ within outcome =>
    refine outcome.figures ⟨on, ?_, h.cameras, (s.setRing_effect c _).allLens h.ranges,
      (s.setRing_effect c _).allLens h.bounded, (s.setRing_others c _).totalsIn rfl h.totals ?_⟩
    · rw [State.setRing_rings, upd_getElem_self]
      exact within
    · rw [State.setRing_rings, upd_getElem_self]
      exact (h.totals c).counted within rfl fun x hx => ⟨x, hx, Nat.le_add_right _ _⟩

/-! ### Every other operation -/

/-- The totals go by what stands of the accumulators, the landing phases and the camera records. -/
theorem State.totalsIn_of_kept (hs : s.totalsIn) (landing : LandingKept s t)
    (acc : t.allLens fun c => LensRec.accFrom s.lens[c].acc) (cameras : t.cameras
      = s.cameras) : t.totalsIn := fun c => by
  rw [cameras]
  exact (hs c).kept (landing c) (acc c)

theorem State.accFrom_self (s : State) : s.allLens fun c => LensRec.accFrom s.lens[c].acc := fun _ => .inr rfl

theorem State.slotsEnable_phase (s : State) (c : Camera) : (s.slotsEnable c).rings[c].phase = .waiting := by
  have built : (s.buildRing c s.cameras[c].k).rings[c].phase = .waiting := by
    unfold State.buildRing
    generalize s.claimSlots c s.cameras[c].k = x
    obtain ⟨is, u⟩ := x
    cases is with
    | nil =>
      dsimp only
      rw [State.setRing_rings, upd_getElem_self]
    | cons i is =>
      dsimp only
      rw [State.setSlot_rings, State.setRing_rings, upd_getElem_self]
  unfold State.slotsEnable
  dsimp only
  rw [State.setRing_rings, upd_getElem_self]
  exact built

theorem State.enableCamera_phase (s : State) (c : Camera) : (s.enableCamera c).rings[c].phase = .waiting := by
  have rings : (s.enableCamera c).rings = (s.slotsEnable c).rings :=
    ((State.cadenceTo_effect _ c _).trans (State.lensTo_effect _ c _)).same .rings
  rw [rings]
  exact s.slotsEnable_phase c

theorem State.applyCamera_disables {r : CameraRec} (was : s.cameras[c].enable = true) (off : r.enable = false) :
    s.applyCamera c r = ((s.setCamera c r).disableCamera c s.cameras[c] r).configureLens c s.cameras[c] r := by
  unfold State.applyCamera
  exact if_pos (by rw [was, off]; rfl)

theorem State.applyCamera_enables {r : CameraRec} (was : s.cameras[c].enable = false) (on : r.enable = true) :
    s.applyCamera c r = ((s.setCamera c r).configureLens c s.cameras[c] r).enableCamera c := by
  unfold State.applyCamera
  exact (if_neg (by rw [was]; exact nofun)).trans (if_pos (by rw [was, on]; rfl))

theorem State.applyCamera_reconfigures {r : CameraRec} (same : r.enable = s.cameras[c].enable) :
    s.applyCamera c r = if r.enable = true ∧ s.cameras[c].period ≠ r.period then
      ((s.setCamera c r).configureLens c s.cameras[c] r).staleTimeout c
    else (s.setCamera c r).configureLens c s.cameras[c] r := by
  have neither : (r.enable && !r.enable) = false := by cases r.enable <;> rfl
  unfold State.applyCamera
  dsimp only
  rw [← same, neither, if_neg Bool.false_ne_true, if_neg Bool.false_ne_true]
  exact if_congr (by rw [Bool.and_eq_true, decide_eq_true_iff]) rfl rfl

/-- A CAMERA record that keeps the geometry of an enabled camera (R163). -/
theorem State.totalsIn_applyCamera (hs : s.totalsIn) (c : Camera) {r : CameraRec}
    (keeps : s.cameras[c].enable = true → r.enable = true → r.w = s.cameras[c].w ∧ r.h = s.cameras[c].h) :
    (s.applyCamera c r).totalsIn := by
  have landing := s.applyCamera_landingKept c r
  have acc := State.allLens_applyCamera (fun c => lensClosed_accFrom s.lens[c].acc) s.accFrom_self c r
  intro d
  rw [s.applyCamera_cameras c r]
  by_cases own : d = c
  · subst own
    rw [upd_getElem_self]
    by_cases on : r.enable = true
    · by_cases was : s.cameras[d].enable = true
      · obtain ⟨w, h⟩ := keeps was on
        have words : r.frameWords = s.cameras[d].frameWords := by
          unfold CameraRec.frameWords
          rw [w, h]
        refine totalIn.kept (g := s.rings[d]) (l := s.lens[d]) ?_ (landing d) (acc d)
        intro a ha _ inFrame below
        exact hs d a ha was inFrame (words ▸ below)
      · refine totalIn_outside ?_
        rw [State.applyCamera_enables (Bool.eq_false_of_not_eq_true was) on, State.enableCamera_phase]
        exact nofun
    · exact fun _ _ h => absurd h on
  · rw [upd_getElem_of_ne _ _ own]
    exact (hs d).kept (landing d) (acc d)

/-- Each camera has at most one staged record. -/
theorem Engine.cameraRecords_nodup {e : Engine} (bound : e.load.first + e.load.count ≤ 16) :
    (e.cameraRecords.map Prod.fst).Nodup := by
  unfold Engine.cameraRecords Engine.records
  rw [List.map_map, List.map_map]
  refine List.Nodup.map_on (fun x hx y hy same => ?_) List.nodup_range
  rw [List.mem_range] at hx hy
  have := congrArg Fin.val same
  simp only [Function.comp_apply, Fin.val_ofNat] at this
  rw [Nat.mod_eq_of_lt (by omega), Nat.mod_eq_of_lt (by omega)] at this
  omega

/-- What holds behind each record of a CAMERAS load, where every record meets the camera record that stood
when the load was validated. -/
theorem foldl_applyCamera_induct {P : State → Prop} (s : State) (l : List (Camera × CameraRec))
    (nodup : (l.map Prod.fst).Nodup) (u : State) (fresh : ∀ x ∈ l, u.cameras[x.1] = s.cameras[x.1]) (hu : P u)
    (step : ∀ v, ∀ x ∈ l, v.cameras[x.1] = s.cameras[x.1] → P v → P (v.applyCamera x.1 x.2)) :
    P (l.foldl (fun v x => v.applyCamera x.1 x.2) u) := by
  induction l generalizing u with
  | nil => exact hu
  | cons x l ih =>
    obtain ⟨new, rest⟩ := List.nodup_cons.1 nodup
    refine ih rest _ (fun y hy => ?_) (step u x (List.mem_cons_self ..) (fresh x (List.mem_cons_self ..)) hu)
      fun v y hy => step v y (List.mem_cons_of_mem _ hy)
    rw [u.applyCamera_cameras, upd_getElem_of_ne _ _ fun e => new (by rw [← e]; exact List.mem_map_of_mem hy)]
    exact fresh y (List.mem_cons_of_mem _ hy)

theorem State.applyLoad_landingKept (s : State) : LandingKept s s.applyLoad := by
  unfold State.applyLoad
  dsimp only
  split
  · exact .foldl (fun u x => u.applySetup_landingKept _) _ s
  · exact .foldl (fun u x => u.applyCamera_landingKept _ _) _ s
  · exact .foldl (fun u x => u.applyScreen_landingKept _ _) _ s
  · exact .of_rings rfl
  · exact .of_rings rfl
  · exact .foldl (fun u x => (u.applyDoor_effect _ _).landingKept) _ s

end

end Sys2Proof.Machine
end

section
/-! The lens records and their figures under every step (O57). -/

namespace Sys2Proof.Machine

set_option Elab.async false

/-! ### What validation asks of a CAMERA record -/

/-- The checks of R163 on one CAMERA record against the record in force. -/
structure CameraRec.Passes (r : CameraRec) (slotBytes : Nat) (old : CameraRec) : Prop where
  fits : r.w * r.h * 2 ≤ slotBytes
  members : 3 ≤ r.k ∧ r.k ≤ 6
  judge : r.judge ≤ 16
  noise : r.noise ≤ 31
  kept : old.enable = true → r.enable = true → r.w = old.w ∧ r.h = old.h ∧ r.k = old.k ∧ r.excl = old.excl

theorem CameraRec.passes_of_checks {slotBytes : Nat} {c : Camera} {old r : CameraRec}
    (checks : ∀ k ∈ cameraChecks slotBytes c.val old r, k.holds = true) : r.Passes slotBytes old := by
  have range := checks ⟨_, .badRange⟩ (List.mem_cons_self ..)
  have busy := checks ⟨_, .busyCamera⟩ (List.mem_cons_of_mem _ (List.mem_cons_self ..))
  simp only [Bool.and_eq_true, within, decide_eq_true_eq] at range
  obtain ⟨⟨⟨⟨⟨⟨-, fits⟩, members⟩, -⟩, -⟩, judge⟩, noise⟩ := range
  refine ⟨fits, members, judge.2, noise.2, fun was on => ?_⟩
  simp only [was, on, Bool.and_self, Bool.not_true, Bool.false_or, Bool.and_eq_true, decide_eq_true_eq] at busy
  obtain ⟨⟨⟨w, h⟩, k⟩, excl⟩ := busy
  exact ⟨w, h, k, excl⟩

theorem State.passes_of_validate {s : State} (h : s.validate = none) (ht : s.engine.load.table = .cameras) :
    ∀ x ∈ s.engine.cameraRecords, x.2.Passes s.pool.slotBytes s.cameras[x.1] := fun x hx =>
  CameraRec.passes_of_checks ((State.cameraChecks_of_validate h ht).1 x hx)

theorem State.applyLoad_cameraRecords {s : State} (h : s.engine.load.table = .cameras) :
    s.applyLoad = s.engine.cameraRecords.foldl (fun u x => u.applyCamera x.1 x.2) s := by
  unfold State.applyLoad
  dsimp only
  rw [h]

/-! ### The figures under an operation -/

section
variable {s t : State}

theorem Effect.camerasIn {ps : List Piece} (e : Effect ps s t)
    (hs : ∀ c : Camera, s.cameras[c].judge ≤ 16 ∧ s.cameras[c].noise ≤ 31)
    (h : Piece.cameras ∉ Piece.mem :: .ring :: ps := by decide) :
    ∀ c : Camera, t.cameras[c].judge ≤ 16 ∧ t.cameras[c].noise ≤ 31 := by
  rw [show t.cameras = s.cameras from e.same .cameras h]
  exact hs

theorem State.figures_applyLoad (hc : ∀ c : Camera, s.cameras[c].judge ≤ 16 ∧ s.cameras[c].noise ≤ 31)
    (ht : s.totalsIn) (bound : s.engine.load.first + s.engine.load.count ≤ s.engine.load.table.records)
    (hv : s.validate = none) :
    (∀ c : Camera, s.applyLoad.cameras[c].judge ≤ 16 ∧ s.applyLoad.cameras[c].noise ≤ 31) ∧ s.applyLoad.totalsIn := by
  by_cases table : s.engine.load.table = .cameras
  · have passes := State.passes_of_validate hv table
    rw [table] at bound
    rw [State.applyLoad_cameraRecords table]
    refine foldl_applyCamera_induct (P := fun u =>
      (∀ c : Camera, u.cameras[c].judge ≤ 16 ∧ u.cameras[c].noise ≤ 31) ∧ u.totalsIn) s s.engine.cameraRecords
      (Engine.cameraRecords_nodup bound) s (fun _ _ => rfl) ⟨hc, ht⟩ fun v x hx stands ⟨hc, ht⟩ => ⟨fun c => ?_, ?_⟩
    · rw [v.applyCamera_cameras]
      rcases upd_getElem_cases v.cameras x.1 c x.2 with ⟨e, -⟩ | ⟨e, -⟩
      · rw [e]
        exact ⟨(passes x hx).judge, (passes x hx).noise⟩
      · rw [e]
        exact hc c
    · refine State.totalsIn_applyCamera ht x.1 fun was on => ?_
      rw [stands] at was ⊢
      obtain ⟨w, h, -⟩ := (passes x hx).kept was on
      exact ⟨w, h⟩
  · have cameras : s.applyLoad.cameras = s.cameras :=
      s.applyLoad_touches.same .cameras (by revert table; cases s.engine.load.table <;> decide)
    refine ⟨by rw [cameras]; exact hc, State.totalsIn_of_kept ht s.applyLoad_landingKept ?_ cameras⟩
    exact State.allLens_applyLoad (fun c => lensClosed_accFrom s.lens[c].acc) s.accFrom_self

theorem Offered.landingKept {c : Command} {tag : Byte} (o : Offered s c tag t) : LandingKept s t := by
  have taken := (s.takeTag_effect tag).landingKept
  cases o with
  | ignored => exact .refl s
  | restart => exact s.warmRestart_landingKept tag
  | idle => exact taken.trans (State.idleCommand_landingKept _ c)
  | cleared => exact taken.trans ((State.enter_effect _ _).trans (State.finishPlain_effect _ _ _ _)).landingKept
  | aborted => exact taken.trans (State.abortLoad_effect _ _ _).landingKept
  | invalid =>
    exact taken.trans (((State.discardStaging_effect _).trans (State.enter_effect _ _)).trans
      (State.finish_effect _ _ _ _ _ _)).landingKept
  | applied _ _ _ _ outcome => exact (taken.trans (State.applyLoad_landingKept _)).trans outcome.effect.landingKept

theorem Offered.figures {c : Command} {tag : Byte} (o : Offered s c tag t)
    (hc : ∀ c : Camera, s.cameras[c].judge ≤ 16 ∧ s.cameras[c].noise ≤ 31) (ht : s.totalsIn)
    (range : s.engine.inRange) :
    (∀ c : Camera, t.cameras[c].judge ≤ 16 ∧ t.cameras[c].noise ≤ 31) ∧ t.totalsIn := by
  have acc : t.allLens fun c => LensRec.accFrom s.lens[c].acc :=
    o.allLens (fun c => lensClosed_accFrom s.lens[c].acc) s.accFrom_self
  rcases o.effect_or_applied with e | ⟨staging, passed, outcome⟩
  · exact ⟨e.camerasIn hc, State.totalsIn_of_kept ht o.landingKept acc (e.same .cameras)⟩
  · have taken := s.takeTag_effect tag
    obtain ⟨-, -, bound, -⟩ := range.1 staging
    obtain ⟨hc', ht'⟩ := State.figures_applyLoad (s := s.takeTag tag) (taken.camerasIn hc)
      (State.totalsIn_of_kept ht taken.landingKept s.accFrom_self rfl) bound passed
    refine ⟨outcome.effect.camerasIn hc', State.totalsIn_of_kept ht' outcome.effect.landingKept ?_
      (outcome.effect.same .cameras)⟩
    exact outcome.effect.allLens (State.accFrom_self _)

/-- An operation that changes neither the camera records nor a lens record. -/
theorem Effect.totalsIn {ps : List Piece} (e : Effect ps s t) (landing : LandingKept s t) (hs : s.totalsIn)
    (hc : Piece.cameras ∉ Piece.mem :: .ring :: ps := by decide)
    (hl : Piece.lens ∉ Piece.mem :: .ring :: ps := by decide) : t.totalsIn :=
  State.totalsIn_of_kept hs landing (e.allLens s.accFrom_self hl) (e.same .cameras hc)

theorem Touches.totalsIn {ps : List Piece} (e : Touches ps s t) (hs : s.totalsIn)
    (hc : Piece.cameras ∉ ps := by decide) (hl : Piece.lens ∉ ps := by decide) (hr : Piece.rings ∉ ps := by decide) :
    t.totalsIn :=
  State.totalsIn_of_kept hs (.of_rings (e.same .rings hr)) (e.allLens s.accFrom_self hl) (e.same .cameras hc)

theorem Touches.camerasIn {ps : List Piece} (e : Touches ps s t)
    (hs : ∀ c : Camera, s.cameras[c].judge ≤ 16 ∧ s.cameras[c].noise ≤ 31) (h : Piece.cameras ∉ ps := by decide) :
    ∀ c : Camera, t.cameras[c].judge ≤ 16 ∧ t.cameras[c].noise ≤ 31 := by
  rw [show t.cameras = s.cameras from e.same .cameras h]
  exact hs

theorem Operation.totals (o : Operation s t) (h : s.FiguresIn) (range : s.engine.inRange) :
    (∀ c : Camera, t.cameras[c].judge ≤ 16 ∧ t.cameras[c].noise ≤ 31) ∧ t.totalsIn := by
  obtain ⟨hc, ranges, bounded, ht⟩ := h
  cases o with
  | nothing => exact ⟨hc, ht⟩
  | drop k tag a => exact ⟨(s.guardDrop_effect k tag a).camerasIn hc, (s.guardDrop_effect k tag a).totalsIn
      (s.guardDrop_effect k tag a).landingKept ht⟩
  | store a w => exact ⟨(s.setMem_touches _).camerasIn hc, (s.setMem_touches _).totalsIn ht⟩
  | page n w => exact ⟨(s.pageWrite_touches n w).camerasIn hc, (s.pageWrite_touches n w).totalsIn ht⟩
  | consume w => exact ⟨(s.consumerBeat_touches w).camerasIn hc, (s.consumerBeat_touches w).totalsIn ht⟩
  | stage i w =>
    have e := State.stageBeat_effect (s.pageWrite (256 + i.val) w) i w
    have stored := s.pageWrite_touches (256 + i.val) w
    exact ⟨e.camerasIn (stored.camerasIn hc), e.totalsIn e.landingKept (stored.totalsIn ht)⟩
  | command d c tag =>
    have stored := s.pageWrite_touches 8 ⟨0xFF, d⟩
    refine (State.offer_cases _ c tag).figures (stored.camerasIn hc) (stored.totalsIn ht) ?_
    rwa [show (s.pageWrite 8 ⟨0xFF, d⟩).engine = s.engine from stored.same .engine]
  | land c n w on below =>
    have cameras : (s.landingPhase c n w).cameras = s.cameras := (s.landingPhase_touches c n w).same .cameras
    exact ⟨by rw [cameras]; exact hc, ((s.landingPhase_cases c n w).figures ⟨hc, ranges, bounded, ht⟩ on).2⟩
  | frameStart i => exact ⟨(s.frameStart_effect i).camerasIn hc, (s.frameStart_effect i).totalsIn
      (s.frameStart_landingKept i) ht⟩
  | status n => exact ⟨(s.afterStatusRead_effect n).camerasIn hc, (s.afterStatusRead_effect n).totalsIn
      (s.afterStatusRead_effect n).landingKept ht⟩
  | stale c => exact ⟨(s.staleTimeout_effect c).camerasIn hc, (s.staleTimeout_effect c).totalsIn
      (s.staleTimeout_effect c).landingKept ht⟩
  | sample l =>
    have e := State.sampleInstant_effect { s with lines := l }
    exact ⟨e.camerasIn hc, Effect.totalsIn e (State.sampleInstant_landingKept _) ht⟩
  | linger i => exact ⟨(s.lingerExpiry_effect i).camerasIn hc, (s.lingerExpiry_effect i).totalsIn
      (s.lingerExpiry_effect i).landingKept ht⟩
  | close k => exact ⟨(s.guardClose_effect k).camerasIn hc, (s.guardClose_effect k).totalsIn
      (s.guardClose_effect k).landingKept ht⟩
  | overtime => exact ⟨s.applyingOvertime_effect.camerasIn hc, s.applyingOvertime_effect.totalsIn
      s.applyingOvertime_effect.landingKept ht⟩

theorem Operation.figures (o : Operation s t) (h : s.FiguresIn) (range : s.engine.inRange) : t.FiguresIn := by
  obtain ⟨cameras, totals⟩ := o.totals h range
  exact ⟨cameras, o.lensInRange h.ranges, o.allLens (fun _ => lensClosed_bounded) h.bounded
    fun c n w on _ same => same ▸ ((s.landingPhase_cases c n w).figures h on).1, totals⟩

end

theorem State.lensInRange_powerOn (s : State) (straps : BitVec 2) :
    (s.powerOn straps).allLens fun _ => LensRec.inRange := fun c => by
  rw [State.powerOn_lens]
  exact LensRec.powerOn_inRange

theorem State.figuresIn_powerOn (s : State) (straps : BitVec 2) : (s.powerOn straps).FiguresIn := by
  obtain ⟨cameras, bounded, totals⟩ := State.lensFigures_iff.1 (s.lensFigures_powerOn straps)
  exact ⟨cameras, s.lensInRange_powerOn straps, bounded, totals⟩

/-- The figures do not speak of the time, the queue, the port and the condition. -/
theorem State.FiguresIn.congr {s t : State} (h : s.FiguresIn) (cameras : t.cameras = s.cameras) (lens : t.lens = s.lens)
    (rings : t.rings = s.rings) : t.FiguresIn := by
  refine ⟨by rw [cameras]; exact h.cameras, State.allLens_congr lens h.ranges, State.allLens_congr lens h.bounded, ?_⟩
  unfold State.totalsIn
  rw [cameras, lens, rings]
  exact h.totals

/-- Settles O57: every operation on a lens record keeps its ranges, and the figures behind it as far as the camera
records are valid and a frame's total is what its counted words give. -/
theorem lensStaysInRange : Obligations.LensStaysInRange := by
  refine ⟨fun s t hs h => ?_, fun s t hs range h => ?_⟩
  · exact step_keeps (P := State.allLens fun _ => LensRec.inRange) hs h (fun _ _ h => h) (fun _ _ _ h => h)
      (fun _ _ h => h) (fun _ _ _ h => h)
        (fun u straps _ => u.lensInRange_powerOn straps) fun _ _ h o => o.lensInRange h
  · obtain ⟨cameras, bounded, totals⟩ := State.lensFigures_iff.1 fun c => (hs c).2
    have kept : t.FiguresIn ∧ t.engine.inRange := step_keeps (P := fun s => s.FiguresIn ∧ s.engine.inRange)
      ⟨⟨cameras, fun c => (hs c).1, bounded, totals⟩, range⟩ h
      (fun _ _ ⟨h, e⟩ => ⟨h.congr rfl rfl rfl, e⟩) (fun _ _ _ ⟨h, e⟩ => ⟨h.congr rfl rfl rfl, e⟩)
      (fun _ _ ⟨h, e⟩ => ⟨h.congr rfl rfl rfl, e⟩) (fun _ _ _ ⟨h, e⟩ => ⟨h.congr rfl rfl rfl, e⟩)
      (fun u straps _ => ⟨u.figuresIn_powerOn straps, Engine.inRange_of_rest (.inl rfl) rfl⟩)
      fun _ _ ⟨h, e⟩ o => ⟨o.figures h e, o.engine_inRange e⟩
    exact State.lensFigures_iff.2 ⟨kept.1.cameras, kept.1.bounded, kept.1.totals⟩

end Sys2Proof.Machine
end

section
/-! The laws of the pool (O59): what one slot's change of place keeps of them. -/

namespace Sys2Proof.Machine

set_option Elab.async false

/-! ### A slot record of its own -/

/-- The pins that a disposition allows (R3, R5). -/
def SlotRec.pinsLawful (r : SlotRec) : Prop :=
  match r.disp with
  | .free => r.pins = 0
  | .ring _ .empty => r.pins = 0
  | .ring _ .filling => r.pins = 0
  | .ring _ .ready => True
  | .held _ => True
  | .retiring => r.pins ≠ 0

/-- A frame number and capture time are present exactly for READY and HELD slots (R3). -/
def SlotRec.stampLawful (r : SlotRec) : Prop :=
  r.frame.isSome = true ↔ (∃ c : Camera, r.disp = .ring c .ready) ∨ ∃ h : HoldId, r.disp = .held h

/-- The laws of one slot record; with `strict`, also that of its frame stamp. -/
def SlotRec.Lawful (strict : Prop) (r : SlotRec) : Prop := r.pinsLawful ∧ (strict → r.stampLawful)

/-- The laws of the pool without the rings' sizes: the rings and the slot records name each other, no ring lists a
slot twice, and every slot record is lawful. -/
structure State.PoolCore (strict : Prop) (s : State) : Prop where
  members : ∀ (c : Camera) i m, (i, m) ∈ s.rings[c].members ↔ i < s.pool.slots.length ∧ (s.slot i).disp = .ring c m
  nodup : ∀ c : Camera, (s.rings[c].members.map Prod.fst).Nodup
  lawful : ∀ i, i < s.pool.slots.length → (s.slot i).Lawful strict

/-- Every enabled camera's ring has k members, at least 3, and a disabled camera's none. -/
def State.ringsSized (s : State) : Prop :=
  (∀ c : Camera, s.rings[c].members.length = if s.cameras[c].enable then s.cameras[c].k else 0)
    ∧ ∀ c : Camera, s.cameras[c].enable = true → 3 ≤ s.cameras[c].k

/-- Every slot record's frame stamp is lawful. -/
def State.stampsLawful (s : State) : Prop := ∀ i, i < s.pool.slots.length → (s.slot i).stampLawful

theorem State.poolLaws_iff {s : State} : s.poolLaws ↔ s.PoolCore False ∧ s.ringsSized := by
  unfold State.poolLaws State.ringsSized
  refine ⟨fun ⟨members, nodup, sizes, three, lawful⟩ => ⟨⟨members, nodup, fun i hi => ⟨lawful i hi, fun h => h.elim⟩⟩,
    sizes, three⟩, fun ⟨⟨members, nodup, lawful⟩, sizes, three⟩ => ⟨members, nodup, sizes, three, fun i hi =>
    (lawful i hi).1⟩⟩

theorem State.PoolCore.strict {s : State} (h : s.PoolCore False) (stamps : s.stampsLawful) : s.PoolCore True :=
  ⟨h.members, h.nodup, fun i hi => ⟨(h.lawful i hi).1, fun _ => stamps i hi⟩⟩

theorem State.PoolCore.stamps {s : State} (h : s.PoolCore True) : s.stampsLawful := fun i hi =>
  (h.lawful i hi).2 trivial

section
variable {strict : Prop}

theorem SlotRec.fresh_lawful : SlotRec.fresh.Lawful strict :=
  ⟨rfl, fun _ => ⟨nofun, fun h => h.elim (fun ⟨_, e⟩ => nomatch e) fun ⟨_, e⟩ => nomatch e⟩⟩

/-- A ring member without a frame. -/
theorem SlotRec.member_lawful (c : Camera) {m : MemberState} (h : m ≠ .ready) :
    SlotRec.Lawful strict ⟨.ring c m, 0, none⟩ := by
  refine ⟨?_, fun _ => ⟨nofun, fun k => k.elim (fun ⟨_, e⟩ => ?_) fun ⟨_, e⟩ => nomatch e⟩⟩
  · cases m with
    | empty => exact rfl
    | filling => exact rfl
    | ready => exact absurd rfl h
  · cases e
    exact absurd rfl h

theorem SlotRec.ready_lawful (c : Camera) (n : Nat) (f : FrameStamp) :
    SlotRec.Lawful strict ⟨.ring c .ready, n, some f⟩ := ⟨trivial, fun _ => ⟨fun _ => .inl ⟨c, rfl⟩, fun _ => rfl⟩⟩

/-- A READY member that becomes HELD keeps its stamp. -/
theorem SlotRec.Lawful.lift {r : SlotRec} {c : Camera} (h : r.Lawful strict) (ready : r.disp = .ring c .ready)
    (k : HoldId) : SlotRec.Lawful strict { r with disp := .held k } :=
  ⟨trivial, fun hs => ⟨fun _ => .inr ⟨k, rfl⟩, fun _ => (h.2 hs).2 (.inl ⟨c, ready⟩)⟩⟩

/-- Another pin count where every count is lawful. -/
theorem SlotRec.Lawful.repin {r : SlotRec} (h : r.Lawful strict)
    (any : (∃ c : Camera, r.disp = .ring c .ready) ∨ ∃ k : HoldId, r.disp = .held k) (n : Nat) :
    SlotRec.Lawful strict { r with pins := n } := by
  refine ⟨?_, fun hs => h.2 hs⟩
  unfold SlotRec.pinsLawful
  rcases any with ⟨c, ready⟩ | ⟨k, held⟩
  · dsimp only
    rw [ready]
    trivial
  · dsimp only
    rw [held]
    trivial

theorem SlotRec.Lawful.pins_of_free {r : SlotRec} (h : r.Lawful strict) (free : r.disp = .free) : r.pins = 0 := by
  have := h.1
  unfold SlotRec.pinsLawful at this
  rwa [free] at this

theorem SlotRec.Lawful.pins_of_member {r : SlotRec} {c : Camera} {m : MemberState} (h : r.Lawful strict)
    (member : r.disp = .ring c m) (other : m ≠ .ready) : r.pins = 0 := by
  have := h.1
  unfold SlotRec.pinsLawful at this
  rw [member] at this
  cases m with
  | empty => exact this
  | filling => exact this
  | ready => exact absurd rfl other

/-! ### The rings of a lawful pool -/

section
variable {s : State} (h : s.PoolCore strict) {c : Camera} {i : Nat}
include h

theorem State.PoolCore.ready (hi : i ∈ s.rings[c].ready) : i < s.pool.slots.length ∧ (s.slot i).disp = .ring c .ready :=
  (h.members c i .ready).1 (RingRec.mem_members_ready.2 hi)

theorem State.PoolCore.filling (hi : s.rings[c].filling = some i) :
    i < s.pool.slots.length ∧ (s.slot i).disp = .ring c .filling :=
  (h.members c i .filling).1 (RingRec.mem_members_filling.2 hi)

theorem State.PoolCore.empty (hi : i ∈ s.rings[c].empty) : i < s.pool.slots.length ∧ (s.slot i).disp = .ring c .empty :=
  (h.members c i .empty).1 (RingRec.mem_members_empty.2 hi)

theorem State.PoolCore.ringNodup (c : Camera) :
    (s.rings[c].ready ++ s.rings[c].filling.toList ++ s.rings[c].empty).Nodup := by
  rw [← RingRec.members_map_fst]
  exact h.nodup c

end

/-! ### A slot changes its place -/

/-- What a change of places keeps for the other blocks: the slots' number, the rings' sizes, and which slots are
HELD for which hold. -/
structure PoolKept (s t : State) : Prop where
  length : t.pool.slots.length = s.pool.slots.length
  sizes : ∀ c : Camera, t.rings[c].members.length = s.rings[c].members.length
  held : ∀ i (k : HoldId), (t.slot i).disp = .held k ↔ (s.slot i).disp = .held k

/-- Every slot has its pins. -/
def PinsKept (s t : State) : Prop := ∀ i, (t.slot i).pins = (s.slot i).pins

theorem PoolKept.refl (s : State) : PoolKept s s := ⟨rfl, fun _ => rfl, fun _ _ => Iff.rfl⟩

theorem PoolKept.trans {s t u : State} (h : PoolKept s t) (k : PoolKept t u) : PoolKept s u :=
  ⟨k.length.trans h.length, fun c => (k.sizes c).trans (h.sizes c), fun i x => (k.held i x).trans (h.held i x)⟩

theorem PinsKept.refl (s : State) : PinsKept s s := fun _ => rfl

theorem PinsKept.trans {s t u : State} (h : PinsKept s t) (k : PinsKept t u) : PinsKept s u :=
  fun i => (k i).trans (h i)

section
variable {s t : State}

theorem State.PoolCore.congr (h : s.PoolCore strict) (pool : t.pool = s.pool) (rings : t.rings = s.rings) :
    t.PoolCore strict := by
  have slots := State.slot_congr pool
  refine ⟨?_, ?_, ?_⟩ <;> simp only [slots, pool, rings]
  · exact h.members
  · exact h.nodup
  · exact h.lawful

theorem PoolKept.of_same (pool : t.pool = s.pool) (rings : t.rings = s.rings) : PoolKept s t :=
  ⟨by rw [pool], fun c => by rw [rings], fun i k => by rw [State.slot_congr pool]⟩

theorem PinsKept.of_same (pool : t.pool = s.pool) : PinsKept s t := fun i => by rw [State.slot_congr pool]

theorem Effect.poolCore {ps : List Piece} (e : Effect ps s t) (h : s.PoolCore strict)
    (hp : Piece.pool ∉ Piece.mem :: .ring :: ps := by decide)
      (hr : Piece.rings ∉ Piece.mem :: .ring :: ps := by decide) :
    t.PoolCore strict := h.congr (e.same .pool hp) (e.same .rings hr)

theorem Effect.poolKept {ps : List Piece} (e : Effect ps s t)
    (hp : Piece.pool ∉ Piece.mem :: .ring :: ps := by decide)
      (hr : Piece.rings ∉ Piece.mem :: .ring :: ps := by decide) :
    PoolKept s t := .of_same (e.same .pool hp) (e.same .rings hr)

theorem Effect.pinsKept {ps : List Piece} (e : Effect ps s t)
    (hp : Piece.pool ∉ Piece.mem :: .ring :: ps := by decide) : PinsKept s t := .of_same (e.same .pool hp)

end

/-- Slot `i` with record `x` in the slot table and ring `g` at camera `c`. -/
def State.placed (s : State) (c : Camera) (g : RingRec) (i : Nat) (x : SlotRec) : State := (s.setRing c g).setSlot i x

section
variable {s : State} {c : Camera} {g : RingRec} {i : Nat} {x : SlotRec}

theorem State.placed_length : (s.placed c g i x).pool.slots.length = s.pool.slots.length := State.setSlot_length _ _ _

theorem State.placed_slot_self (hi : i < s.pool.slots.length) : (s.placed c g i x).slot i = x :=
  (s.setRing c g).slot_setSlot_self x hi

theorem State.placed_slot_of_ne {k : Nat} (hk : k ≠ i) : (s.placed c g i x).slot k = s.slot k :=
  (s.setRing c g).slot_setSlot_of_ne x hk

theorem State.placed_ring_self : (s.placed c g i x).rings[c] = g := upd_getElem_self ..

theorem State.placed_ring_of_ne {d : Camera} (hd : d ≠ c) : (s.placed c g i x).rings[d] = s.rings[d] :=
  upd_getElem_of_ne _ _ hd

/-- A slot changes its place between ring `c` and a place outside the rings, or within ring `c`. -/
theorem State.PoolCore.place (h : s.PoolCore strict) (hi : i < s.pool.slots.length)
    (was : ∀ d m, (s.slot i).disp = .ring d m → d = c) (becomes : ∀ d m, x.disp = .ring d m → d = c)
    (members : ∀ j m, (j, m) ∈ g.members ↔ (j ≠ i ∧ (j, m) ∈ s.rings[c].members) ∨ (j = i ∧ x.disp = .ring c m))
    (nodup : (g.members.map Prod.fst).Nodup) (lawful : x.Lawful strict) : (s.placed c g i x).PoolCore strict := by
  refine ⟨fun d j m => ?_, fun d => ?_, fun j hj => ?_⟩
  · rw [State.placed_length]
    by_cases own : d = c
    · subst own
      rw [State.placed_ring_self, members]
      by_cases here : j = i
      · subst here
        rw [State.placed_slot_self hi]
        exact ⟨fun k => k.elim (fun k => absurd rfl k.1) fun k => ⟨hi, k.2⟩, fun k => .inr ⟨rfl, k.2⟩⟩
      · rw [State.placed_slot_of_ne here, h.members d j m]
        exact ⟨fun k => k.elim (fun k => k.2) fun k => absurd k.1 here, fun k => .inl ⟨here, k⟩⟩
    · rw [State.placed_ring_of_ne own, h.members d j m]
      by_cases here : j = i
      · subst here
        rw [State.placed_slot_self hi]
        exact ⟨fun k => absurd (was d m k.2) own, fun k => absurd (becomes d m k.2) own⟩
      · rw [State.placed_slot_of_ne here]
  · by_cases own : d = c
    · subst own
      rw [State.placed_ring_self]
      exact nodup
    · rw [State.placed_ring_of_ne own]
      exact h.nodup d
  · rw [State.placed_length] at hj
    by_cases here : j = i
    · subst here
      rw [State.placed_slot_self hi]
      exact lawful
    · rw [State.placed_slot_of_ne here]
      exact h.lawful j hj

/-- What a change of place within ring `c` keeps. -/
theorem PoolKept.place (hi : i < s.pool.slots.length) (size : g.members.length = s.rings[c].members.length)
    (was : ∀ k, (s.slot i).disp ≠ .held k) (becomes : ∀ k, x.disp ≠ .held k) : PoolKept s (s.placed c g i x) := by
  refine ⟨State.placed_length, fun d => ?_, fun j k => ?_⟩
  · by_cases own : d = c
    · subst own
      rw [State.placed_ring_self]
      exact size
    · rw [State.placed_ring_of_ne own]
  · by_cases here : j = i
    · subst here
      rw [State.placed_slot_self hi]
      exact ⟨fun e => absurd e (becomes k), fun e => absurd e (was k)⟩
    · rw [State.placed_slot_of_ne here]

theorem PinsKept.place (hi : i < s.pool.slots.length) (pins : x.pins = (s.slot i).pins) :
    PinsKept s (s.placed c g i x) := fun j => by
  by_cases here : j = i
  · subst here
    rw [State.placed_slot_self hi]
    exact pins
  · rw [State.placed_slot_of_ne here]

end

end

end Sys2Proof.Machine
end

section
/-! The Slot Manager's operations under the laws of the pool: landing targets, pins, transfers, releases. -/

namespace Sys2Proof.Machine

set_option Elab.async false

section
variable {strict : Prop} {s : State} {c : Camera} {i : Nat}

/-! ### Landing targets -/

/-- The front EMPTY member becomes FILLING. -/
theorem State.PoolCore.fromEmpty (h : s.PoolCore strict) {rest : List Nat} (empty : s.rings[c].empty = i :: rest)
    (idle : s.rings[c].filling = none) : (s.placed c { s.rings[c] with empty := rest, filling := some i } i
      ⟨.ring c .filling, 0, none⟩).PoolCore strict := by
  obtain ⟨hi, was⟩ := h.empty (c := c) (i := i) (by rw [empty]; exact List.mem_cons_self ..)
  have nodup := h.ringNodup c
  rw [idle, empty, Option.toList_none, List.append_nil] at nodup
  have fresh : i ∉ rest := (List.nodup_cons.1 (List.nodup_append.1 nodup).2.1).1
  have notReady : i ∉ s.rings[c].ready := fun k => nomatch (h.ready k).2.symm.trans was
  refine h.place hi (fun d m e => ?_) (fun d m e => ?_) (fun j m => ?_) ?_ (SlotRec.member_lawful c (by decide))
  · cases was.symm.trans e
    rfl
  · cases e
    rfl
  · cases m with
    | ready =>
      rw [RingRec.mem_members_ready, RingRec.mem_members_ready]
      exact ⟨fun k => .inl ⟨fun e => notReady (e ▸ k), k⟩, fun k => k.elim (fun k => k.2) fun k => nomatch k.2⟩
    | filling =>
      rw [RingRec.mem_members_filling, RingRec.mem_members_filling, idle]
      exact ⟨fun k => .inr ⟨(Option.some.inj k).symm, rfl⟩, fun k => k.elim (fun k => nomatch k.2) fun k => k.1 ▸ rfl⟩
    | empty =>
      rw [RingRec.mem_members_empty, RingRec.mem_members_empty, empty, List.mem_cons]
      exact ⟨fun k => .inl ⟨fun e => fresh (e ▸ k), .inr k⟩,
        fun k => k.elim (fun k => k.2.resolve_left k.1) fun k => nomatch k.2⟩
  · rw [RingRec.members_map_fst]
    show (s.rings[c].ready ++ [i] ++ rest).Nodup
    rwa [List.append_assoc]

/-- A READY member without a pin becomes FILLING. -/
theorem State.PoolCore.fromReady (h : s.PoolCore strict) (ready : i ∈ s.rings[c].ready)
    (idle : s.rings[c].filling = none) :
    (s.placed c { s.rings[c] with ready := s.rings[c].ready.erase i, filling := some i } i
      ⟨.ring c .filling, 0, none⟩).PoolCore strict := by
  obtain ⟨hi, was⟩ := h.ready ready
  have nodup := h.ringNodup c
  rw [idle, Option.toList_none, List.append_nil] at nodup
  have once := (List.nodup_append.1 nodup).1
  have notEmpty : i ∉ s.rings[c].empty := fun k => nomatch (h.empty k).2.symm.trans was
  refine h.place hi (fun d m e => ?_) (fun d m e => ?_) (fun j m => ?_) ?_ (SlotRec.member_lawful c (by decide))
  · cases was.symm.trans e
    rfl
  · cases e
    rfl
  · cases m with
    | ready =>
      rw [RingRec.mem_members_ready, RingRec.mem_members_ready]
      show j ∈ s.rings[c].ready.erase i ↔ _
      rw [once.mem_erase_iff]
      exact ⟨.inl, fun k => k.elim id fun k => nomatch k.2⟩
    | filling =>
      rw [RingRec.mem_members_filling, RingRec.mem_members_filling, idle]
      exact ⟨fun k => .inr ⟨(Option.some.inj k).symm, rfl⟩, fun k => k.elim (fun k => nomatch k.2) fun k => k.1 ▸ rfl⟩
    | empty =>
      rw [RingRec.mem_members_empty, RingRec.mem_members_empty]
      exact ⟨fun k => .inl ⟨fun e => notEmpty (e ▸ k), k⟩, fun k => k.elim (fun k => k.2) fun k => nomatch k.2⟩
  · rw [RingRec.members_map_fst]
    show (s.rings[c].ready.erase i ++ [i] ++ s.rings[c].empty).Nodup
    rw [List.append_assoc]
    refine (((List.perm_cons_erase ready).append_right s.rings[c].empty).trans ?_).nodup_iff.1 nodup
    rw [List.cons_append]
    exact List.perm_middle.symm

theorem RingRec.members_length (r : RingRec) :
    r.members.length = r.ready.length + r.filling.toList.length + r.empty.length := by
  simp [RingRec.members, Nat.add_assoc]

theorem State.takeTarget_kept {t : State} (h : s.PoolCore strict) (idle : s.rings[c].filling = none)
    (e : s.takeTarget c = some t) : t.PoolCore strict ∧ PoolKept s t ∧ PinsKept s t := by
  unfold State.takeTarget at e
  split at e
  · rename_i i g choice
    cases e
    cases he : s.rings[c].empty with
    | cons k rest =>
      rw [targetChoice_of_empty he] at choice
      cases choice
      obtain ⟨hi, was⟩ := h.empty (c := c) (i := i) (by rw [he]; exact List.mem_cons_self ..)
      have pins := (h.lawful i hi).pins_of_member was (by decide)
      rw [pins]
      refine ⟨h.fromEmpty he idle, .place hi ?_ (fun _ e => nomatch was.symm.trans e) nofun, .place hi pins.symm⟩
      rw [RingRec.members_length, RingRec.members_length, he, idle]
      show s.rings[c].ready.length + 1 + rest.length = s.rings[c].ready.length + 0 + (rest.length + 1)
      omega
    | nil =>
      rw [targetChoice_of_full he] at choice
      obtain ⟨k, found, e⟩ := Option.map_eq_some_iff.1 choice
      cases e
      have member : i ∈ s.rings[c].ready := List.dropLast_subset _ (List.mem_of_find?_eq_some found)
      have pins : (s.slot i).pins = 0 := by simpa using List.find?_some found
      obtain ⟨hi, was⟩ := h.ready member
      have some := List.length_pos_of_mem member
      rw [pins]
      refine ⟨h.fromReady member idle, .place hi ?_ (fun _ e => nomatch was.symm.trans e) nofun, .place hi pins.symm⟩
      rw [RingRec.members_length, RingRec.members_length, idle]
      show (s.rings[c].ready.erase i).length + 1 + s.rings[c].empty.length =
        s.rings[c].ready.length + 0 + s.rings[c].empty.length
      rw [List.length_erase_of_mem member]
      omega
  · cases e

theorem State.chooseTarget_kept (h : s.PoolCore strict) (idle : s.rings[c].filling = none) :
    (s.chooseTarget c).PoolCore strict ∧ PoolKept s (s.chooseTarget c) ∧ PinsKept s (s.chooseTarget c) := by
  unfold State.chooseTarget
  split
  · exact State.takeTarget_kept h idle ‹_›
  · have e := Effect.emit s (.starved c true)
    exact ⟨e.poolCore h, e.poolKept, e.pinsKept⟩

theorem State.endStarved_kept (h : s.PoolCore strict) (idle : s.rings[c].filling = none) :
    (s.endStarved c).PoolCore strict ∧ PoolKept s (s.endStarved c) ∧ PinsKept s (s.endStarved c) := by
  unfold State.endStarved
  split
  · rename_i u hu
    obtain ⟨core, kept, pins⟩ := State.takeTarget_kept h idle hu
    have e := Effect.emit u (.starved c false)
    exact ⟨e.poolCore core, kept.trans e.poolKept, pins.trans e.pinsKept⟩
  · exact ⟨h, .refl s, .refl s⟩

/-! ### Arrivals -/

/-- Ring fields other than the members. -/
theorem State.PoolCore.setRing (h : s.PoolCore strict) {g : RingRec} (same : g.members = s.rings[c].members) :
    (s.setRing c g).PoolCore strict := by
  have ring (d : Camera) : (s.setRing c g).rings[d].members = s.rings[d].members := by
    rw [State.setRing_rings]
    rcases upd_getElem_cases s.rings c d g with ⟨e, rfl⟩ | ⟨e, -⟩
    · rw [e]
      exact same
    · rw [e]
  refine ⟨fun d => ?_, fun d => ?_, h.lawful⟩
  · rw [ring]
    exact h.members d
  · rw [ring]
    exact h.nodup d

theorem PoolKept.setRing (s : State) {g : RingRec} (same : g.members = s.rings[c].members) :
    PoolKept s (s.setRing c g) := by
  refine ⟨rfl, fun d => ?_, fun _ _ => Iff.rfl⟩
  rw [State.setRing_rings]
  rcases upd_getElem_cases s.rings c d g with ⟨e, rfl⟩ | ⟨e, -⟩
  · rw [e, same]
  · rw [e]

/-- The FILLING member becomes the newest READY one (R14 step 1). -/
theorem State.memberReady_kept (h : s.PoolCore strict) (filling : s.rings[c].filling = some i) :
    (s.memberReady c i).PoolCore strict ∧ PoolKept s (s.memberReady c i) ∧ PinsKept s (s.memberReady c i) := by
  obtain ⟨hi, was⟩ := h.filling filling
  have nodup := h.ringNodup c
  rw [filling] at nodup
  have notReady : i ∉ s.rings[c].ready := fun k => nomatch (h.ready k).2.symm.trans was
  have notEmpty : i ∉ s.rings[c].empty := fun k => nomatch (h.empty k).2.symm.trans was
  unfold State.memberReady
  refine ⟨h.place hi (fun d m e => ?_) (fun d m e => ?_) (fun j m => ?_) ?_ (SlotRec.ready_lawful c 0 _),
    .place hi ?_ (fun _ e => nomatch was.symm.trans e) nofun,
    .place hi ((h.lawful i hi).pins_of_member was (by decide)).symm⟩
  · cases was.symm.trans e
    rfl
  · cases e
    rfl
  · cases m with
    | ready =>
      rw [RingRec.mem_members_ready, RingRec.mem_members_ready]
      show j ∈ s.rings[c].ready ++ [i] ↔ _
      rw [List.mem_append, List.mem_singleton]
      exact ⟨fun k => k.elim (fun k => .inl ⟨fun e => notReady (e ▸ k), k⟩) fun k => .inr ⟨k, rfl⟩,
        fun k => k.imp (fun k => k.2) fun k => k.1⟩
    | filling =>
      rw [RingRec.mem_members_filling, RingRec.mem_members_filling, filling]
      exact ⟨nofun, fun k => k.elim (fun k => absurd (Option.some.inj k.2).symm k.1) fun k => nomatch k.2⟩
    | empty =>
      rw [RingRec.mem_members_empty, RingRec.mem_members_empty]
      exact ⟨fun k => .inl ⟨fun e => notEmpty (e ▸ k), k⟩, fun k => k.elim (fun k => k.2) fun k => nomatch k.2⟩
  · rw [RingRec.members_map_fst]
    show (s.rings[c].ready ++ [i] ++ [] ++ s.rings[c].empty).Nodup
    rwa [List.append_nil]
  · rw [RingRec.members_length, RingRec.members_length, filling]
    show (s.rings[c].ready ++ [i]).length + 0 + s.rings[c].empty.length = _
    rw [List.length_append]
    rfl

/-! ### Pins -/

/-- Another pin count of a slot that may have any. -/
theorem State.PoolCore.repin (h : s.PoolCore strict) (n : Nat)
    (lawful : i < s.pool.slots.length → SlotRec.Lawful strict { s.slot i with pins := n }) :
    (s.setSlot i { s.slot i with pins := n }).PoolCore strict
      ∧ PoolKept s (s.setSlot i { s.slot i with pins := n }) := by
  have slot (j : Nat) (hj : j ≠ i) : (s.setSlot i { s.slot i with pins := n }).slot j = s.slot j :=
    s.slot_setSlot_of_ne _ hj
  have disp (j : Nat) : ((s.setSlot i { s.slot i with pins := n }).slot j).disp = (s.slot j).disp := by
    by_cases here : j = i
    · subst here
      by_cases hj : j < s.pool.slots.length
      · rw [s.slot_setSlot_self _ hj]
      · rw [State.slot_of_le (by rw [State.setSlot_length]; omega), State.slot_of_le (by omega)]
    · rw [slot j here]
  refine ⟨⟨fun d j m => ?_, h.nodup, fun j hj => ?_⟩, ⟨State.setSlot_length _ _ _, fun _ => rfl,
    fun j k => by rw [disp]⟩⟩
  · rw [State.setSlot_length, disp]
    exact h.members d j m
  · rw [State.setSlot_length] at hj
    by_cases here : j = i
    · subst here
      rw [s.slot_setSlot_self _ hj]
      exact lawful hj
    · rw [slot j here]
      exact h.lawful j hj

theorem State.pin_kept (h : s.PoolCore strict) (c : Camera) : (s.pin c).1.PoolCore strict ∧ PoolKept s (s.pin c).1 := by
  unfold State.pin
  split
  · rename_i i _ newest
    refine h.repin _ fun hi => (h.lawful i hi).repin (.inl ⟨c, (h.ready ?_).2⟩) _
    exact List.mem_of_getLast? newest
  · exact ⟨h, .refl s⟩

end

end Sys2Proof.Machine
end

section
/-! Unpins, transfers and releases under the laws of the pool, and the hold table's ties to the slots (R134). -/

namespace Sys2Proof.Machine

set_option Elab.async false

section
variable {strict : Prop} {s t : State} {c : Camera} {i : Nat}

/-! ### Slots outside the rings -/

/-- A slot outside the rings takes another record outside them. -/
theorem State.PoolCore.replace (h : s.PoolCore strict) (hi : i < s.pool.slots.length) {x : SlotRec}
    (was : ∀ d m, (s.slot i).disp ≠ .ring d m) (becomes : ∀ d m, x.disp ≠ .ring d m) (lawful : x.Lawful strict) :
    (s.setSlot i x).PoolCore strict := by
  refine ⟨fun d j m => ?_, h.nodup, fun j hj => ?_⟩
  · rw [State.setSlot_length, State.setSlot_rings, h.members d j m]
    by_cases here : j = i
    · subst here
      rw [s.slot_setSlot_self x hi]
      exact ⟨fun k => absurd k.2 (was d m), fun k => absurd k.2 (becomes d m)⟩
    · rw [s.slot_setSlot_of_ne x here]
  · rw [State.setSlot_length] at hj
    by_cases here : j = i
    · subst here
      rw [s.slot_setSlot_self x hi]
      exact lawful
    · rw [s.slot_setSlot_of_ne x here]
      exact h.lawful j hj

/-! ### Unpins -/

/-- The pins after slot `i` has been unpinned once. -/
def UnpinnedOnce (s t : State) (i : Nat) : Prop :=
  ∀ k, (t.slot k).pins = (s.slot k).pins - if k = i then 1 else 0

theorem UnpinnedOnce.then {u : State} (h : UnpinnedOnce s t i) (k : PinsKept t u) : UnpinnedOnce s u i :=
  fun j => (k j).trans (h j)

theorem State.setSlot_unpinnedOnce (hi : i < s.pool.slots.length) {x : SlotRec} (pins : x.pins = (s.slot i).pins - 1) :
    UnpinnedOnce s (s.setSlot i x) i := fun k => by
  by_cases here : k = i
  · subst here
    rw [s.slot_setSlot_self x hi, if_pos rfl, pins]
  · rw [s.slot_setSlot_of_ne x here, if_neg here, Nat.sub_zero]

/-- A slot with a pin is READY, HELD or RETIRING. -/
theorem State.PoolCore.pinned (h : s.PoolCore strict) (hi : i < s.pool.slots.length) (some : (s.slot i).pins ≠ 0) :
    (∃ c, (s.slot i).disp = .ring c .ready) ∨ (∃ k, (s.slot i).disp = .held k) ∨ (s.slot i).disp = .retiring := by
  have lawful := h.lawful i hi
  cases disp : (s.slot i).disp with
  | free => exact absurd (lawful.pins_of_free disp) some
  | ring c m =>
    cases m with
    | empty => exact absurd (lawful.pins_of_member disp (by decide)) some
    | filling => exact absurd (lawful.pins_of_member disp (by decide)) some
    | ready => exact .inl ⟨c, rfl⟩
  | held k => exact .inr (.inl ⟨k, rfl⟩)
  | retiring => exact .inr (.inr rfl)

theorem State.unpin_kept (h : s.PoolCore strict) (i : Nat) :
    (s.unpin i).PoolCore strict ∧ PoolKept s (s.unpin i) ∧ UnpinnedOnce s (s.unpin i) i := by
  by_cases zero : (s.slot i).pins = 0
  · rw [State.unpin_of_zero zero]
    refine ⟨h, .refl s, fun k => ?_⟩
    by_cases here : k = i
    · rw [here, zero, Nat.zero_sub]
    · rw [if_neg here, Nat.sub_zero]
  · have hi : i < s.pool.slots.length := Nat.lt_of_not_le fun k => zero (by rw [State.slot_of_le k]; rfl)
    have lowered : ∀ n, (∃ c, (s.slot i).disp = .ring c .ready) ∨ (∃ k, (s.slot i).disp = .held k) →
        (s.setSlot i { s.slot i with pins := n }).PoolCore strict
          ∧ PoolKept s (s.setSlot i { s.slot i with pins := n }) := fun n any =>
      h.repin n fun hi => (h.lawful i hi).repin any n
    by_cases one : (s.slot i).pins = 1
    · have after := s.slot_setSlot_self { s.slot i with pins := 0 } hi
      have once := State.setSlot_unpinnedOnce hi (x := { s.slot i with pins := 0 }) (by rw [one])
      rw [State.unpin_of_one one]
      rcases h.pinned hi zero with ⟨c, ready⟩ | ⟨k, held⟩ | retiring
      · obtain ⟨core, kept⟩ := lowered 0 (.inl ⟨c, ready⟩)
        rw [State.unpinned_ready (c := c) (by rw [after]; exact ready)]
        split
        · rename_i starving
          obtain ⟨core', kept', pins⟩ := State.endStarved_kept core (State.starved_iff.1 starving.1).2
          exact ⟨core', kept.trans kept', once.then pins⟩
        · exact ⟨core, kept, once⟩
      · obtain ⟨core, kept⟩ := lowered 0 (.inr ⟨k, held⟩)
        rw [State.unpinned_held (k := k) (by rw [after]; exact held)]
        exact ⟨core, kept, once⟩
      · rw [State.unpinned_retiring (by rw [after]; exact retiring), State.setSlot_setSlot]
        refine ⟨h.replace hi (fun d m e => nomatch retiring.symm.trans e) nofun SlotRec.fresh_lawful,
          ⟨State.setSlot_length _ _ _, fun _ => rfl, fun j k => ?_⟩, State.setSlot_unpinnedOnce hi (by rw [one]; rfl)⟩
        by_cases here : j = i
        · subst here
          rw [s.slot_setSlot_self _ hi, retiring]
          exact ⟨nofun, nofun⟩
        · rw [s.slot_setSlot_of_ne _ here]
    · have many : 1 < (s.slot i).pins := by omega
      rw [State.unpin_of_many many]
      have once := State.setSlot_unpinnedOnce hi (x := { s.slot i with pins := (s.slot i).pins - 1 }) rfl
      obtain ⟨core, kept⟩ := h.repin (i := i) ((s.slot i).pins - 1) fun hi => by
        rcases h.pinned hi zero with ready | held | retiring
        · exact (h.lawful i hi).repin (.inl ready) _
        · exact (h.lawful i hi).repin (.inr held) _
        · refine ⟨?_, fun k => (h.lawful i hi).2 k⟩
          unfold SlotRec.pinsLawful
          dsimp only
          rw [retiring]
          show (s.slot i).pins - 1 ≠ 0
          omega
      exact ⟨core, kept, once⟩

/-! ### Transfers -/

/-- READY member `i` has become HELD for hold `h`; nothing else that other blocks look at has changed. -/
structure Lifted (s t : State) (h : HoldId) (i : Nat) : Prop where
  length : t.pool.slots.length = s.pool.slots.length
  sizes : ∀ c : Camera, t.rings[c].members.length = s.rings[c].members.length
  held : ∀ k (q : HoldId), (t.slot k).disp = .held q ↔ (s.slot k).disp = .held q ∨ (k = i ∧ q = h)
  pins : PinsKept s t

theorem Lifted.then {u : State} {h : HoldId} (l : Lifted s t h i) (k : PoolKept t u) (p : PinsKept t u) :
    Lifted s u h i :=
  ⟨k.length.trans l.length, fun c => (k.sizes c).trans (l.sizes c), fun j q => (k.held j q).trans (l.held j q),
    l.pins.trans p⟩

theorem State.PoolCore.liftMember (h : s.PoolCore strict) (ready : i ∈ s.rings[c].ready) (k : HoldId) :
    (s.liftMember c k i).PoolCore strict := by
  obtain ⟨hi, was⟩ := h.ready ready
  have nodup := h.ringNodup c
  have once := (List.nodup_append.1 (List.nodup_append.1 nodup).1).1
  have notFilling : s.rings[c].filling ≠ some i := fun e => nomatch (h.filling e).2.symm.trans was
  have notEmpty : i ∉ s.rings[c].empty := fun k => nomatch (h.empty k).2.symm.trans was
  refine h.place (g := { s.rings[c] with ready := s.rings[c].ready.erase i }) hi (fun d m e => ?_) nofun (fun j m => ?_)
    ?_ ((h.lawful i hi).lift was k)
  · cases was.symm.trans e
    rfl
  · cases m with
    | ready =>
      rw [RingRec.mem_members_ready, RingRec.mem_members_ready]
      show j ∈ s.rings[c].ready.erase i ↔ _
      rw [once.mem_erase_iff]
      exact ⟨.inl, fun k => k.elim id fun k => nomatch k.2⟩
    | filling =>
      rw [RingRec.mem_members_filling, RingRec.mem_members_filling]
      exact ⟨fun k => .inl ⟨fun e => notFilling (e ▸ k), k⟩, fun k => k.elim (fun k => k.2) fun k => nomatch k.2⟩
    | empty =>
      rw [RingRec.mem_members_empty, RingRec.mem_members_empty]
      exact ⟨fun k => .inl ⟨fun e => notEmpty (e ▸ k), k⟩, fun k => k.elim (fun k => k.2) fun k => nomatch k.2⟩
  · rw [RingRec.members_map_fst]
    show (s.rings[c].ready.erase i ++ s.rings[c].filling.toList ++ s.rings[c].empty).Nodup
    rw [List.append_assoc] at nodup ⊢
    exact nodup.sublist (List.erase_sublist.append_right _)

/-- A FREE slot joins the back of a ring's EMPTY part. -/
theorem State.PoolCore.join (h : s.PoolCore strict) (hi : i < s.pool.slots.length) (free : (s.slot i).disp = .free)
    (c : Camera) : ((s.setSlot i ⟨.ring c .empty, 0, none⟩).joinEmpty c i).PoolCore strict := by
  have out (m) : (i, m) ∉ s.rings[c].members := fun k => nomatch free.symm.trans ((h.members c i m).1 k).2
  refine h.place (g := { s.rings[c] with empty := s.rings[c].empty ++ [i] }) hi (fun d m e => nomatch free.symm.trans e)
    (fun d m e => ?_) (fun j m => ?_) ?_ (SlotRec.member_lawful c (by decide))
  · cases e
    rfl
  · have there : (j, m) ∈ s.rings[c].members → j ≠ i := fun k e => out m (e ▸ k)
    cases m with
    | ready =>
      rw [RingRec.mem_members_ready] at there
      rw [RingRec.mem_members_ready, RingRec.mem_members_ready]
      exact ⟨fun k => .inl ⟨there k, k⟩, fun k => k.elim (fun k => k.2) fun k => nomatch k.2⟩
    | filling =>
      rw [RingRec.mem_members_filling] at there
      rw [RingRec.mem_members_filling, RingRec.mem_members_filling]
      exact ⟨fun k => .inl ⟨there k, k⟩, fun k => k.elim (fun k => k.2) fun k => nomatch k.2⟩
    | empty =>
      rw [RingRec.mem_members_empty]
      rw [RingRec.mem_members_empty] at there ⊢
      show j ∈ s.rings[c].empty ++ [i] ↔ _
      rw [List.mem_append, List.mem_singleton]
      exact ⟨fun k => k.elim (fun k => .inl ⟨there k, k⟩) fun k => .inr ⟨k, rfl⟩,
        fun k => k.imp (fun k => k.2) fun k => k.1⟩
  · have fresh : i ∉ s.rings[c].members.map Prod.fst := fun k => by
      obtain ⟨⟨j, m⟩, hm, rfl⟩ := List.mem_map.1 k
      exact out m hm
    have nodup := h.nodup c
    rw [RingRec.members_map_fst] at nodup fresh ⊢
    show (s.rings[c].ready ++ s.rings[c].filling.toList ++ (s.rings[c].empty ++ [i])).Nodup
    rw [← List.append_assoc]
    exact nodup.append (List.nodup_singleton i) fun a ha hb => fresh (List.mem_singleton.1 hb ▸ ha)

theorem State.transferred_kept {h : HoldId} {j : Nat} (core : s.PoolCore strict) (ready : i ∈ s.rings[c].ready)
    (lowest : s.lowestFree = some j) :
    (s.transferred c h i j).PoolCore strict ∧ Lifted s (s.transferred c h i j) h i := by
  obtain ⟨hi, was⟩ := core.ready ready
  obtain ⟨hj, free, -⟩ := State.lowestFree_eq_some_iff.1 lowest
  have hij : j ≠ i := fun e => nomatch (e ▸ free).symm.trans was
  have lifted := core.liftMember ready h
  have freeStill : ((s.liftMember c h i).slot j).disp = .free := by
    rw [← free]
    exact congrArg SlotRec.disp (State.placed_slot_of_ne hij)
  have slot := fun k => State.transferred_slot_of_ne (s := s) (c := c) (h := h) (i := i) (j := j) (k := k)
  have self := State.transferred_lifted (s := s) (c := c) (h := h) hi hij
  have joined := State.transferred_joined (s := s) (c := c) (h := h) (i := i) hj
  refine ⟨lifted.join (by rw [State.liftMember, State.setSlot_length]; exact hj) freeStill c,
    State.transferred_length, fun d => ?_, fun k q => ?_, fun k => ?_⟩
  · by_cases own : d = c
    · subst own
      have some := List.length_pos_of_mem ready
      rw [State.transferred_ring, RingRec.members_length, RingRec.members_length]
      show (s.rings[d].ready.erase i).length + s.rings[d].filling.toList.length + (s.rings[d].empty ++ [j]).length = _
      rw [List.length_erase_of_mem ready, List.length_append, List.length_singleton]
      omega
    · rw [State.transferred_ring_of_ne own]
  · by_cases here : k = i
    · subst here
      rw [self, was]
      exact ⟨fun e => .inr ⟨rfl, by cases e; rfl⟩, fun e => e.elim (fun e => nomatch e) fun e => by rw [e.2]⟩
    · by_cases there : k = j
      · subst there
        rw [joined, free]
        exact ⟨nofun, fun e => e.elim (fun e => nomatch e) fun e => absurd e.1 here⟩
      · rw [slot k here there]
        exact ⟨.inl, fun e => e.resolve_right fun e => here e.1⟩
  · by_cases here : k = i
    · subst here
      rw [self]
    · by_cases there : k = j
      · subst there
        rw [joined, (core.lawful k hj).pins_of_free free]
      · rw [slot k here there]

theorem State.takeRequest_kept {h : HoldId} {x : Taken} (core : s.PoolCore strict)
    (e : s.takeRequest c h = some (x, t)) :
    x.slot ∈ s.rings[c].ready ∧ t.PoolCore strict ∧ Lifted s t h x.slot := by
  unfold State.takeRequest at e
  split at e
  · cases e
  · rename_i i newest
    have ready : i ∈ s.rings[c].ready := List.mem_of_getLast? newest
    cases free : s.lowestFree with
    | none =>
      rw [State.transfer_none free] at e
      cases e
    | some j =>
      rw [State.transfer_some free] at e
      cases e
      obtain ⟨core', lifted⟩ := State.transferred_kept (h := h) core ready free
      refine ⟨ready, ?_⟩
      split
      · rename_i starving
        have idle : (s.transferred c h i j).rings[c].filling = none := by
          rw [State.transferred_ring]
          exact (State.starved_iff.1 starving).2
        obtain ⟨core'', kept, pins⟩ := State.endStarved_kept core' idle
        exact ⟨core'', lifted.then kept pins⟩
      · exact ⟨core', lifted⟩

/-! ### The hold table's ties -/

/-- A slot is HELD(h) exactly while one entry of hold h's slot list names it (R134). -/
def State.holdTies (s : State) : Prop :=
  (∀ (h : HoldId) x, s.holds.table.get h = some x →
      (x.slots.map HoldSlot.slot).Nodup
        ∧ ∀ i, i ∈ x.slots.map HoldSlot.slot ↔ i < s.pool.slots.length ∧ (s.slot i).disp = .held h)
    ∧ ∀ (h : HoldId) i, i < s.pool.slots.length → s.holds.table.get h = none → (s.slot i).disp ≠ .held h

/-- The slots that a hold's slot list names, none without a hold. -/
def HoldUnit.slotsOf (u : HoldUnit) (h : HoldId) : List Nat :=
  match u.table.get h with
  | some x => x.slots.map HoldSlot.slot
  | none => []

theorem HoldUnit.slotsOf_some {u : HoldUnit} {h : HoldId} {x : Hold} (e : u.table.get h = some x) :
    u.slotsOf h = x.slots.map HoldSlot.slot := by
  unfold HoldUnit.slotsOf
  rw [e]

theorem HoldUnit.slotsOf_none {u : HoldUnit} {h : HoldId} (e : u.table.get h = none) : u.slotsOf h = [] := by
  unfold HoldUnit.slotsOf
  rw [e]

theorem State.holdTies_iff : s.holdTies ↔ ∀ h : HoldId, (s.holds.slotsOf h).Nodup
    ∧ ∀ i, i ∈ s.holds.slotsOf h ↔ i < s.pool.slots.length ∧ (s.slot i).disp = .held h := by
  refine ⟨fun ⟨present, absent⟩ h => ?_, fun all => ⟨fun h x e => ?_, fun h i hi e held => ?_⟩⟩
  · cases e : s.holds.table.get h with
    | none =>
      rw [HoldUnit.slotsOf_none e]
      exact ⟨List.nodup_nil, fun i => ⟨fun k => absurd k List.not_mem_nil, fun k => absurd k.2 (absent h i k.1 e)⟩⟩
    | some x =>
      rw [HoldUnit.slotsOf_some e]
      exact present h x e
  · have := all h
    rwa [HoldUnit.slotsOf_some e] at this
  · have := ((all h).2 i).2 ⟨hi, held⟩
    rw [HoldUnit.slotsOf_none e] at this
    exact absurd this List.not_mem_nil

/-- The ties go by the slot lists, the slots' number and which slots are HELD. -/
theorem State.holdTies_congr (h : s.holdTies) (slots : ∀ k : HoldId, t.holds.slotsOf k = s.holds.slotsOf k)
    (kept : PoolKept s t) : t.holdTies := by
  rw [State.holdTies_iff] at h ⊢
  intro k
  rw [slots]
  refine ⟨(h k).1, fun i => ?_⟩
  rw [(h k).2, kept.length, kept.held]

theorem State.holdTies_lifted {h : HoldId} (ties : s.holdTies) (l : Lifted s t h i) (hi : i < s.pool.slots.length)
    (was : ∀ k, (s.slot i).disp ≠ .held k) (joins : t.holds.slotsOf h = s.holds.slotsOf h ++ [i])
    (others : ∀ k, k ≠ h → t.holds.slotsOf k = s.holds.slotsOf k) : t.holdTies := by
  rw [State.holdTies_iff] at ties ⊢
  intro k
  by_cases own : k = h
  · subst own
    rw [joins]
    refine ⟨(ties k).1.append (List.nodup_singleton i) fun a ha hb => ?_, fun j => ?_⟩
    · rw [List.mem_singleton] at hb
      exact was k (((ties k).2 i).1 (hb ▸ ha)).2
    · rw [List.mem_append, List.mem_singleton, (ties k).2, l.length, l.held]
      exact ⟨fun e => e.elim (fun e => ⟨e.1, .inl e.2⟩) fun e => ⟨e ▸ hi, .inr ⟨e, rfl⟩⟩,
        fun e => e.2.elim (fun d => .inl ⟨e.1, d⟩) fun d => .inr d.1⟩
  · rw [others k own]
    refine ⟨(ties k).1, fun j => ?_⟩
    rw [(ties k).2, l.length, l.held]
    exact ⟨fun e => ⟨e.1, .inl e.2⟩, fun e => ⟨e.1, e.2.resolve_right fun d => own d.2⟩⟩

end

end Sys2Proof.Machine
end

section
/-! Takes, offers, releases and completions of holds under the laws of the pool and the hold table's ties. -/

namespace Sys2Proof.Machine

set_option Elab.async false

/-- The part `t` follows from the lawful part `s`, with the rings' sizes, the slots' number and every pin as before. -/
structure Pooled (strict : Prop) (s t : State) : Prop where
  core : t.PoolCore strict
  ties : s.holdTies → t.holdTies
  length : t.pool.slots.length = s.pool.slots.length
  sizes : ∀ c : Camera, t.rings[c].members.length = s.rings[c].members.length
  pins : PinsKept s t

section
variable {strict : Prop} {s t u : State} {c : Camera} {i : Nat}

theorem Pooled.refl (h : s.PoolCore strict) : Pooled strict s s := ⟨h, id, rfl, fun _ => rfl, .refl s⟩

theorem Pooled.trans (h : Pooled strict s t) (k : Pooled strict t u) : Pooled strict s u :=
  ⟨k.core, k.ties ∘ h.ties, k.length.trans h.length, fun c => (k.sizes c).trans (h.sizes c), h.pins.trans k.pins⟩

theorem Pooled.of_kept (core : t.PoolCore strict) (kept : PoolKept s t) (pins : PinsKept s t)
    (slots : ∀ k : HoldId, t.holds.slotsOf k = s.holds.slotsOf k) : Pooled strict s t :=
  ⟨core, fun h => State.holdTies_congr h slots kept, kept.length, kept.sizes, pins⟩

theorem Effect.pooled {ps : List Piece} (e : Effect ps s t) (h : s.PoolCore strict)
    (hp : Piece.pool ∉ Piece.mem :: .ring :: ps := by decide) (hr : Piece.rings ∉ Piece.mem :: .ring :: ps := by decide)
    (hh : Piece.holds ∉ Piece.mem :: .ring :: ps := by decide) : Pooled strict s t :=
  .of_kept (e.poolCore h hp hr) (e.poolKept hp hr) (e.pinsKept hp) fun k => by rw [e.same .holds hh]

theorem Touches.pooled {ps : List Piece} (e : Touches ps s t) (h : s.PoolCore strict)
    (hp : Piece.pool ∉ ps := by decide) (hr : Piece.rings ∉ ps := by decide) (hh : Piece.holds ∉ ps := by decide) :
    Pooled strict s t :=
  .of_kept (h.congr (e.same .pool hp) (e.same .rings hr)) (.of_same (e.same .pool hp) (e.same .rings hr))
    (.of_same (e.same .pool hp)) fun k => by rw [e.same .holds hh]

theorem Pooled.foldl {α : Type} {f : State → α → State}
    (h : ∀ u x, u.PoolCore strict → Pooled strict u (f u x)) (l : List α) {s : State} (core : s.PoolCore strict) :
    Pooled strict s (l.foldl f s) := by
  induction l generalizing s with
  | nil => exact .refl core
  | cons x l ih => exact (h s x core).trans (ih (h s x core).core)

theorem Pooled.thenFoldl {α : Type} {f : State → α → State} (before : Pooled strict s t)
    (h : ∀ u x, u.PoolCore strict → Pooled strict u (f u x)) (l : List α) : Pooled strict s (l.foldl f t) :=
  before.trans (.foldl h l before.core)

/-! ### The hold table's slot lists -/

theorem HoldUnit.slotsOf_upd {v w : HoldUnit} {h : HoldId} {x : Option Hold} (table : w.table = upd v.table h x)
    (k : HoldId) : w.slotsOf k = if k = h then (x.map fun y => y.slots.map HoldSlot.slot).getD [] else v.slotsOf k := by
  unfold HoldUnit.slotsOf
  rw [table]
  by_cases own : k = h
  · subst own
    rw [upd_get_self, if_pos rfl]
    cases x <;> rfl
  · rw [upd_get_of_ne _ _ own, if_neg own]

/-- A hold's new record with the same slot list. -/
theorem HoldUnit.slotsOf_same {v w : HoldUnit} {h : HoldId} {x y : Hold} (was : v.table.get h = some x)
    (table : w.table = upd v.table h (some y)) (slots : y.slots = x.slots) (k : HoldId) : w.slotsOf k
      = v.slotsOf k := by
  rw [HoldUnit.slotsOf_upd table]
  split
  · rename_i own
    rw [own, HoldUnit.slotsOf_some was]
    exact congrArg (List.map HoldSlot.slot) slots
  · rfl

theorem State.collectingHold_present {h : HoldId} {x : Hold} (e : s.collectingHold c = some (h, x)) :
    s.holds.table.get h = some x := by
  unfold State.collectingHold at e
  obtain ⟨k, -, found⟩ := List.exists_of_findSome?_eq_some e
  split at found
  · rename_i y present
    split at found
    · cases found
      exact present
    · cases found
  · cases found

theorem State.completeHold_table (s : State) (h : HoldId) (x : Hold) (cause : HoldCause) (short : Bool) :
    (s.completeHold h x cause short).holds.table = upd s.holds.table h (some (x.completed cause short)) := by
  unfold State.completeHold
  rw [State.emit_holds]
  rfl

theorem State.completeHold_pooled (core : s.PoolCore strict) {h : HoldId} {x : Hold}
  (present : s.holds.table.get h = some x)
    (cause : HoldCause) (short : Bool) : Pooled strict s (s.completeHold h x cause short) := by
  have e := s.completeHold_effect h x cause short
  exact .of_kept (e.poolCore core) e.poolKept e.pinsKept
    (HoldUnit.slotsOf_same present (s.completeHold_table h x cause short) rfl)

theorem State.completeShort_pooled (core : s.PoolCore strict) (which : Hold → Bool) (cause : HoldCause) :
    Pooled strict s (s.completeShort which cause) := by
  unfold State.completeShort
  refine .foldl (fun u h core => ?_) _ core
  split
  · rename_i x present
    split
    · exact State.completeHold_pooled core present _ _
    · exact .refl core
  · exact .refl core

/-! ### Takes -/

theorem State.emptyPlace_empty {h : HoldId} (e : s.emptyPlace = some h) : s.holds.table.get h = none := by
  have := List.find?_some e
  simpa using this

theorem State.makeHold_pooled {h : HoldId} {x : Taken} (core : t.PoolCore strict) (l : Lifted s t h x.slot)
    (table : t.holds = s.holds) (none : s.holds.table.get h = none) (ready : x.slot ∈ s.rings[c].ready)
    (was : s.PoolCore strict) (o : Origin) (post : Nat) : Pooled strict s (t.makeHold h o c post x).1 := by
  have e := t.makeHold_effect h o c post x
  have made : (t.makeHold h o c post x).1.holds.table = upd t.holds.table h
      (some (newHold o c t.time post x (decide (t.cadence[c].state = .stale)))) := by
    unfold State.makeHold
    dsimp only
    split
    · rw [State.emit_holds, State.emit_holds]
      rfl
    · rw [State.emit_holds]
      rfl
  obtain ⟨hi, disp⟩ := was.ready ready
  have lifted := l.then e.poolKept e.pinsKept
  refine ⟨e.poolCore core, fun ties => State.holdTies_lifted ties lifted hi
    (fun k d => nomatch disp.symm.trans d) ?_ ?_,
    lifted.length, lifted.sizes, lifted.pins⟩
  · rw [HoldUnit.slotsOf_upd made, if_pos rfl, HoldUnit.slotsOf_none none]
    rfl
  · intro k own
    rw [HoldUnit.slotsOf_upd made, if_neg own, table]

theorem State.take_pooled (core : s.PoolCore strict) (o : Origin) (c : Camera) (n : Nat) :
    Pooled strict s (s.take o c n).1 := by
  have refuse : ∀ reason, Pooled strict s (s.refuseTake o c n reason).1 := fun _ => (Effect.emit s _).pooled core
  unfold State.take
  split
  · exact refuse _
  · rename_i h place
    split
    · exact refuse _
    · split
      · exact refuse _
      · split
        · rename_i x u request
          obtain ⟨ready, core', l⟩ := State.takeRequest_kept core request
          exact State.makeHold_pooled core' l ((State.takeRequest_effect request).same .holds)
            (State.emptyPlace_empty place) ready core o n
        · exact refuse _

/-- Step 3 of an acceptance, with the frame in READY member `i`. -/
theorem State.offerFrame_pooled (core : s.PoolCore strict) (ready : i ∈ s.rings[c].ready) :
    Pooled strict s (s.offerFrame c i) := by
  cases hx : s.collectingHold c with
  | none =>
    rw [State.offerFrame_none hx]
    exact .refl core
  | some found =>
    obtain ⟨h, x⟩ := found
    have present := State.collectingHold_present hx
    cases free : s.lowestFree with
    | none =>
      rw [State.offerFrame_short hx free]
      exact State.completeHold_pooled core present _ _
    | some j =>
      obtain ⟨core', l⟩ := State.transferred_kept (h := h) core ready free
      obtain ⟨hi, disp⟩ := core.ready ready
      have holds : (s.transferred c h i j).holds = s.holds := State.transferred_effect.same .holds
      rw [State.offerFrame_joins hx free]
      have joins : ∀ v, Effect [.holds] (s.transferred c h i j) v → ∀ y : Hold,
          y.slots = (x.withPost ⟨i, s.stampOf i⟩).slots → v.holds.table = upd s.holds.table h (some y) →
          Pooled strict s v := fun v e y slots table => by
        have lifted := l.then e.poolKept e.pinsKept
        refine ⟨e.poolCore core', fun ties => State.holdTies_lifted ties lifted hi
          (fun k d => nomatch disp.symm.trans d) ?_ fun k own => ?_, lifted.length, lifted.sizes, lifted.pins⟩
        · rw [HoldUnit.slotsOf_upd table, if_pos rfl, HoldUnit.slotsOf_some present]
          show y.slots.map HoldSlot.slot = _
          rw [slots]
          exact List.map_append
        · rw [HoldUnit.slotsOf_upd table, if_neg own]
      split
      · exact joins _ (State.completeHold_effect _ h _ _ _)
          ((x.withPost ⟨i, s.stampOf i⟩).completed .count false) rfl (by rw [State.completeHold_table, holds])
      · exact joins _ (State.setHold_effect _ h _) _ rfl (by rw [State.setHold_holds, holds])

/-! ### Releases -/

theorem SlotRec.released_disp (r : SlotRec) (h : HoldId) : (r.released h).disp =
    if r.disp = .held h then (if r.pins = 0 then .free else .retiring) else r.disp := by
  unfold SlotRec.released
  split
  · split <;> rfl
  · rfl

theorem SlotRec.released_pins (r : SlotRec) (h : HoldId) : (r.released h).pins = r.pins := by
  unfold SlotRec.released
  split
  · split
    · rename_i zero
      exact zero.symm
    · rfl
  · rfl

theorem SlotRec.Lawful.released {r : SlotRec} (lawful : r.Lawful strict) (h : HoldId) :
  (r.released h).Lawful strict := by
  unfold SlotRec.released
  split
  · split
    · exact SlotRec.fresh_lawful
    · rename_i some
      exact ⟨some, fun _ => ⟨nofun, fun k => k.elim (fun ⟨_, e⟩ => nomatch e) fun ⟨_, e⟩ => nomatch e⟩⟩
  · exact lawful

theorem State.releaseHold_pooled (core : s.PoolCore strict) (h : HoldId) (x : Hold) :
    Pooled strict s (s.releaseHold h x) := by
  have slot := s.slot_releaseHold h x
  obtain ⟨-, -, length⟩ := s.releaseHold_geometry h x
  have rings : (s.releaseHold h x).rings = s.rings := (s.releaseHold_effect h x).same .rings
  have table : (s.releaseHold h x).holds.table = upd s.holds.table h none := by
    unfold State.releaseHold
    rw [State.emit_holds]
    rfl
  have ring (j : Nat) (d : Camera) (m : MemberState) :
      ((s.slot j).released h).disp = .ring d m ↔ (s.slot j).disp = .ring d m := by
    rw [SlotRec.released_disp]
    split
    · rename_i held
      rw [held]
      split <;> exact ⟨nofun, nofun⟩
    · exact Iff.rfl
  have held (j : Nat) (k : HoldId) :
      ((s.slot j).released h).disp = .held k ↔ (s.slot j).disp = .held k ∧ k ≠ h := by
    rw [SlotRec.released_disp]
    split
    · rename_i own
      rw [own]
      split
      · exact ⟨nofun, fun e => absurd (by cases e.1; rfl) e.2⟩
      · exact ⟨nofun, fun e => absurd (by cases e.1; rfl) e.2⟩
    · rename_i other
      exact ⟨fun e => ⟨e, fun own => other (own ▸ e)⟩, fun e => e.1⟩
  refine ⟨⟨fun d j m => ?_, fun d => ?_, fun j hj => ?_⟩, fun ties => ?_, length, fun d => ?_, fun j => ?_⟩
  · rw [length, rings, slot, ring]
    exact core.members d j m
  · rw [rings]
    exact core.nodup d
  · rw [slot]
    exact (core.lawful j (length ▸ hj)).released h
  · rw [State.holdTies_iff] at ties ⊢
    intro k
    rw [HoldUnit.slotsOf_upd table]
    by_cases own : k = h
    · rw [if_pos own]
      refine ⟨List.nodup_nil, fun j => ⟨fun e => absurd e List.not_mem_nil, fun e => ?_⟩⟩
      rw [slot, held] at e
      exact absurd own e.2.2
    · rw [if_neg own]
      refine ⟨(ties k).1, fun j => ?_⟩
      rw [(ties k).2, length, slot, held]
      exact and_congr_right fun _ => ⟨fun e => ⟨e, own⟩, fun e => e.1⟩
  · rw [rings]
  · rw [slot, SlotRec.released_pins]

/-! ### The blocks that take -/

theorem State.sampleLines_pooled (core : s.PoolCore strict) : Pooled strict s s.sampleLines := by
  unfold State.sampleLines State.sampleTriggers
  refine .thenFoldl (Effect.pooled (((s.withDoorUnit_effect _).trans (State.sampleStates_effect _)).trans
    (State.sampleNotices_effect _ _)) core) (fun u d core => ?_) _
  split
  · exact u.take_pooled core _ _ _
  · exact .refl core

theorem State.sampleInstant_pooled (core : s.PoolCore strict) : Pooled strict s s.sampleInstant := by
  unfold State.sampleInstant
  split
  · refine Pooled.trans ((s.withDoorUnit_effect _).pooled core) (State.sampleLines_pooled ?_)
    exact (s.withDoorUnit_effect _).poolCore core
  · exact .refl core

theorem State.debounceChanged_pooled (core : s.PoolCore strict) : Pooled strict s s.debounceChanged := by
  unfold State.debounceChanged
  split
  · refine Pooled.trans ((s.withDoorUnit_effect _).pooled core) (State.sampleLines_pooled ?_)
    exact (s.withDoorUnit_effect _).poolCore core
  · exact .refl core

theorem State.setupDoors_pooled (core : s.PoolCore strict) (old new : SetupRec) :
    Pooled strict s (s.setupDoors old new) := by
  have redescribed : Pooled strict s
      (if levelActive s.doorUnit.reverse.accepted then s.redescribe .reverse old.reverse new.reverse else s) := by
    split
    · exact (s.redescribe_effect _ _ _).pooled core
    · exact .refl core
  unfold State.setupDoors
  dsimp only
  split
  · exact redescribed.trans (State.debounceChanged_pooled redescribed.core)
  · exact redescribed

theorem State.idleHoldTake_pooled (core : s.PoolCore strict) (c n : Byte) : Pooled strict s (s.idleHoldTake c n) := by
  unfold State.idleHoldTake
  split
  · exact (s.finishPlain_effect _ _ _).pooled core
  · split
    · exact (s.finishPlain_effect _ _ _).pooled core
    · dsimp only
      have taken := fun c => s.take_pooled core .manual c n.toNat
      split
      · exact (taken _).trans ((State.finish_effect _ _ _ _ _ _).pooled (taken _).core)
      · exact (taken _).trans ((State.finishPlain_effect _ _ _ _).pooled (taken _).core)

theorem State.idleHoldRelease_pooled (core : s.PoolCore strict) (h : Byte) :
    Pooled strict s (s.idleHoldRelease h) := by
  unfold State.idleHoldRelease
  split
  · exact (s.finishPlain_effect _ _ _).pooled core
  · split
    · exact (s.finishPlain_effect _ _ _).pooled core
    · have released := s.releaseHold_pooled core
      exact (released _ _).trans ((State.finishPlain_effect _ _ _ _).pooled (released _ _).core)

/-- HOLD_LOCK changes no slot list. -/
theorem State.idleHoldLock_pooled (core : s.PoolCore strict) : Pooled strict s s.idleHoldLock :=
  Pooled.trans (t := { s with holds := { s.holds with lock := true } })
    (.of_kept (core.congr rfl rfl) (.of_same rfl rfl) (.of_same rfl) fun _ => rfl)
    ((State.finishPlain_effect _ _ _ _).pooled (core.congr rfl rfl))

theorem State.idleCommand_pooled (core : s.PoolCore strict) (c : Command) : Pooled strict s (s.idleCommand c) := by
  cases c with
  | load t f n => exact (s.idleLoad_effect t f n).pooled core
  | commit => exact (s.finishPlain_effect _ _ _).pooled core
  | abortClear => exact (s.finishPlain_effect _ _ _).pooled core
  | learn m => exact (s.idleLearn_effect m).pooled core
  | learnSuspend m => exact (s.idleLearnSuspend_effect m).pooled core
  | learnResume m => exact (s.idleLearnResume_effect m).pooled core
  | spotSet i l v => exact (s.idleSpotSet_effect i l v).pooled core
  | spotClear i => exact (s.idleSpotClear_effect i).pooled core
  | holdTake c n => exact s.idleHoldTake_pooled core c n
  | holdRelease h => exact s.idleHoldRelease_pooled core h
  | holdLock => exact s.idleHoldLock_pooled core
  | snapshot => exact s.idleSnapshot_effect.pooled core
  | restart => exact .refl core
  | undefinedCode x => exact (s.finishPlain_effect _ _ _).pooled core

end

end Sys2Proof.Machine
end

section
/-! Rings built and dissolved under the laws of the pool (R4, R6, R7). -/

namespace Sys2Proof.Machine

set_option Elab.async false

/-! ### Counting free slots -/

/-- A count along the slot table is a count along its indices. -/
theorem State.countP_slots (s : State) (p : SlotRec → Bool) :
    s.pool.slots.countP p = (List.range s.pool.slots.length).countP fun i => p (s.slot i) := by
  have slots : s.pool.slots = (List.range s.pool.slots.length).map s.slot := by
    refine List.ext_getElem (by simp) fun i hi _ => ?_
    rw [List.getElem_map, List.getElem_range, State.slot_eq_getElem hi]
  conv_lhs => rw [slots]
  rw [List.countP_map]
  rfl

theorem State.freeCount_eq (s : State) :
    s.freeCount = (List.range s.pool.slots.length).countP fun i => decide ((s.slot i).disp = .free) :=
  s.countP_slots _

/-- Distinct free slots are at most as many as the free count says. -/
theorem State.length_le_freeCount {s : State} {l : List Nat} (nodup : l.Nodup)
    (free : ∀ i ∈ l, i < s.pool.slots.length ∧ (s.slot i).disp = .free) : l.length ≤ s.freeCount := by
  rw [State.freeCount_eq, List.countP_eq_length_filter]
  refine (nodup.subperm fun i hi => ?_).length_le
  rw [List.mem_filter, List.mem_range, decide_eq_true_iff]
  exact free i hi

/-- The FREE slots, in ascending index. -/
def State.freeSlots (s : State) : List Nat :=
  (List.range s.pool.slots.length).filter fun i => decide ((s.slot i).disp = .free)

theorem State.mem_freeSlots {s : State} {i : Nat} :
    i ∈ s.freeSlots ↔ i < s.pool.slots.length ∧ (s.slot i).disp = .free := by
  unfold State.freeSlots
  rw [List.mem_filter, List.mem_range, decide_eq_true_iff]

theorem State.nodup_freeSlots (s : State) : s.freeSlots.Nodup := List.nodup_range.filter _

theorem State.head_freeSlots (s : State) : s.freeSlots.head? = s.lowestFree := by
  unfold State.freeSlots
  rw [List.head?_filter]
  cases lowest : s.lowestFree with
  | none =>
    rw [List.find?_eq_none]
    intro i hi
    rw [decide_eq_true_iff]
    exact State.lowestFree_eq_none_iff.1 lowest i (List.mem_range.1 hi)
  | some i =>
    obtain ⟨hi, free, first⟩ := State.lowestFree_eq_some_iff.1 lowest
    rw [List.find?_range_eq_some]
    exact ⟨decide_eq_true free, List.mem_range.2 hi, fun k hk => by simpa using first k hk⟩

/-- The FREE slots that are left when some are taken. -/
theorem State.freeSlots_taken {s t : State} {is : List Nat} (length : t.pool.slots.length = s.pool.slots.length)
    (slots : ∀ k, (t.slot k).disp = .free ↔ (s.slot k).disp = .free ∧ k ∉ is) :
    t.freeSlots = s.freeSlots.filter fun k => decide (k ∉ is) := by
  unfold State.freeSlots
  rw [List.filter_filter, length]
  refine List.filter_congr fun k _ => ?_
  rw [Bool.eq_iff_iff, Bool.and_eq_true, decide_eq_true_iff, decide_eq_true_iff, decide_eq_true_iff, slots, and_comm]

theorem filter_notMem_take {α : Type} [DecidableEq α] {l : List α} (nodup : l.Nodup) (n : Nat) :
    (l.filter fun k => decide (k ∉ l.take n)) = l.drop n := by
  have apart : (l.take n ++ l.drop n).Nodup := by rwa [List.take_append_drop]
  have disjoint := (List.nodup_append.1 apart).2.2
  conv_lhs => rw [← List.take_append_drop n l, List.filter_append]
  rw [List.take_append_drop, List.filter_eq_nil_iff.2 fun a ha => by simpa using ha, List.nil_append]
  exact List.filter_eq_self.2 fun a ha => decide_eq_true fun taken => disjoint a taken a ha rfl

/-! ### Claims -/

/-- What camera `c` has claimed: the slots `is`, each FREE before, as EMPTY slot records. -/
structure Claimed (s t : State) (c : Camera) (n : Nat) (is : List Nat) : Prop where
  lowest : is = s.freeSlots.take n
  count : is.length = min n s.freeCount
  nodup : is.Nodup
  free : ∀ i ∈ is, i < s.pool.slots.length ∧ (s.slot i).disp = .free
  slots : ∀ k, t.slot k = if k ∈ is then ⟨.ring c .empty, 0, none⟩ else s.slot k
  length : t.pool.slots.length = s.pool.slots.length
  rings : t.rings = s.rings
  rest : t.freeCount + is.length = s.freeCount

theorem State.claimSlots_claimed (c : Camera) (n : Nat) (s : State) :
    Claimed s (s.claimSlots c n).2 c n (s.claimSlots c n).1 := by
  induction n generalizing s with
  | zero => exact ⟨rfl, (Nat.zero_min _).symm, List.nodup_nil, fun _ h => absurd h List.not_mem_nil,
      fun k => (if_neg List.not_mem_nil).symm, rfl, rfl, rfl⟩
  | succ n ih =>
    unfold State.claimSlots
    cases lowest : s.lowestFree with
    | none =>
      have claim : s.claimSlot c = none := by
        unfold State.claimSlot
        rw [lowest]
      rw [claim]
      have zero := State.freeCount_eq_zero_iff.2 lowest
      have none : s.freeSlots = [] := List.head?_eq_none_iff.1 (s.head_freeSlots.trans lowest)
      exact ⟨by rw [none, List.take_nil], by rw [zero, Nat.min_zero]; rfl, List.nodup_nil,
        fun _ h => absurd h List.not_mem_nil,
        fun k => (if_neg List.not_mem_nil).symm, rfl, rfl, rfl⟩
    | some i =>
      have claim : s.claimSlot c = some (i, s.setSlot i ⟨.ring c .empty, 0, none⟩) :=
        State.claimSlot_eq_some_iff.2 ⟨lowest, rfl⟩
      obtain ⟨hi, free, -⟩ := State.lowestFree_eq_some_iff.1 lowest
      have taken := State.freeCount_setSlot (r := ⟨.ring c .empty, 0, none⟩) hi free nofun
      have left : (s.setSlot i ⟨.ring c .empty, 0, none⟩).freeSlots = s.freeSlots.tail := by
        rw [State.freeSlots_taken (is := s.freeSlots.take 1) (State.setSlot_length _ _ _) fun k => ?_,
          filter_notMem_take s.nodup_freeSlots, List.drop_one]
        rw [List.take_one, s.head_freeSlots, lowest, Option.toList_some, List.mem_singleton]
        by_cases here : k = i
        · subst here
          rw [s.slot_setSlot_self _ hi]
          exact ⟨nofun, fun e => absurd rfl e.2⟩
        · rw [s.slot_setSlot_of_ne _ here]
          exact ⟨fun e => ⟨e, here⟩, fun e => e.1⟩
      have first : s.freeSlots = i :: s.freeSlots.tail :=
        (List.cons_head?_tail (s.head_freeSlots.trans lowest)).symm
      obtain ⟨least, count, nodup, frees, slots, length, rings, rest⟩ := ih (s.setSlot i ⟨.ring c .empty, 0, none⟩)
      rw [left] at least
      rw [claim]
      dsimp only
      generalize (s.setSlot i ⟨.ring c .empty, 0, none⟩).claimSlots c n = x at *
      have new : i ∉ x.1 := fun hx => by
        have := (frees i hx).2
        rw [s.slot_setSlot_self _ hi] at this
        exact nomatch this
      refine ⟨?_, ?_, List.nodup_cons.2 ⟨new, nodup⟩, fun k hk => ?_, fun k => ?_,
        length.trans (State.setSlot_length _ _ _), rings, ?_⟩
      · rw [first, List.take_succ_cons, least]
      · rw [List.length_cons, count]
        omega
      · rcases List.mem_cons.1 hk with rfl | hk
        · exact ⟨hi, free⟩
        · obtain ⟨bound, disp⟩ := frees k hk
          rw [State.setSlot_length] at bound
          rw [s.slot_setSlot_of_ne _ fun e => new (by rw [← e]; exact hk)] at disp
          exact ⟨bound, disp⟩
      · rw [slots k]
        by_cases here : k = i
        · subst here
          rw [if_neg new, s.slot_setSlot_self _ hi, if_pos (List.mem_cons_self ..)]
        · rw [s.slot_setSlot_of_ne _ here]
          exact if_congr (by simp [here]) rfl rfl
      · rw [List.length_cons]
        omega

/-! ### A ring is built -/

/-- A ring of camera `c`, which had none, has been built of at most `n` slots. -/
structure RingBuilt (strict : Prop) (s t : State) (c : Camera) (n : Nat) : Prop where
  core : t.PoolCore strict
  length : t.pool.slots.length = s.pool.slots.length
  size : t.rings[c].members.length = min n s.freeCount
  others : ∀ d : Camera, d ≠ c → t.rings[d] = s.rings[d]
  held : ∀ i (k : HoldId), (t.slot i).disp = .held k ↔ (s.slot i).disp = .held k
  pins : PinsKept s t
  rest : t.freeCount + min n s.freeCount = s.freeCount
  members : ∀ i (d : Camera) m, d ≠ c → ((t.slot i).disp = .ring d m ↔ (s.slot i).disp = .ring d m)

section
variable {strict : Prop} {s : State} {c : Camera}

/-- The record of a ring built of the slots `is`. -/
def RingRec.built (r : RingRec) (is : List Nat) : RingRec :=
  { r with ready := [], filling := is.head?, empty := is.tail, phase := .waiting, tornMark := false, writes := 0 }

theorem RingRec.mem_built {r : RingRec} {is : List Nat} {j : Nat} {m : MemberState} :
    (j, m) ∈ (r.built is).members ↔
      (m = .filling ∧ is.head? = some j) ∨ (m = .empty ∧ j ∈ is.tail) := by
  cases m with
  | ready =>
    rw [RingRec.mem_members_ready]
    exact ⟨fun h => absurd h List.not_mem_nil, fun h => h.elim (fun h => nomatch h.1) fun h => nomatch h.1⟩
  | filling =>
    rw [RingRec.mem_members_filling]
    exact ⟨fun h => .inl ⟨rfl, h⟩, fun h => h.elim (fun h => h.2) fun h => nomatch h.1⟩
  | empty =>
    rw [RingRec.mem_members_empty]
    exact ⟨fun h => .inr ⟨rfl, h⟩, fun h => h.elim (fun h => nomatch h.1) fun h => h.2⟩

theorem RingRec.built_fst (r : RingRec) (is : List Nat) : (r.built is).members.map Prod.fst = is := by
  rw [RingRec.members_map_fst]
  cases is <;> rfl

/-- The member state of a claimed slot: the first FILLING, the others EMPTY. -/
theorem State.buildRing_slots (s : State) (c : Camera) (n : Nat) :
    ∃ is u, Claimed s u c n is ∧ (s.buildRing c n).rings = upd s.rings c (s.rings[c].built is)
      ∧ (s.buildRing c n).pool.slots.length = s.pool.slots.length
      ∧ ∀ k, (s.buildRing c n).slot k =
          if is.head? = some k then ⟨.ring c .filling, 0, none⟩ else u.slot k := by
  have claimed := s.claimSlots_claimed c n
  unfold State.buildRing
  generalize s.claimSlots c n = x at claimed ⊢
  obtain ⟨is, u⟩ := x
  refine ⟨is, u, claimed, ?_⟩
  cases is with
  | nil =>
    refine ⟨?_, claimed.length, fun k => (if_neg nofun).symm⟩
    dsimp only
    rw [State.setRing_rings, claimed.rings]
    rfl
  | cons i is =>
    have hi := (claimed.free i (List.mem_cons_self ..)).1
    rw [← claimed.length] at hi
    refine ⟨?_, (State.setSlot_length _ _ _).trans claimed.length, fun k => ?_⟩
    · dsimp only
      rw [State.setSlot_rings, State.setRing_rings, claimed.rings]
      rfl
    · dsimp only
      by_cases here : k = i
      · subst here
        rw [if_pos (List.head?_cons ..), State.slot_setSlot_self]
        exact hi
      · rw [if_neg fun e => here (Option.some.inj (List.head?_cons.symm.trans e)).symm,
        State.slot_setSlot_of_ne _ _ here, State.slot_setRing]

theorem State.buildRing_built (h : s.PoolCore strict) (none : s.rings[c].members = []) (n : Nat) :
    RingBuilt strict s (s.buildRing c n) c n := by
  obtain ⟨is, u, claimed, rings, length, slots⟩ := s.buildRing_slots c n
  generalize s.buildRing c n = t at rings length slots
  have own : t.rings[c] = s.rings[c].built is := by rw [rings, upd_getElem_self]
  have others (d : Camera) (hd : d ≠ c) : t.rings[d] = s.rings[d] := by rw [rings, upd_getElem_of_ne _ _ hd]
  have taken (k : Nat) (hk : k ∈ is) : ∃ m, m ≠ .ready ∧ t.slot k = ⟨.ring c m, 0, .none⟩
      ∧ (s.slot k).disp = .free ∧ k < s.pool.slots.length := by
    obtain ⟨bound, free⟩ := claimed.free k hk
    by_cases first : is.head? = some k
    · exact ⟨.filling, by decide, by rw [slots, if_pos first], free, bound⟩
    · exact ⟨.empty, by decide, by rw [slots, if_neg first, claimed.slots, if_pos hk], free, bound⟩
  have still (k : Nat) (hk : k ∉ is) : t.slot k = s.slot k := by
    rw [slots, if_neg fun e => hk (List.mem_of_head? e), claimed.slots, if_neg hk]
  have outside (i : Nat) (m : MemberState) : ¬(i < s.pool.slots.length ∧ (s.slot i).disp = .ring c m) := fun e => by
    have := (h.members c i m).2 e
    rw [none] at this
    exact absurd this List.not_mem_nil
  have elsewhere (i : Nat) (d : Camera) (m : MemberState) (hd : d ≠ c) :
      (t.slot i).disp = .ring d m ↔ (s.slot i).disp = .ring d m := by
    by_cases hi : i ∈ is
    · obtain ⟨m', -, slot, free, -⟩ := taken i hi
      rw [slot, free]
      exact ⟨fun e => by cases e; exact absurd rfl hd, nofun⟩
    · rw [still i hi]
  refine ⟨⟨fun d j m => ?_, fun d => ?_, fun j hj => ?_⟩, length, ?_, others, fun i k => ?_, fun k => ?_, ?_, elsewhere⟩
  · rw [length]
    by_cases here : d = c
    · subst here
      rw [own, RingRec.mem_built]
      by_cases hj : j ∈ is
      · obtain ⟨-, bound⟩ := (taken j hj).choose_spec.2.2
        rw [slots, claimed.slots, if_pos hj]
        by_cases first : is.head? = some j
        · rw [if_pos first]
          have notRest : j ∉ is.tail := by
            cases is with
            | nil => exact nomatch first
            | cons i is =>
              cases first
              exact (List.nodup_cons.1 claimed.nodup).1
          exact ⟨fun e => e.elim (fun e => ⟨bound, by rw [e.1]⟩) fun e => absurd e.2 notRest,
            fun e => .inl ⟨by cases e.2; rfl, first⟩⟩
        · rw [if_neg first]
          have later : j ∈ is.tail := by
            cases is with
            | nil => exact nomatch hj
            | cons i is => exact (List.mem_cons.1 hj).resolve_left fun e => first (by rw [e]; rfl)
          exact ⟨fun e => e.elim (fun e => absurd e.2 first) fun e => ⟨bound, by rw [e.1]⟩,
            fun e => .inr ⟨by cases e.2; rfl, later⟩⟩
      · rw [still j hj]
        exact ⟨fun e => e.elim (fun e => absurd (List.mem_of_head? e.2) hj)
          fun e => absurd (List.mem_of_mem_tail e.2) hj, fun e => absurd e (outside j m)⟩
    · rw [others d here, h.members d j m, elsewhere j d m here]
  · by_cases here : d = c
    · subst here
      rw [own, RingRec.built_fst]
      exact claimed.nodup
    · rw [others d here]
      exact h.nodup d
  · by_cases hi : j ∈ is
    · obtain ⟨m, hm, slot, -⟩ := taken j hi
      rw [slot]
      exact SlotRec.member_lawful c hm
    · rw [still j hi]
      exact h.lawful j (length ▸ hj)
  · rw [own, ← claimed.count]
    conv_rhs => rw [← s.rings[c].built_fst is]
    rw [List.length_map]
  · by_cases hi : i ∈ is
    · obtain ⟨m, -, slot, free, -⟩ := taken i hi
      rw [slot, free]
      exact ⟨nofun, nofun⟩
    · rw [still i hi]
  · by_cases hk : k ∈ is
    · obtain ⟨m, -, slot, free, bound⟩ := taken k hk
      rw [slot, (h.lawful k bound).pins_of_free free]
    · rw [still k hk]
  · have same : t.freeCount = u.freeCount := by
      rw [State.freeCount_eq, State.freeCount_eq, length, claimed.length]
      refine List.countP_congr fun k _ => ?_
      rw [slots]
      by_cases first : is.head? = some k
      · rw [if_pos first, claimed.slots, if_pos (List.mem_of_head? first)]
        simp
      · rw [if_neg first]
    rw [← claimed.count, same, claimed.rest]

end

end Sys2Proof.Machine
end

section
/-! CAMERA records under the laws of the pool (O59): enables, disables and the running free count of R163. -/

namespace Sys2Proof.Machine

set_option Elab.async false

/-! ### What a camera's enable or disable does to the pool -/

/-- Camera `c`'s ring has been built, dissolved or left: it has `n` members, `free` slots are FREE, and nothing of
another camera, a hold or a pin has changed. -/
structure CameraChanged (strict : Prop) (c : Camera) (n free : Nat) (s t : State) : Prop where
  core : t.PoolCore strict
  length : t.pool.slots.length = s.pool.slots.length
  size : t.rings[c].members.length = n
  others : ∀ d : Camera, d ≠ c → t.rings[d].members.length = s.rings[d].members.length
  held : ∀ i (k : HoldId), (t.slot i).disp = .held k ↔ (s.slot i).disp = .held k
  pins : PinsKept s t
  slotsOf : ∀ k : HoldId, t.holds.slotsOf k = s.holds.slotsOf k
  free : t.freeCount = free
  freed : ∀ d : Camera, d ≠ c → t.freedByDisable d = s.freedByDisable d

/-- Pool, rings and the holds' slot lists stand. -/
structure PoolSame (s t : State) : Prop where
  pool : t.pool = s.pool
  rings : t.rings = s.rings
  slotsOf : ∀ k : HoldId, t.holds.slotsOf k = s.holds.slotsOf k

theorem PoolSame.trans {s t u : State} (h : PoolSame s t) (k : PoolSame t u) : PoolSame s u :=
  ⟨k.pool.trans h.pool, k.rings.trans h.rings, fun x => (k.slotsOf x).trans (h.slotsOf x)⟩

theorem Effect.poolSame {ps : List Piece} {s t : State} (e : Effect ps s t)
    (hp : Piece.pool ∉ Piece.mem :: .ring :: ps := by decide) (hr : Piece.rings ∉ Piece.mem :: .ring :: ps := by decide)
    (hh : Piece.holds ∉ Piece.mem :: .ring :: ps := by decide) : PoolSame s t :=
  ⟨e.same .pool hp, e.same .rings hr, fun k => by rw [e.same .holds hh]⟩

section
variable {strict : Prop} {s t u : State} {c : Camera} {n free : Nat}

theorem State.freeCount_congr (pool : t.pool = s.pool) : t.freeCount = s.freeCount := by
  unfold State.freeCount
  rw [pool]

theorem State.freedByDisable_congr (pool : t.pool = s.pool) (d : Camera) : t.freedByDisable d = s.freedByDisable d := by
  unfold State.freedByDisable
  rw [pool]

theorem CameraChanged.then (h : CameraChanged strict c n free s t) (k : PoolSame t u) :
    CameraChanged strict c n free s u := by
  obtain ⟨pool, rings, slotsOf⟩ := k
  refine ⟨h.core.congr pool rings, by rw [pool]; exact h.length, by rw [rings]; exact h.size,
    by rw [rings]; exact h.others, fun i k => by rw [State.slot_congr pool]; exact h.held i k,
    h.pins.trans (.of_same pool), fun k => (slotsOf k).trans (h.slotsOf k), (State.freeCount_congr pool).trans h.free,
    fun d hd => (State.freedByDisable_congr pool d).trans (h.freed d hd)⟩

theorem CameraChanged.from (h : CameraChanged strict c n free t u) (k : PoolSame s t) :
    CameraChanged strict c n free s u := by
  obtain ⟨pool, rings, slotsOf⟩ := k
  refine ⟨h.core, by rw [h.length, pool], h.size, fun d hd => by rw [h.others d hd, rings],
    fun i k => by rw [h.held, State.slot_congr pool], (PinsKept.of_same pool).trans h.pins,
    fun k => (h.slotsOf k).trans (slotsOf k), h.free,
    fun d hd => (h.freed d hd).trans (State.freedByDisable_congr pool d)⟩

theorem CameraChanged.left (core : s.PoolCore strict) (k : PoolSame s t) :
    CameraChanged strict c s.rings[c].members.length s.freeCount s t :=
  CameraChanged.then (t := s) ⟨core, rfl, rfl, fun _ _ => rfl, fun _ _ => Iff.rfl, .refl s, fun _ => rfl, rfl,
    fun _ _ => rfl⟩ k

/-! ### Enables -/

/-- R7 makes this slot FREE when camera `d` is disabled. -/
def SlotRec.freedBy (r : SlotRec) (d : Camera) : Bool :=
  match r.disp with
  | .ring c _ => decide (c = d) && decide (r.pins = 0)
  | .free => false
  | .held _ => false
  | .retiring => false

theorem SlotRec.freedBy_iff {r : SlotRec} {d : Camera} :
    r.freedBy d = true ↔ (∃ m, r.disp = .ring d m) ∧ r.pins = 0 := by
  unfold SlotRec.freedBy
  cases r.disp with
  | ring c m => simp
  | free => simp
  | held k => simp
  | retiring => simp

theorem State.freedByDisable_eq (s : State) (d : Camera) :
    s.freedByDisable d = s.pool.slots.countP fun r => r.freedBy d := rfl

theorem State.freedByDisable_kept {d : Camera} (length : t.pool.slots.length = s.pool.slots.length)
    (members : ∀ i m, (t.slot i).disp = .ring d m ↔ (s.slot i).disp = .ring d m) (pins : PinsKept s t) :
    t.freedByDisable d = s.freedByDisable d := by
  rw [State.freedByDisable_eq, State.freedByDisable_eq, State.countP_slots, State.countP_slots, length]
  refine List.countP_congr fun i _ => ?_
  rw [SlotRec.freedBy_iff, SlotRec.freedBy_iff, pins]
  exact and_congr_left fun _ => exists_congr fun m => members i m

theorem State.slotsEnable_changed (core : s.PoolCore strict) (none : s.rings[c].members = []) :
    CameraChanged strict c (min s.cameras[c].k s.freeCount) (s.freeCount - min s.cameras[c].k s.freeCount) s
      (s.slotsEnable c) := by
  have built := State.buildRing_built core none s.cameras[c].k
  have holds : (s.slotsEnable c).holds = s.holds := (s.slotsEnable_effect c).same .holds
  have same : State.PoolCore strict (s.slotsEnable c) ∧ PoolKept (s.buildRing c s.cameras[c].k) (s.slotsEnable c) :=
    ⟨built.core.setRing rfl, .setRing _ rfl⟩
  have pool : (s.slotsEnable c).pool = (s.buildRing c s.cameras[c].k).pool := rfl
  have slot := State.slot_congr pool
  have rest := built.rest
  refine ⟨same.1, same.2.length.trans built.length, (same.2.sizes c).trans built.size, fun d hd => ?_, fun i k => ?_,
    built.pins.trans (.of_same pool), fun k => by rw [holds], ?_, fun d hd => ?_⟩
  · rw [same.2.sizes d, built.others d hd]
  · rw [same.2.held, built.held]
  · rw [State.freeCount_congr pool]
    omega
  · rw [State.freedByDisable_congr pool]
    exact State.freedByDisable_kept built.length (fun i m => built.members i d m hd) built.pins

/-! ### Disables -/

theorem SlotRec.dissolved_own {r : SlotRec} {m : MemberState} (h : r.disp = .ring c m) :
    r.dissolved c = if r.pins = 0 then .fresh else { disp := .retiring, pins := r.pins, frame := none } := by
  unfold SlotRec.dissolved
  rw [h]
  exact if_pos rfl

theorem SlotRec.dissolved_other {r : SlotRec} (h : ∀ m, r.disp ≠ .ring c m) : r.dissolved c = r := by
  unfold SlotRec.dissolved
  split
  · rename_i d m disp
    exact if_neg fun e => h m (by rw [disp, e])
  · rfl
  · rfl
  · rfl

theorem SlotRec.dissolved_cases (r : SlotRec) (c : Camera) :
    (∃ m, r.disp = .ring c m ∧ r.pins = 0 ∧ r.dissolved c = .fresh)
      ∨ (∃ m, r.disp = .ring c m ∧ r.pins ≠ 0 ∧ r.dissolved c = { disp := .retiring, pins := r.pins, frame := none })
      ∨ (∀ m, r.disp ≠ .ring c m) ∧ r.dissolved c = r := by
  by_cases own : ∃ m, r.disp = .ring c m
  · obtain ⟨m, own⟩ := own
    by_cases zero : r.pins = 0
    · exact .inl ⟨m, own, zero, by rw [SlotRec.dissolved_own own, if_pos zero]⟩
    · exact .inr (.inl ⟨m, own, zero, by rw [SlotRec.dissolved_own own, if_neg zero]⟩)
  · have other := fun m h => own ⟨m, h⟩
    exact .inr (.inr ⟨other, SlotRec.dissolved_other other⟩)

theorem State.slot_slotsDisable (s : State) (c : Camera) (i : Nat) :
    (s.slotsDisable c).slot i = (s.slot i).dissolved c := by
  show (s.pool.slots.map fun r => r.dissolved c).getD i .fresh = (s.pool.slots.getD i .fresh).dissolved c
  rw [List.getD_eq_getElem?_getD, List.getD_eq_getElem?_getD, List.getElem?_map]
  cases s.pool.slots[i]? <;> rfl

theorem State.freeCount_slotsDisable (s : State) (c : Camera) :
    (s.slotsDisable c).freeCount = s.freeCount + s.freedByDisable c := by
  show (s.pool.slots.map fun r => r.dissolved c).countP _ = s.pool.slots.countP _ + s.pool.slots.countP _
  induction s.pool.slots with
  | nil => rfl
  | cons r l ih =>
    rw [List.map_cons, List.countP_cons, List.countP_cons, List.countP_cons, ih]
    rcases r.dissolved_cases c with ⟨m, own, zero, after⟩ | ⟨m, own, some, after⟩ | ⟨other, after⟩
    · rw [after, own, zero]
      simp [SlotRec.fresh]
      omega
    · rw [after, own]
      simp [some]
    · rw [after]
      cases disp : r.disp with
      | ring d m =>
        have ne : d ≠ c := fun e => other m (by rw [disp, e])
        simp [ne]
      | free =>
        simp
        omega
      | held k => simp
      | retiring => simp

theorem State.slotsDisable_changed (core : s.PoolCore strict) (c : Camera) :
    CameraChanged strict c 0 (s.freeCount + s.freedByDisable c) s (s.slotsDisable c) := by
  have slot := s.slot_slotsDisable c
  have length : (s.slotsDisable c).pool.slots.length = s.pool.slots.length := List.length_map ..
  have own : (s.slotsDisable c).rings[c].members = [] := by
    have : (s.slotsDisable c).rings[c] = { s.rings[c] with
        ready := [], filling := none, empty := [], phase := .waiting, tornMark := false, writes := 0 } :=
      upd_getElem_self ..
    rw [this]
    rfl
  have others (d : Camera) (hd : d ≠ c) : (s.slotsDisable c).rings[d] = s.rings[d] := upd_getElem_of_ne _ _ hd
  have ring (i : Nat) (d : Camera) (m : MemberState) :
      ((s.slot i).dissolved c).disp = .ring d m ↔ (s.slot i).disp = .ring d m ∧ d ≠ c := by
    rcases (s.slot i).dissolved_cases c with ⟨m', own, -, after⟩ | ⟨m', own, -, after⟩ | ⟨other, after⟩
    · rw [after, own]
      exact ⟨nofun, fun e => absurd (by cases e.1; rfl) e.2⟩
    · rw [after, own]
      exact ⟨nofun, fun e => absurd (by cases e.1; rfl) e.2⟩
    · rw [after]
      exact ⟨fun e => ⟨e, fun h => other m (by rw [e, h])⟩, fun e => e.1⟩
  have pins : PinsKept s (s.slotsDisable c) := fun i => by
    rw [slot]
    rcases (s.slot i).dissolved_cases c with ⟨-, -, zero, after⟩ | ⟨-, -, -, after⟩ | ⟨-, after⟩
    · rw [after, zero]
      rfl
    · rw [after]
    · rw [after]
  refine ⟨⟨fun d i m => ?_, fun d => ?_, fun i hi => ?_⟩, length, by rw [own]; rfl, fun d hd => by rw [others d hd],
    fun i k => ?_, pins, fun _ => rfl, s.freeCount_slotsDisable c, fun d hd => ?_⟩
  · rw [length, slot, ring]
    by_cases here : d = c
    · subst here
      rw [own]
      exact ⟨fun e => absurd e List.not_mem_nil, fun e => absurd rfl e.2.2⟩
    · rw [others d here, core.members d i m]
      exact and_congr_right fun _ => ⟨fun e => ⟨e, here⟩, fun e => e.1⟩
  · by_cases here : d = c
    · subst here
      rw [own]
      exact List.nodup_nil
    · rw [others d here]
      exact core.nodup d
  · have lawful := core.lawful i (length ▸ hi)
    rw [slot]
    rcases (s.slot i).dissolved_cases c with ⟨-, -, -, after⟩ | ⟨-, -, some, after⟩ | ⟨-, after⟩
    · rw [after]
      exact SlotRec.fresh_lawful
    · rw [after]
      exact ⟨some, fun _ => ⟨nofun, fun k => k.elim (fun ⟨_, e⟩ => nomatch e) fun ⟨_, e⟩ => nomatch e⟩⟩
    · rw [after]
      exact lawful
  · rw [slot]
    rcases (s.slot i).dissolved_cases c with ⟨m, own, -, after⟩ | ⟨m, own, -, after⟩ | ⟨-, after⟩
    · rw [after, own]
      exact ⟨nofun, nofun⟩
    · rw [after, own]
      exact ⟨nofun, nofun⟩
    · rw [after]
  · refine State.freedByDisable_kept length (fun i m => ?_) pins
    rw [slot, ring]
    exact ⟨fun e => e.1, fun e => ⟨e, hd⟩⟩

end

end Sys2Proof.Machine
end

section
/-! A CAMERAS load under the laws of the pool (R163): the free count that validation runs through the load is the
pool's free count before each record is applied. -/

namespace Sys2Proof.Machine

set_option Elab.async false

/-! ### The laws together -/

/-- A slot's pin count is the number of screens that latch it (R19). -/
def State.pinsTied (s : State) : Prop := ∀ i, (s.slot i).pins = s.latchCount i

/-- The laws of the pool, and with `strict` also what ties the slots to holds and screens. -/
structure State.PoolInv (strict : Prop) (s : State) : Prop where
  core : s.PoolCore strict
  sized : s.ringsSized
  ties : strict → s.holdTies
  pins : strict → s.pinsTied

section
variable {strict : Prop} {s t u : State} {c : Camera}

theorem State.latchCount_congr (h : t.contexts = s.contexts) (i : Nat) : t.latchCount i = s.latchCount i := by
  unfold State.latchCount
  rw [h]

theorem State.pinsTied.congr (h : s.pinsTied) (pins : PinsKept s t) (contexts : t.contexts = s.contexts) :
    t.pinsTied := fun i => by rw [pins i, h i, State.latchCount_congr contexts]

theorem State.ringsSized.congr (h : s.ringsSized) (cameras : t.cameras = s.cameras)
    (sizes : ∀ c : Camera, t.rings[c].members.length = s.rings[c].members.length) : t.ringsSized := by
  unfold State.ringsSized
  rw [cameras]
  exact ⟨fun c => (sizes c).trans (h.1 c), h.2⟩

theorem Pooled.inv (h : Pooled strict s t) (inv : s.PoolInv strict) (cameras : t.cameras = s.cameras)
    (contexts : t.contexts = s.contexts) : t.PoolInv strict :=
  ⟨h.core, inv.sized.congr cameras h.sizes, fun k => h.ties (inv.ties k), fun k => (inv.pins k).congr h.pins contexts⟩

theorem State.PoolInv.congr (h : s.PoolInv strict) (same : PoolSame s t) (cameras : t.cameras = s.cameras)
    (contexts : t.contexts = s.contexts) : t.PoolInv strict :=
  Pooled.inv (.of_kept (h.core.congr same.pool same.rings) (.of_same same.pool same.rings) (.of_same same.pool)
    same.slotsOf) h cameras contexts

theorem Effect.poolInv {ps : List Piece} (e : Effect ps s t) (h : s.PoolInv strict)
    (hp : Piece.pool ∉ Piece.mem :: .ring :: ps := by decide) (hr : Piece.rings ∉ Piece.mem :: .ring :: ps := by decide)
    (hh : Piece.holds ∉ Piece.mem :: .ring :: ps := by decide)
    (hc : Piece.cameras ∉ Piece.mem :: .ring :: ps := by decide)
    (hx : Piece.contexts ∉ Piece.mem :: .ring :: ps := by decide) : t.PoolInv strict :=
  h.congr (e.poolSame hp hr hh) (e.same .cameras hc) (e.same .contexts hx)

/-! ### One CAMERA record -/

theorem State.completeHold_slotsOf {h : HoldId} {x : Hold} (present : s.holds.table.get h = some x) (cause : HoldCause)
    (short : Bool) (k : HoldId) : (s.completeHold h x cause short).holds.slotsOf k = s.holds.slotsOf k :=
  HoldUnit.slotsOf_same present (s.completeHold_table h x cause short) rfl k

theorem State.completeShort_slotsOf (s : State) (which : Hold → Bool) (cause : HoldCause) (k : HoldId) :
    (s.completeShort which cause).holds.slotsOf k = s.holds.slotsOf k := by
  unfold State.completeShort
  refine List.foldlRecOn (motive := fun t : State => t.holds.slotsOf k = s.holds.slotsOf k) _ _ rfl fun u same h _ => ?_
  split
  · rename_i x present
    split
    · exact (State.completeHold_slotsOf present _ _ k).trans same
    · exact same
  · exact same

theorem State.completeShort_poolSame (s : State) (which : Hold → Bool) (cause : HoldCause) :
    PoolSame s (s.completeShort which cause) :=
  ⟨(s.completeShort_effect which cause).same .pool, (s.completeShort_effect which cause).same .rings,
    s.completeShort_slotsOf which cause⟩

theorem State.disableCamera_changed (core : s.PoolCore strict) (c : Camera) (old new : CameraRec) :
    CameraChanged strict c 0 (s.freeCount + s.freedByDisable c) s (s.disableCamera c old new) := by
  have before : PoolSame s ((s.lensDrop c).signatureDrop c) :=
    ((s.setLens_effect c _).trans (State.setCadence_effect _ c _)).poolSame
  have dissolved := State.slotsDisable_changed (core.congr before.pool before.rings) c
  rw [State.freeCount_congr before.pool, State.freedByDisable_congr before.pool] at dissolved
  exact (dissolved.from before).then ((Effect.poolSame ((State.cadenceTo_effect _ c _).trans
    (State.lensTo_effect _ c _))).trans (State.completeShort_poolSame _ _ _))

theorem State.enableCamera_changed (core : s.PoolCore strict) (none : s.rings[c].members = []) :
    CameraChanged strict c (min s.cameras[c].k s.freeCount) (s.freeCount - min s.cameras[c].k s.freeCount) s
      (s.enableCamera c) :=
  (State.slotsEnable_changed core none).then
    (Effect.poolSame ((State.cadenceTo_effect _ c _).trans (State.lensTo_effect _ c _)))

/-- How many members camera `c`'s ring has once `r` is applied, and how many slots are FREE then. -/
theorem State.applyCamera_changed (core : s.PoolCore strict) {r : CameraRec}
    (outside : s.cameras[c].enable = false → s.rings[c].members = []) :
    (s.cameras[c].enable = true → r.enable = false →
        CameraChanged strict c 0 (s.freeCount + s.freedByDisable c) s (s.applyCamera c r))
      ∧ (s.cameras[c].enable = false → r.enable = true →
        CameraChanged strict c (min r.k s.freeCount) (s.freeCount - min r.k s.freeCount) s (s.applyCamera c r))
      ∧ (r.enable = s.cameras[c].enable →
        CameraChanged strict c s.rings[c].members.length s.freeCount s (s.applyCamera c r)) := by
  have stored : PoolSame s (s.setCamera c r) := (s.setCamera_effect c r).poolSame
  refine ⟨fun was off => ?_, fun was on => ?_, fun same => ?_⟩
  · rw [State.applyCamera_disables was off]
    have changed := State.disableCamera_changed (core.congr stored.pool stored.rings) c s.cameras[c] r
    rw [State.freeCount_congr stored.pool, State.freedByDisable_congr stored.pool] at changed
    exact (changed.from stored).then (Effect.poolSame (State.configureLens_effect _ c _ r))
  · rw [State.applyCamera_enables was on]
    have configured : Effect [.cameras, .lens] s ((s.setCamera c r).configureLens c s.cameras[c] r) :=
      ((s.setCamera_effect c r).trans (State.configureLens_effect _ c _ r)).mono (by decide)
    have cameras : ((s.setCamera c r).configureLens c s.cameras[c] r).cameras = upd s.cameras c r :=
      Effect.same (State.configureLens_effect (s.setCamera c r) c s.cameras[c] r) .cameras
    have before := configured.poolSame
    generalize (s.setCamera c r).configureLens c s.cameras[c] r = u at cameras before
    have changed := State.enableCamera_changed (core.congr before.pool before.rings) (c := c)
      (by rw [before.rings]; exact outside was)
    rw [State.freeCount_congr before.pool, cameras, upd_getElem_self] at changed
    exact changed.from before
  · rw [State.applyCamera_reconfigures same]
    have configured := stored.trans (Effect.poolSame (State.configureLens_effect (s.setCamera c r) c s.cameras[c] r))
    split
    · exact .left core (configured.trans (Effect.poolSame (State.staleTimeout_effect _ c)))
    · exact .left core configured

/-- A CAMERA record keeps the laws where an enable finds its slots and an enabled camera keeps its k. -/
theorem State.PoolInv.camera (h : s.PoolInv strict) {r : CameraRec} {n free : Nat} (three : r.enable = true → 3 ≤ r.k)
    (changed : CameraChanged strict c n free s (s.applyCamera c r)) (size : n = if r.enable then r.k else 0) :
    (s.applyCamera c r).PoolInv strict := by
  have cameras := s.applyCamera_cameras c r
  have contexts : (s.applyCamera c r).contexts = s.contexts := (s.applyCamera_effect c r).same .contexts
  refine ⟨changed.core, ⟨fun d => ?_, fun d => ?_⟩, fun k => ?_, fun k => (h.pins k).congr changed.pins contexts⟩
  · rw [cameras]
    by_cases own : d = c
    · subst own
      rw [changed.size, size, upd_getElem_self]
    · rw [changed.others d own, upd_getElem_of_ne _ _ own]
      exact h.sized.1 d
  · rw [cameras]
    by_cases own : d = c
    · subst own
      rw [upd_getElem_self]
      exact three
    · rw [upd_getElem_of_ne _ _ own]
      exact h.sized.2 d
  · have ties := State.holdTies_iff.1 (h.ties k)
    rw [State.holdTies_iff]
    intro q
    rw [changed.slotsOf]
    refine ⟨(ties q).1, fun i => ?_⟩
    rw [(ties q).2, changed.length, changed.held]

/-! ### The load -/

theorem State.slotCheck_cons {s : State} {free : Nat} {c : Camera} {r : CameraRec} {rest : List (Camera × CameraRec)}
    (h : s.slotCheck free ((c, r) :: rest) = none) :
    (s.cameras[c].enable = true ∧ r.enable = false ∧ s.slotCheck (free + s.freedByDisable c) rest = none)
      ∨ (s.cameras[c].enable = false ∧ r.enable = true ∧ r.k ≤ free ∧ s.slotCheck (free - r.k) rest = none)
      ∨ (r.enable = s.cameras[c].enable ∧ s.slotCheck free rest = none) := by
  unfold State.slotCheck at h
  cases was : s.cameras[c].enable <;> cases on : r.enable <;> rw [was, on] at h
  · exact .inr (.inr ⟨rfl, h⟩)
  · refine .inr (.inl ⟨rfl, rfl, ?_⟩)
    change (if r.k + s.setup.holdReserve ≤ free then s.slotCheck (free - r.k) rest else some c) = none at h
    split at h
    · exact ⟨by omega, h⟩
    · cases h
  · exact .inl ⟨rfl, rfl, h⟩
  · exact .inr (.inr ⟨rfl, h⟩)

/-- A load of CAMERAS that has passed the slot check, applied to a part `u` that stands as `s` for the load's
cameras. -/
theorem State.PoolInv.cameraLoad {s u : State} {l : List (Camera × CameraRec)} (h : u.PoolInv strict)
    (nodup : (l.map Prod.fst).Nodup) (same : ∀ x ∈ l, u.cameras[x.1] = s.cameras[x.1])
    (freed : ∀ x ∈ l, u.freedByDisable x.1 = s.freedByDisable x.1)
    (passes : ∀ x ∈ l, x.2.Passes s.pool.slotBytes s.cameras[x.1]) (check : s.slotCheck u.freeCount l = none) :
    (l.foldl (fun v x => v.applyCamera x.1 x.2) u).PoolInv strict := by
  induction l generalizing u with
  | nil => exact h
  | cons x l ih =>
    obtain ⟨c, r⟩ := x
    obtain ⟨new, rest⟩ := List.nodup_cons.1 nodup
    have stands := same (c, r) (List.mem_cons_self ..)
    have frees := freed (c, r) (List.mem_cons_self ..)
    have pass := passes (c, r) (List.mem_cons_self ..)
    dsimp only at stands frees pass
    have other : ∀ y ∈ l, y.1 ≠ c := fun y hy e => new (List.mem_map.2 ⟨y, hy, e⟩)
    obtain ⟨disables, enables, keeps⟩ := State.applyCamera_changed h.core (c := c) (r := r) fun off => by
      have := h.sized.1 c
      rw [off, if_neg Bool.false_ne_true] at this
      exact List.length_eq_zero_iff.1 this
    rw [stands] at disables enables keeps
    rw [frees] at disables
    have next : ∀ {n free}, CameraChanged strict c n free u (u.applyCamera c r) → n = (if r.enable then r.k else 0) →
        s.slotCheck free l = none → (l.foldl (fun v x => v.applyCamera x.1 x.2) (u.applyCamera c r)).PoolInv strict :=
      fun {n free} changed size check => by
        refine ih (h.camera (fun _ => pass.members.1) changed size) rest (fun y hy => ?_) (fun y hy => ?_)
          (fun y hy => passes y (List.mem_cons_of_mem _ hy)) (by rw [changed.free]; exact check)
        · rw [u.applyCamera_cameras, upd_getElem_of_ne _ _ (other y hy)]
          exact same y (List.mem_cons_of_mem _ hy)
        · rw [changed.freed _ (other y hy)]
          exact freed y (List.mem_cons_of_mem _ hy)
    rcases State.slotCheck_cons check with ⟨was, off, check⟩ | ⟨was, on, enough, check⟩ | ⟨kept, check⟩
    · exact next (disables was off) (by rw [off]; rfl) check
    · have changed := enables was on
      rw [Nat.min_eq_left enough] at changed
      exact next changed (by rw [on]; rfl) check
    · refine next (keeps kept) ?_ check
      rw [h.sized.1 c, stands, kept]
      by_cases on : s.cameras[c].enable = true
      · rw [on, (pass.kept on (kept.trans on)).2.2.1]
      · rw [Bool.eq_false_of_not_eq_true on]
        rfl

theorem State.PoolInv.applyCameras {s : State} (h : s.PoolInv strict) (table : s.engine.load.table = .cameras)
    (bound : s.engine.load.first + s.engine.load.count ≤ 16) (valid : s.validate = none) :
    s.applyLoad.PoolInv strict := by
  rw [State.applyLoad_cameraRecords table]
  exact h.cameraLoad (s := s) (Engine.cameraRecords_nodup bound) (fun _ _ => rfl) (fun _ _ => rfl)
    (State.passes_of_validate valid table) (State.cameraChecks_of_validate valid table).2

end

end Sys2Proof.Machine
end

section
/-! Scan contexts under the laws of the pool: a slot has a pin for each screen that latches it (R19, R80). -/

namespace Sys2Proof.Machine

set_option Elab.async false

/-! ### Who latches a slot -/

/-- The scan context, if there is one, latched slot `k`. -/
def latchedBy (x : Option ScanContext) (k : Nat) : Bool :=
  match x with
  | none => false
  | some x => x.panes.any fun e => decide (e.latched.map Latched.slot = some k)

theorem State.latchCount_eq (s : State) (k : Nat) :
    s.latchCount k = (List.finRange 4).countP fun i : Screen => latchedBy s.contexts[i] k := rfl

theorem latchedBy_some {x : ScanContext} {k : Nat} :
    latchedBy (some x) k = true ↔ ∃ e ∈ x.panes, e.latched.map Latched.slot = some k := by
  show x.panes.any _ = true ↔ _
  rw [List.any_eq_true]
  exact exists_congr fun e => and_congr_right fun _ => decide_eq_true_iff

theorem mem_slots_iff {x : ScanContext} {k : Nat} : k ∈ x.slots ↔ latchedBy (some x) k = true := by
  unfold ScanContext.slots
  rw [mem_distinct, List.mem_filterMap, latchedBy_some]

/-- A count changes by one element's place in it. -/
theorem countP_change {α : Type} [DecidableEq α] {l : List α} (nodup : l.Nodup) {a : α} (mem : a ∈ l)
    {p q : α → Bool} (others : ∀ b, b ≠ a → q b = p b) : l.countP q + bit (p a) = l.countP p + bit (q a) := by
  have rest : (l.erase a).countP q = (l.erase a).countP p :=
    List.countP_congr fun b hb => by rw [others b (nodup.mem_erase_iff.1 hb).1]
  have one (f : α → Bool) : l.countP f = (l.erase a).countP f + bit (f a) := by
    rw [(List.perm_cons_erase mem).countP_eq f, List.countP_cons]
    rfl
  rw [one p, one q, rest]
  omega

theorem State.latchCount_setContext (s : State) (i : Screen) (x : Option ScanContext) (k : Nat) :
    (s.setContext i x).latchCount k + bit (latchedBy s.contexts[i] k) = s.latchCount k + bit (latchedBy x k) := by
  have own : (s.setContext i x).contexts[i] = x := upd_getElem_self ..
  have := countP_change (List.nodup_finRange 4) (List.mem_finRange i)
    (p := fun j : Screen => latchedBy s.contexts[j] k) (q := fun j : Screen => latchedBy
      (s.setContext i x).contexts[j] k)
    fun j hj => congrArg (latchedBy · k) (upd_getElem_of_ne _ _ hj)
  rw [own] at this
  exact this

/-! ### Releases -/

section
variable {strict : Prop} {s : State} {i : Screen}

theorem State.unpins_kept {l : List Nat} (nodup : l.Nodup) (core : s.PoolCore strict) :
    (l.foldl State.unpin s).PoolCore strict ∧ PoolKept s (l.foldl State.unpin s)
      ∧ ∀ k, ((l.foldl State.unpin s).slot k).pins = (s.slot k).pins - if k ∈ l then 1 else 0 := by
  induction l generalizing s with
  | nil => exact ⟨core, .refl s, fun k => rfl⟩
  | cons j l ih =>
    obtain ⟨new, rest⟩ := List.nodup_cons.1 nodup
    obtain ⟨core, kept, once⟩ := State.unpin_kept core j
    obtain ⟨core', kept', pins⟩ := ih rest core
    refine ⟨core', kept.trans kept', fun k => ?_⟩
    rw [List.foldl_cons, pins, once k]
    by_cases here : k = j
    · subst here
      rw [if_pos rfl, if_neg new, if_pos (List.mem_cons_self ..), Nat.sub_zero]
    · rw [if_neg here, Nat.sub_zero]
      by_cases later : k ∈ l
      · rw [if_pos later, if_pos (List.mem_cons_of_mem _ later)]
      · rw [if_neg later, if_neg fun e => (List.mem_cons.1 e).elim here later]

theorem State.unpinContext_kept (core : s.PoolCore strict) (i : Screen) :
    (s.unpinContext i).PoolCore strict ∧ PoolKept s (s.unpinContext i)
      ∧ ∀ k, ((s.unpinContext i).slot k).pins = (s.slot k).pins - bit (latchedBy s.contexts[i] k) := by
  unfold State.unpinContext
  split
  · rename_i none
    rw [none]
    exact ⟨core, .refl s, fun k => rfl⟩
  · rename_i x present
    obtain ⟨core, kept, pins⟩ := State.unpins_kept (l := x.slots) (nodup_distinct _) core
    refine ⟨core, kept, fun k => ?_⟩
    rw [pins, present]
    by_cases mem : k ∈ x.slots
    · rw [if_pos mem, mem_slots_iff.1 mem]
      rfl
    · rw [if_neg mem, Bool.eq_false_of_not_eq_true fun e => mem (mem_slots_iff.2 e)]
      rfl

/-- Behind the unpins a slot has a pin for each other screen that latches it. -/
theorem State.pinsTied.unpinned (h : s.pinsTied) (core : s.PoolCore strict) (i : Screen) (k : Nat) :
    ((s.unpinContext i).slot k).pins = ((s.unpinContext i).setContext i none).latchCount k := by
  obtain ⟨-, -, pins⟩ := State.unpinContext_kept core i
  have contexts : (s.unpinContext i).contexts = s.contexts := (s.unpinContext_effect i).same .contexts
  have change := (s.unpinContext i).latchCount_setContext i none k
  rw [contexts, State.latchCount_congr contexts] at change
  have none : bit (latchedBy none k) = 0 := rfl
  rw [pins, h k]
  omega

theorem PoolKept.setContext (s : State) (i : Screen) (x : Option ScanContext) : PoolKept s (s.setContext i x) :=
  .of_same rfl rfl

theorem State.PoolInv.kept {t : State} (h : s.PoolInv strict) (core : t.PoolCore strict) (kept : PoolKept s t)
    (cameras : t.cameras = s.cameras) (holds : t.holds = s.holds) (pins : strict → t.pinsTied) : t.PoolInv strict :=
  ⟨core, h.sized.congr cameras kept.sizes, fun k => State.holdTies_congr (h.ties k) (fun _ => by rw [holds]) kept, pins⟩

theorem State.PoolInv.releaseContext (h : s.PoolInv strict) (i : Screen) : (s.releaseContext i).PoolInv strict := by
  obtain ⟨core, kept, -⟩ := State.unpinContext_kept h.core i
  have e := s.unpinContext_effect i
  rw [s.releaseContext_eq i]
  exact h.kept (core.congr rfl rfl) (kept.trans (.setContext _ i none)) (e.same .cameras) (e.same .holds)
    fun k => (h.pins k).unpinned h.core i

theorem State.PoolInv.applyScreen (h : s.PoolInv strict) (i : Screen) (r : ScreenRec) :
    (s.applyScreen i r).PoolInv strict := by
  have stored := (s.setScreen_effect i r).poolInv h
  unfold State.applyScreen
  dsimp only
  split
  · exact stored.releaseContext i
  · exact stored

/-! ### Latches -/

/-- At most one camera's newest READY member is a slot. -/
theorem State.PoolCore.newest_unique (core : s.PoolCore strict) {c d : Camera} {k : Nat} (hc : s.pinTarget c = some k)
    (hd : s.pinTarget d = some k) : c = d := by
  have member : ∀ {c : Camera}, s.pinTarget c = some k → (s.slot k).disp = .ring c .ready := fun {c} h => by
    unfold State.pinTarget at h
    split at h
    · exact (core.ready (List.mem_of_getLast? h)).2
    · cases h
  cases (member hc).symm.trans (member hd)
  rfl

theorem countP_of_unique {n : Nat} {p : Fin n → Bool} (unique : ∀ c d, p c = true → p d = true → c = d) :
    (List.finRange n).countP p = bit ((List.finRange n).any p) := by
  by_cases some : ∃ c, p c = true
  · obtain ⟨c, hc⟩ := some
    have any : (List.finRange n).any p = true := List.any_eq_true.2 ⟨c, List.mem_finRange c, hc⟩
    rw [any]
    have same : (List.finRange n).countP p = (List.finRange n).count c :=
      List.countP_congr fun d _ => ⟨fun h => beq_iff_eq.2 (unique d c h hc), fun h => beq_iff_eq.1 h ▸ hc⟩
    rw [same]
    exact List.count_eq_one_of_mem (List.nodup_finRange n) (List.mem_finRange c)
  · have none : (List.finRange n).any p = false :=
      Bool.eq_false_of_not_eq_true fun h => some ((List.any_eq_true.1 h).imp fun _ k => k.2)
    rw [none]
    exact List.countP_eq_zero.2 fun c _ h => some ⟨c, h⟩

theorem State.pinShown_kept (core : s.PoolCore strict) (cams : List Camera) :
    (s.pinShown cams).1.PoolCore strict ∧ PoolKept s (s.pinShown cams).1 := by
  rw [State.pinShown_eq]
  suffices h : ∀ (l : List Camera) (x : State × List (Camera × Option Nat)), x.1.PoolCore strict →
      (l.foldl State.pinNext x).1.PoolCore strict ∧ PoolKept x.1 (l.foldl State.pinNext x).1 from h cams (s, []) core
  intro l
  induction l with
  | nil => exact fun x core => ⟨core, .refl x.1⟩
  | cons c l ih =>
    intro x core
    obtain ⟨core, kept⟩ := State.pin_kept core c
    obtain ⟨core', kept'⟩ := ih (State.pinNext x c) core
    exact ⟨core', kept.trans kept'⟩

/-- The pins of a latch: one for each slot that the new context latches. -/
theorem State.pinnedFor_pins (core : (s.unpinContext i).PoolCore strict) (k : Nat) :
    (((s.unpinContext i).pinnedFor i).slot k).pins = ((s.unpinContext i).slot k).pins
      + bit (latchedBy (some ((s.unpinContext i).newContext i)) k) := by
  have target (c : Camera) := s.pinTarget_unpinContext i c
  have latched : latchedBy (some ((s.unpinContext i).newContext i)) k = true ↔
      ∃ c, (∃ e ∈ ((s.unpinContext i).newContext i).panes, e.shown = c) ∧ (s.unpinContext i).pinTarget c = some k := by
    rw [latchedBy_some]
    constructor
    · rintro ⟨e, he, slot⟩
      obtain ⟨p, rfl⟩ := s.latched_entry i he
      exact ⟨_, ⟨_, he, rfl⟩, latchedEntry_slot p ▸ slot⟩
    · rintro ⟨-, ⟨e, he, rfl⟩, slot⟩
      obtain ⟨p, rfl⟩ := s.latched_entry i he
      exact ⟨_, he, (latchedEntry_slot p).trans slot⟩
  by_cases hk : k < (s.unpinContext i).pool.slots.length
  · rw [s.latched_slot i hk]
    refine congrArg (((s.unpinContext i).slot k).pins + ·) ?_
    rw [countP_of_unique fun c d hc hd => ?_]
    · congr 1
      rw [Bool.eq_iff_iff, latched, List.any_eq_true]
      refine exists_congr fun c => ?_
      rw [decide_eq_true_iff, target]
      exact and_iff_right (List.mem_finRange c)
    · rw [decide_eq_true_iff, ← target] at hc hd
      exact core.newest_unique hc.2 hd.2
  · have none : ¬latchedBy (some ((s.unpinContext i).newContext i)) k = true := fun h => by
      obtain ⟨c, -, newest⟩ := latched.1 h
      unfold State.pinTarget at newest
      split at newest
      · exact hk (core.ready (List.mem_of_getLast? newest)).1
      · cases newest
    have length : ((s.unpinContext i).pinnedFor i).pool.slots.length = (s.unpinContext i).pool.slots.length :=
      State.pinShown_length _ _
    rw [Bool.eq_false_of_not_eq_true none, State.slot_of_le (Nat.le_of_not_lt hk),
      State.slot_of_le (length.trans_le (Nat.le_of_not_lt hk))]
    rfl

theorem State.pinnedFor_kept (core : s.PoolCore strict) :
    (s.pinnedFor i).PoolCore strict ∧ PoolKept s (s.pinnedFor i) := State.pinShown_kept core _

/-- A new scan context whose slots have each one pin more. -/
theorem State.pinsTied.latched {s t : State} {x : ScanContext} (before : ∀ k,
  (s.slot k).pins = (s.setContext i none).latchCount k)
    (contexts : t.contexts = s.contexts)
    (pins : ∀ k, (t.slot k).pins = (s.slot k).pins + bit (latchedBy (some x) k)) : (t.setContext i
      (some x)).pinsTied := by
  intro k
  have released := s.latchCount_setContext i none k
  have latched := t.latchCount_setContext i (some x) k
  have none : bit (latchedBy none k) = 0 := rfl
  have slot : (t.setContext i (some x)).slot k = t.slot k := rfl
  rw [contexts, State.latchCount_congr contexts] at latched
  rw [slot, pins, before]
  omega

theorem State.PoolInv.latch (h : s.PoolInv strict) (i : Screen) : (s.latch i).PoolInv strict := by
  obtain ⟨core, kept, -⟩ := State.unpinContext_kept h.core i
  obtain ⟨core', kept'⟩ := State.pinnedFor_kept (i := i) core
  have e := (s.unpinContext_effect i).trans ((s.unpinContext i).pinnedFor_effect i)
  have contexts : ((s.unpinContext i).pinnedFor i).contexts = (s.unpinContext i).contexts :=
    ((s.unpinContext i).pinnedFor_effect i).same .contexts
  have cameras := e.same .cameras
  have holds := e.same .holds
  have pins := State.pinnedFor_pins core
  rw [s.latch_eq i]
  have tied (k : strict) := State.pinsTied.latched ((h.pins k).unpinned h.core i) contexts pins
  generalize (s.unpinContext i).pinnedFor i = u at *
  exact h.kept (core'.congr rfl rfl) ((kept.trans kept').trans (.setContext u i _)) cameras holds tied

end

end Sys2Proof.Machine
end

section
/-! The warm restart and the SETUP record under the laws of the pool (R25, R1). -/

namespace Sys2Proof.Machine

set_option Elab.async false

section
variable {strict : Prop} {s t u : State}

/-! ### Several rings are built -/

/-- The members that the ring of camera `c` has by the camera records. -/
def State.ringSize (s : State) (c : Camera) : Nat := if s.cameras[c].enable then s.cameras[c].k else 0

/-- The enabled cameras of a list take their rings. -/
def State.buildRings (s : State) (l : List Camera) : State :=
  l.foldl (fun s c => if s.cameras[c].enable then s.buildRing c s.cameras[c].k else s) s

/-- The rings of the cameras of `l` have been built. -/
structure RingsBuilt (strict : Prop) (s t : State) (l : List Camera) : Prop where
  core : t.PoolCore strict
  length : t.pool.slots.length = s.pool.slots.length
  held : ∀ i (k : HoldId), (t.slot i).disp = .held k ↔ (s.slot i).disp = .held k
  pins : PinsKept s t
  sizes : ∀ c ∈ l, t.rings[c].members.length = s.ringSize c
  others : ∀ c : Camera, c ∉ l → t.rings[c] = s.rings[c]

theorem State.buildRings_built {l : List Camera} (nodup : l.Nodup) (core : s.PoolCore strict)
    (none : ∀ c ∈ l, s.rings[c].members = []) (enough : (l.map s.ringSize).sum ≤ s.freeCount) :
    RingsBuilt strict s (s.buildRings l) l := by
  induction l generalizing s with
  | nil => exact ⟨core, rfl, fun _ _ => Iff.rfl, .refl s, fun c h => absurd h List.not_mem_nil, fun _ _ => rfl⟩
  | cons c l ih =>
    obtain ⟨new, rest⟩ := List.nodup_cons.1 nodup
    have other : ∀ d ∈ l, d ≠ c := fun d hd e => new (e ▸ hd)
    rw [List.map_cons, List.sum_cons] at enough
    by_cases on : s.cameras[c].enable = true
    · have size : s.ringSize c = s.cameras[c].k := if_pos on
      have built := State.buildRing_built core (none c (List.mem_cons_self ..)) s.cameras[c].k
      have cameras : (s.buildRing c s.cameras[c].k).cameras = s.cameras := (s.buildRing_effect c _).same .cameras
      have next : s.buildRings (c :: l) = (s.buildRing c s.cameras[c].k).buildRings l := by
        unfold State.buildRings
        rw [List.foldl_cons, if_pos on]
      rw [next]
      generalize s.buildRing c s.cameras[c].k = v at built cameras
      have sizes (d : Camera) : v.ringSize d = s.ringSize d := by
        unfold State.ringSize
        rw [cameras]
      have freed := built.rest
      rw [size] at enough
      have later := ih rest built.core (fun d hd => by
        rw [built.others d (other d hd)]
        exact none d (List.mem_cons_of_mem _ hd)) (by
        rw [List.map_congr_left fun d _ => sizes d]
        omega)
      refine ⟨later.core, later.length.trans built.length, fun i k => (later.held i k).trans (built.held i k),
        built.pins.trans later.pins, fun d hd => ?_, fun d hd => ?_⟩
      · rcases List.mem_cons.1 hd with rfl | hd
        · rw [later.others d new, built.size, size]
          omega
        · rw [later.sizes d hd, sizes]
      · have ne := List.ne_of_not_mem_cons hd
        rw [later.others d (List.not_mem_of_not_mem_cons hd), built.others d ne]
    · have size : s.ringSize c = 0 := if_neg on
      have next : s.buildRings (c :: l) = s.buildRings l := by
        unfold State.buildRings
        rw [List.foldl_cons, if_neg on]
      rw [next]
      have later := ih rest core (fun d hd => none d (List.mem_cons_of_mem _ hd)) (by omega)
      refine ⟨later.core, later.length, later.held, later.pins, fun d hd => ?_,
        fun d hd => later.others d (List.not_mem_of_not_mem_cons hd)⟩
      rcases List.mem_cons.1 hd with rfl | hd
      · rw [later.others d new, none d (List.mem_cons_self ..), size]
        rfl
      · exact later.sizes d hd

/-! ### The warm restart -/

/-- The slots and rings after steps 1, 2 and 4 of R25. -/
def State.slotsCleared (s : State) : State :=
  { s with
    pool := { s.pool with slots := s.pool.slots.map SlotRec.restarted }
    rings := Vector.ofFn fun c : Fin 16 => s.rings[c].restarted }

theorem State.slotsRestart_eq (s : State) : s.slotsRestart = s.slotsCleared.buildRings (List.finRange 16) := rfl

theorem State.slotsCleared_slot (s : State) (i : Nat) : s.slotsCleared.slot i = (s.slot i).restarted := by
  show (s.pool.slots.map SlotRec.restarted).getD i .fresh = (s.pool.slots.getD i .fresh).restarted
  rw [List.getD_eq_getElem?_getD, List.getD_eq_getElem?_getD, List.getElem?_map]
  cases s.pool.slots[i]? <;> rfl

theorem State.slotsCleared_length (s : State) : s.slotsCleared.pool.slots.length = s.pool.slots.length :=
  List.length_map ..

theorem State.slotsCleared_ring (s : State) (c : Camera) : s.slotsCleared.rings[c] = s.rings[c].restarted := by
  show (Vector.ofFn fun c : Fin 16 => s.rings[c].restarted)[c] = _
  rw [Fin.getElem_fin, Vector.getElem_ofFn]

theorem SlotRec.restarted_held {r : SlotRec} {h : HoldId} (e : r.disp = .held h) : r.restarted
  = { r with pins := 0 } := by
  unfold SlotRec.restarted
  rw [e]

theorem SlotRec.restarted_fresh {r : SlotRec} (e : ∀ h, r.disp ≠ .held h) : r.restarted = .fresh := by
  unfold SlotRec.restarted
  split
  · rename_i h held
    exact absurd held (e h)
  · rfl
  · rfl
  · rfl

/-- A slot record of a restart: HELD without pins, or FREE. -/
theorem SlotRec.restarted_cases (r : SlotRec) :
    (∃ h, r.disp = .held h ∧ r.restarted = { r with pins := 0 }) ∨ (∀ h, r.disp ≠ .held h) ∧ r.restarted = .fresh := by
  by_cases held : ∃ h, r.disp = .held h
  · obtain ⟨h, held⟩ := held
    exact .inl ⟨h, held, SlotRec.restarted_held held⟩
  · have other := fun h e => held ⟨h, e⟩
    exact .inr ⟨other, SlotRec.restarted_fresh other⟩

theorem SlotRec.restarted_disp {r : SlotRec} {h : HoldId} : r.restarted.disp = .held h ↔ r.disp = .held h := by
  rcases r.restarted_cases with ⟨k, held, after⟩ | ⟨other, after⟩
  · rw [after]
  · rw [after]
    exact ⟨nofun, fun e => absurd e (other h)⟩

theorem SlotRec.restarted_pins (r : SlotRec) : r.restarted.pins = 0 := by
  rcases r.restarted_cases with ⟨h, -, after⟩ | ⟨-, after⟩
  · rw [after]
  · rw [after]
    rfl

theorem SlotRec.restarted_ne_ring {r : SlotRec} {c : Camera} {m : MemberState} : r.restarted.disp ≠ .ring c m := by
  rcases r.restarted_cases with ⟨h, held, after⟩ | ⟨-, after⟩
  · rw [after, held]
    exact nofun
  · rw [after]
    exact nofun

theorem State.slotsCleared_core (core : s.PoolCore strict) : s.slotsCleared.PoolCore strict := by
  have none (c : Camera) : s.slotsCleared.rings[c].members = [] := by
    rw [s.slotsCleared_ring c]
    rfl
  refine ⟨fun c i m => ?_, fun c => by rw [none]; exact List.nodup_nil, fun i hi => ?_⟩
  · rw [none, s.slotsCleared_slot]
    exact ⟨fun e => absurd e List.not_mem_nil, fun e => absurd e.2 SlotRec.restarted_ne_ring⟩
  · rw [s.slotsCleared_slot]
    have lawful := core.lawful i (s.slotsCleared_length ▸ hi)
    rcases (s.slot i).restarted_cases with ⟨h, held, after⟩ | ⟨-, after⟩
    · rw [after]
      exact lawful.repin (.inr ⟨h, held⟩) 0
    · rw [after]
      exact SlotRec.fresh_lawful

/-- The rings' members are FREE after the first steps of a restart, so every enabled camera finds its k slots. -/
theorem State.slotsCleared_enough (h : s.PoolInv strict) :
    ((List.finRange 16).map s.ringSize).sum ≤ s.slotsCleared.freeCount := by
  have sizes : (List.finRange 16).map s.ringSize =
      (List.finRange 16).map fun c => (s.rings[c].members.map Prod.fst).length :=
    List.map_congr_left fun c _ => by rw [List.length_map, h.sized.1 c, State.ringSize]
  have all : ((List.finRange 16).flatMap fun c : Camera => s.rings[c].members.map Prod.fst).Nodup := by
    refine List.nodup_flatMap.2 ⟨fun c _ => h.core.nodup c, (List.nodup_finRange 16).imp fun {c d} ne => ?_⟩
    intro i hc hd
    obtain ⟨⟨i', m⟩, hm, rfl⟩ := List.mem_map.1 hc
    obtain ⟨⟨j, n⟩, hn, e⟩ := List.mem_map.1 hd
    dsimp only at e
    subst e
    cases ((h.core.members c j m).1 hm).2.symm.trans ((h.core.members d j n).1 hn).2
    exact ne rfl
  rw [sizes, ← List.length_flatMap]
  refine State.length_le_freeCount all fun i hi => ?_
  obtain ⟨c, -, hc⟩ := List.mem_flatMap.1 hi
  obtain ⟨⟨j, m⟩, hm, rfl⟩ := List.mem_map.1 hc
  obtain ⟨bound, disp⟩ := (h.core.members c j m).1 hm
  rw [s.slotsCleared_length, s.slotsCleared_slot, SlotRec.restarted_fresh fun k e => nomatch disp.symm.trans e]
  exact ⟨bound, rfl⟩

/-- The pool after the Slot Manager's part of a restart, without its ties to the screens. -/
structure SlotsRestarted (strict : Prop) (s t : State) : Prop where
  core : t.PoolCore strict
  length : t.pool.slots.length = s.pool.slots.length
  held : ∀ i (k : HoldId), (t.slot i).disp = .held k ↔ (s.slot i).disp = .held k
  pins : ∀ i, (t.slot i).pins = 0
  sizes : ∀ c : Camera, t.rings[c].members.length = s.rings[c].members.length

theorem State.slotsRestart_restarted (h : s.PoolInv strict) : SlotsRestarted strict s s.slotsRestart := by
  have built := State.buildRings_built (s := s.slotsCleared) (List.nodup_finRange 16) (State.slotsCleared_core h.core)
    (fun c _ => by rw [s.slotsCleared_ring c]; rfl) (State.slotsCleared_enough h)
  rw [← s.slotsRestart_eq] at built
  refine ⟨built.core, built.length.trans s.slotsCleared_length, fun i k => ?_, fun i => ?_, fun c => ?_⟩
  · rw [built.held, s.slotsCleared_slot, SlotRec.restarted_disp]
  · rw [built.pins i, s.slotsCleared_slot, SlotRec.restarted_pins]
  · rw [built.sizes c (List.mem_finRange c), h.sized.1 c]
    rfl

theorem State.latchCount_none (h : ∀ i : Screen, s.contexts[i] = none) (k : Nat) : s.latchCount k = 0 := by
  rw [State.latchCount_eq, List.countP_eq_zero]
  intro i _
  rw [h i]
  exact Bool.false_ne_true

/-- A warm restart keeps the laws: the other blocks drop their contexts and keep the holds' slots. -/
theorem State.PoolInv.restartBlocks (h : s.PoolInv strict) : s.restartBlocks.PoolInv strict := by
  have restarted := State.slotsRestart_restarted h
  have monitors := (State.cadenceRestart_effect s.slotsRestart).trans (State.lensRestart_effect _)
  have e := s.slotsRestart_effect
  unfold State.restartBlocks
  dsimp only
  generalize s.slotsRestart = a at restarted monitors e ⊢
  generalize a.cadenceRestart.lensRestart = b at monitors ⊢
  have doors := (State.doorsRestart_effect { b with contexts := Vector.replicate 4 none }).trans
    (State.spotsRestart_effect _)
  generalize State.spotsRestart _ = v at doors ⊢
  have short := v.completeShort_poolSame (fun _ => true) .restart
  have shortEffect := v.completeShort_effect (fun _ => true) .restart
  generalize v.completeShort (fun _ => true) .restart = w at short shortEffect ⊢
  have fields : PoolSame a { b with contexts := Vector.replicate 4 none } :=
    monitors.poolSame.trans ⟨rfl, rfl, fun _ => rfl⟩
  have same : PoolSame a w := (fields.trans doors.poolSame).trans short
  have cameras : w.cameras = s.cameras :=
    (shortEffect.same .cameras).trans ((doors.same .cameras).trans ((monitors.same .cameras).trans (e.same .cameras)))
  have contexts : w.contexts = Vector.replicate 4 none :=
    (shortEffect.same .contexts).trans (doors.same .contexts)
  have holds (k : HoldId) : w.holds.slotsOf k = s.holds.slotsOf k := by
    rw [same.slotsOf, show a.holds = s.holds from e.same .holds]
  refine State.PoolInv.congr (s := w) ⟨restarted.core.congr same.pool same.rings, ?_, fun k => ?_, fun _ i => ?_⟩
    ⟨rfl, rfl, fun _ => rfl⟩ rfl rfl
  · exact h.sized.congr cameras fun c => by rw [same.rings, restarted.sizes]
  · exact State.holdTies_congr (h.ties k) holds ⟨by rw [same.pool, restarted.length], fun c => by
      rw [same.rings, restarted.sizes], fun i k => by rw [State.slot_congr same.pool, restarted.held]⟩
  · rw [State.slot_congr same.pool, restarted.pins]
    refine (State.latchCount_none (fun i => ?_) _).symm
    rw [contexts]
    exact Vector.getElem_replicate i.isLt

theorem State.PoolInv.warmRestart (h : s.PoolInv strict) (tag : Byte) : (s.warmRestart tag).PoolInv strict := by
  unfold State.warmRestart
  refine Effect.poolInv (State.finishPlain_effect _ _ _ _) (State.PoolInv.restartBlocks ?_)
  exact Effect.poolInv ((((s.takeTag_effect tag).trans (State.discardStaging_effect _)).trans
    (State.cutApplying_effect _ _)).trans (State.setEngine_effect _ _)) h

end

end Sys2Proof.Machine
end

section
/-! A validated load under the laws of the pool: SETUP gives a new table only to an idle pool (R1, R162). -/

namespace Sys2Proof.Machine

set_option Elab.async false

section
variable {strict : Prop} {s t : State}

/-! ### The SETUP record -/

/-- BUSY_SLOTS has passed (R162). -/
theorem State.idle_of_setupChecks {r : SetupRec} (h : ∀ c ∈ s.setupChecks r, c.holds = true) :
    ((∀ c : Camera, s.cameras[c].enable = false) ∧ (∀ k : HoldId, s.holds.table.get k = none)
        ∧ ∀ i, i < s.pool.slots.length → (s.slot i).disp ≠ .retiring)
      ∨ r.slotBase = s.setup.slotBase ∧ r.slotUnits = s.setup.slotUnits ∧ r.slotCount = s.setup.slotCount := by
  obtain ⟨-, -, -, -, -, busy⟩ := State.setupChecks_hold_iff.mp h
  simp only [Bool.or_eq_true, Bool.not_eq_true', Bool.and_eq_true, List.all_eq_true, List.mem_finRange,
    true_implies, decide_eq_true_eq] at busy
  rcases busy with same | ⟨⟨off, holds⟩, retiring⟩
  · right
    simpa [SetupRec.newGeometry, and_assoc] using same
  · refine .inl ⟨off, fun k => ?_, fun i hi => ?_⟩
    · exact Option.not_isSome_iff_eq_none.1 (List.countP_eq_zero.1 holds k (List.mem_finRange k))
    · rw [State.slot_eq_getElem hi]
      exact retiring _ (List.getElem_mem hi)

/-- The slot table of a pool in use: no ring, no hold and no retirement. -/
theorem State.PoolInv.idle_pins (h : s.PoolInv strict) (hs : strict) (rings : ∀ c : Camera, s.rings[c].members = [])
    (holds : ∀ k : HoldId, s.holds.table.get k = none)
    (retiring : ∀ i, i < s.pool.slots.length → (s.slot i).disp ≠ .retiring) (i : Nat) : (s.slot i).pins = 0 := by
  by_cases hi : i < s.pool.slots.length
  · have lawful := h.core.lawful i hi
    cases disp : (s.slot i).disp with
    | free => exact lawful.pins_of_free disp
    | ring c m =>
      have := (h.core.members c i m).2 ⟨hi, disp⟩
      rw [rings c] at this
      exact absurd this List.not_mem_nil
    | held k => exact absurd disp ((h.ties hs).2 k i hi (holds k))
    | retiring => exact absurd disp (retiring i hi)
  · rw [State.slot_of_le (Nat.le_of_not_lt hi)]
    rfl

theorem SlotPool.regeometry_new (p : SlotPool) {base units count : Nat}
    (new : ¬(p.base = base ∧ p.units = units ∧ p.slots.length = count)) :
    p.regeometry base units count = freshPool base units count := if_neg new

theorem freshPool_slot (base units count i : Nat) : (freshPool base units count).slots.getD i .fresh = .fresh := by
  unfold freshPool
  rw [List.getD_eq_getElem?_getD, List.getElem?_replicate]
  split <;> rfl

/-- A SETUP record's slot geometry: a new table only when nothing has a slot. -/
theorem State.PoolInv.regeometry (h : s.PoolInv strict) (apart : s.regionsApart) {r : SetupRec}
    (checks : ∀ c ∈ s.setupChecks r, c.holds = true) :
    State.PoolInv strict { s with setup := r, pool := s.pool.regeometry r.slotBase r.slotUnits r.slotCount } := by
  by_cases same : s.pool.base = r.slotBase ∧ s.pool.units = r.slotUnits ∧ s.pool.slots.length = r.slotCount
  · exact h.congr ⟨if_pos same, rfl, fun _ => rfl⟩ rfl rfl
  · obtain ⟨base, units, count, -⟩ := apart
    rcases State.idle_of_setupChecks checks with ⟨off, holds, retiring⟩ | ⟨sameBase, sameUnits, sameCount⟩
    · rw [s.pool.regeometry_new same]
      have rings (c : Camera) : s.rings[c].members = [] := by
        have := h.sized.1 c
        rw [off c, if_neg Bool.false_ne_true] at this
        exact List.length_eq_zero_iff.1 this
      have slot (i : Nat) : State.slot { s with
          setup := r, pool := freshPool r.slotBase r.slotUnits r.slotCount } i = .fresh := freshPool_slot _ _ _ i
      have nothing (i : Nat) : (SlotRec.fresh).disp = .free := rfl
      refine ⟨⟨fun c i m => ?_, h.core.nodup, fun i _ => ?_⟩, h.sized, fun hs => ?_, fun hs i => ?_⟩
      · rw [slot]
        show (i, m) ∈ s.rings[c].members ↔ _
        rw [rings c]
        exact ⟨fun e => absurd e List.not_mem_nil, fun e => nomatch e.2⟩
      · rw [slot]
        exact SlotRec.fresh_lawful
      · refine ⟨fun k x present => ?_, fun k i _ _ => ?_⟩
        · exact nomatch (holds k).symm.trans present
        · rw [slot]
          exact nofun
      · rw [slot]
        exact (h.idle_pins hs rings holds retiring i).symm.trans (h.pins hs i)
    · exact absurd ⟨base.trans sameBase.symm, units.trans sameUnits.symm, count.trans sameCount.symm⟩ same

theorem State.PoolInv.withRing (h : s.PoolInv strict) (g : ReportRing) : State.PoolInv strict { s with ring := g } :=
  h.congr ⟨rfl, rfl, fun _ => rfl⟩ rfl rfl

theorem State.PoolInv.applySetup (h : s.PoolInv strict) (apart : s.regionsApart) {r : SetupRec}
    (checks : ∀ c ∈ s.setupChecks r, c.holds = true) : (s.applySetup r).PoolInv strict := by
  have new := h.regeometry apart checks
  have doors := State.setupDoors_effect { s with
    setup := r, pool := s.pool.regeometry r.slotBase r.slotUnits r.slotCount } s.setup r
  have served := (State.setupDoors_pooled new.core s.setup r).inv new (doors.same .cameras) (doors.same .contexts)
  exact served.withRing _

/-! ### The load -/

theorem State.PoolInv.foldl {α : Type} {f : State → α → State} (step : ∀ u x, u.PoolInv strict → (f u x).PoolInv strict)
    (l : List α) (h : s.PoolInv strict) : (l.foldl f s).PoolInv strict :=
  List.foldlRecOn (motive := State.PoolInv strict) l f h fun u hu x _ => step u x hu

theorem State.PoolInv.applyLoad (h : s.PoolInv strict) (apart : s.regionsApart) (one : 1 ≤ s.engine.load.count)
    (bound : s.engine.load.first + s.engine.load.count ≤ s.engine.load.table.records) (valid : s.validate = none) :
    s.applyLoad.PoolInv strict := by
  cases table : s.engine.load.table with
  | setup =>
    rw [table] at bound
    have first : (s.engine.load.first + 0, s.engine.stagedBytes 0) ∈ s.engine.records := by
      rw [Engine.stagedBytes, Nat.zero_sub]
      exact List.mem_map_of_mem (List.mem_range.2 one)
    have checks := State.setupChecks_of_validate valid table _ first
    rw [State.applyLoad_of_one table one bound]
    exact h.applySetup apart checks
  | cameras =>
    rw [table] at bound
    exact h.applyCameras table bound valid
  | screens =>
    rw [State.applyLoad_of_screens table]
    exact h.foldl (fun u x hu => hu.applyScreen _ _) _
  | layouts =>
    rw [State.applyLoad_of_layouts table]
    exact h.congr ⟨rfl, rfl, fun _ => rfl⟩ rfl rfl
  | panes =>
    rw [State.applyLoad_of_panes table]
    exact h.congr ⟨rfl, rfl, fun _ => rfl⟩ rfl rfl
  | doors =>
    rw [State.applyLoad_of_doors table]
    exact h.foldl (fun u x hu => (u.applyDoor_effect _ _).poolInv hu) _

/-! ### Commands -/

theorem Pooled.effect_inv {ps : List Piece} (p : Pooled strict s t) (h : s.PoolInv strict) (e : Effect ps s t)
    (hc : Piece.cameras ∉ Piece.mem :: .ring :: ps := by decide)
    (hx : Piece.contexts ∉ Piece.mem :: .ring :: ps := by decide) : t.PoolInv strict :=
  p.inv h (e.same .cameras hc) (e.same .contexts hx)

theorem Offered.poolInv {c : Command} {tag : Byte} (o : Offered s c tag t) (h : s.PoolInv strict)
    (apart : s.regionsApart) (range : s.engine.inRange) : t.PoolInv strict := by
  have taken := s.takeTag_effect tag
  have tagged : (s.takeTag tag).PoolInv strict := taken.poolInv h
  cases o with
  | ignored => exact h
  | restart => exact h.warmRestart tag
  | idle => exact (State.idleCommand_pooled tagged.core c).effect_inv tagged (State.idleCommand_effect _ c)
  | cleared => exact ((State.enter_effect _ _).trans (State.finishPlain_effect _ _ _ _)).poolInv tagged
  | aborted => exact (State.abortLoad_effect _ _ _).poolInv tagged
  | invalid =>
    exact (((State.discardStaging_effect _).trans (State.enter_effect _ _)).trans
      (State.finish_effect _ _ _ _ _ _)).poolInv tagged
  | applied staging _ _ passed outcome =>
    obtain ⟨one, -, bound, -⟩ := range.1 staging
    exact outcome.effect.poolInv (tagged.applyLoad (taken.regionsApart taken.geometry apart) one bound passed)

end

end Sys2Proof.Machine
end

section
/-! Landing beats under the laws of the pool, and the obligation (O59). -/

namespace Sys2Proof.Machine

set_option Elab.async false

/-- A camera in the FRAME phase has a FILLING member (R10). -/
def State.filledInFrame (s : State) : Prop :=
  ∀ c : Camera, s.rings[c].phase = .inFrame → s.rings[c].filling.isSome = true

section
variable {strict : Prop} {s t u : State} {c : Camera} {n i : Nat}

theorem State.slotLaws_iff : s.slotLaws ↔ s.holdTies ∧ s.stampsLawful ∧ s.filledInFrame ∧ s.pinsTied := by
  unfold State.slotLaws
  exact ⟨fun ⟨present, absent, stamps, filled, pins⟩ => ⟨⟨present, absent⟩, stamps, filled, pins⟩,
    fun ⟨⟨present, absent⟩, stamps, filled, pins⟩ => ⟨present, absent, stamps, filled, pins⟩⟩

theorem State.filledInFrame.kept (h : s.filledInFrame)
  (landing : LandingKept s t) : t.filledInFrame := fun c phase => by
  obtain ⟨within, -, filling⟩ := landing c phase
  exact filling (h c within)

/-! ### Beats that move no slot -/

/-- A landing beat has changed ring `c`'s landing state and counts alone. -/
structure BeatKept (c : Camera) (s t : State) : Prop where
  pool : t.pool = s.pool
  holds : t.holds = s.holds
  cameras : t.cameras = s.cameras
  contexts : t.contexts = s.contexts
  members : t.rings[c].members = s.rings[c].members
  filling : t.rings[c].filling = s.rings[c].filling
  others : ∀ d : Camera, d ≠ c → t.rings[d] = s.rings[d]

theorem Touches.beatKept {ps : List Piece} (e : Touches ps s t) (members : t.rings[c].members = s.rings[c].members)
    (filling : t.rings[c].filling = s.rings[c].filling) (others : OthersKept c s t)
    (hp : Piece.pool ∉ ps := by decide) (hh : Piece.holds ∉ ps := by decide) (hc : Piece.cameras ∉ ps := by decide)
    (hx : Piece.contexts ∉ ps := by decide) : BeatKept c s t :=
  ⟨e.same .pool hp, e.same .holds hh, e.same .cameras hc, e.same .contexts hx, members, filling,
    fun d hd => (others d hd).1⟩

theorem BeatKept.trans (h : BeatKept c s t) (k : BeatKept c t u) : BeatKept c s u :=
  ⟨k.pool.trans h.pool, k.holds.trans h.holds, k.cameras.trans h.cameras, k.contexts.trans h.contexts,
    k.members.trans h.members, k.filling.trans h.filling, fun d hd => (k.others d hd).trans (h.others d hd)⟩

theorem BeatKept.allMembers (h : BeatKept c s t) (d : Camera) : t.rings[d].members = s.rings[d].members := by
  by_cases own : d = c
  · rw [own]
    exact h.members
  · rw [h.others d own]

theorem BeatKept.poolInv (h : BeatKept c s t) (inv : s.PoolInv strict) : t.PoolInv strict := by
  have slot := State.slot_congr h.pool
  have kept : PoolKept s t := ⟨by rw [h.pool], fun d => by rw [h.allMembers d], fun i k => by rw [slot]⟩
  refine inv.kept ⟨fun d i m => ?_, fun d => ?_, fun i hi => ?_⟩ kept h.cameras h.holds fun hs =>
    (inv.pins hs).congr (.of_same h.pool) h.contexts
  · rw [h.allMembers d, h.pool, slot]
    exact inv.core.members d i m
  · rw [h.allMembers d]
    exact inv.core.nodup d
  · rw [slot]
    exact inv.core.lawful i (by rw [← h.pool]; exact hi)

theorem State.setRing_beatKept (s : State) (c : Camera) {g : RingRec} (members : g.members = s.rings[c].members)
    (filling : g.filling = s.rings[c].filling) : BeatKept c s (s.setRing c g) := by
  have own : (s.setRing c g).rings[c] = g := upd_getElem_self ..
  exact (s.setRing_touches c g).beatKept (by rw [own, members]) (by rw [own, filling]) (s.setRing_others c g)

theorem State.beginFrame_beatKept (s : State) (c : Camera) (i : Nat) (w : WriteData) :
    BeatKept c s (s.beginFrame c i w) := by
  obtain ⟨ring, -⟩ := s.beginFrame_records c i w
  exact (s.beginFrame_touches c i w).beatKept (by rw [ring]; rfl) (by rw [ring]) (s.beginFrame_others c i w)

theorem State.countTorn_beatKept (s : State) (c : Camera) : BeatKept c s (s.countTorn c) := by
  obtain ⟨ring, -⟩ := s.countTorn_records c
  exact (s.countTorn_touches c).beatKept (by rw [ring]; rfl) (by rw [ring]) (s.countTorn_others c)

theorem State.wordStored_beatKept (s : State) (c : Camera) (i n : Nat) (w : WriteData) :
    BeatKept c s (s.wordStored c i n w) := by
  obtain ⟨ring, -⟩ := s.wordStored_records c i n w
  exact (s.wordStored_touches c i n w).beatKept (by rw [ring]; rfl) (by rw [ring]) (s.wordStored_others c i n w)

theorem State.landingIdle_beatKept (s : State) (c : Camera) : BeatKept c s (s.landingIdle c) :=
  s.setRing_beatKept c rfl rfl

theorem State.filledInFrame.beat (h : s.filledInFrame) (kept : ∀ d : Camera, d ≠ c → t.rings[d] = s.rings[d])
    (own : t.rings[c].phase = .inFrame → t.rings[c].filling.isSome = true) : t.filledInFrame := fun d phase => by
  by_cases here : d = c
  · subst here
    exact own phase
  · rw [kept d here] at phase ⊢
    exact h d phase

/-! ### Acceptance -/

theorem State.offerFrame_filling (s : State) (c : Camera) (i : Nat) :
    (s.offerFrame c i).rings[c].filling = s.rings[c].filling := by
  have ring : ∀ {u v : State}, Effect [.holds] u v → v.rings[c].filling = u.rings[c].filling := fun e => by
    rw [show _ = _ from e.same .rings]
  cases hx : s.collectingHold c with
  | none => rw [State.offerFrame_none hx]
  | some found =>
    obtain ⟨h, x⟩ := found
    cases free : s.lowestFree with
    | none =>
      rw [State.offerFrame_short hx free]
      exact ring (s.completeHold_effect h x .noSlot true)
    | some j =>
      have moved : (s.transferred c h i j).rings[c].filling = s.rings[c].filling := by rw [State.transferred_ring]
      rw [State.offerFrame_joins hx free]
      split
      · exact (ring (State.completeHold_effect _ h _ _ _)).trans moved
      · exact (ring (State.setHold_effect _ h _)).trans moved

/-- An acceptance: the member is READY, the oldest hold may take it, and a landing target is chosen. -/
theorem State.PoolInv.accept (h : s.PoolInv strict) (filling : s.rings[c].filling = some i) :
    (s.accept c i).PoolInv strict := by
  obtain ⟨core, kept, pins⟩ := State.memberReady_kept h.core filling
  have told : Effect [.cadence, .lens] (s.memberReady c i) (s.arrived c i) :=
    (State.cadenceTo_effect _ c _).trans (State.lensTo_effect _ c _)
  have whole := s.accept_effect c i
  have cameras : (s.accept c i).cameras = s.cameras := whole.same .cameras
  have contexts : (s.accept c i).contexts = s.contexts := whole.same .contexts
  have ring : (s.arrived c i).rings[c].ready = s.rings[c].ready ++ [i] ∧ (s.arrived c i).rings[c].filling = none := by
    rw [show (s.arrived c i).rings = (s.memberReady c i).rings from told.same .rings]
    unfold State.memberReady
    dsimp only
    rw [State.setSlot_rings, State.setRing_rings, upd_getElem_self]
    exact ⟨rfl, rfl⟩
  have holds : (s.memberReady c i).holds = s.holds :=
    ((s.setRing_effect c _).trans (State.setSlot_effect _ i _)).same .holds
  have arrived : Pooled strict s (s.arrived c i) :=
    (Pooled.of_kept core kept pins fun k => by rw [holds]).trans (told.pooled core)
  rw [State.accept_eq] at cameras contexts ⊢
  generalize s.arrived c i = u at *
  have offered := State.offerFrame_pooled (c := c) (i := i) arrived.core
    (by rw [ring.1]; exact List.mem_append_right _ (List.mem_singleton_self i))
  have idle : (u.offerFrame c i).rings[c].filling = none := (u.offerFrame_filling c i).trans ring.2
  generalize u.offerFrame c i = v at *
  obtain ⟨core, kept, pins⟩ := State.chooseTarget_kept offered.core idle
  have chosen : Pooled strict v (v.chooseTarget c) := .of_kept core kept pins fun k => by
    rw [(v.chooseTarget_effect c).same .holds]
  have last : Pooled strict (v.chooseTarget c) ((v.chooseTarget c).landingIdle c) :=
    .of_kept (core.setRing rfl) (.setRing _ rfl) (.of_same rfl) fun _ => rfl
  exact (((arrived.trans offered).trans chosen).trans last).inv h cameras contexts

theorem FrameEnded.poolInv (e : FrameEnded s c n t) (h : s.PoolInv strict) : t.PoolInv strict := by
  cases e with
  | goesOn => exact h
  | accepted _ i filling => exact h.accept filling
  | torn => exact ((s.countTorn_beatKept c).trans (State.landingIdle_beatKept _ c)).poolInv h

theorem FrameEnded.filledInFrame (e : FrameEnded s c n t) (h : s.filledInFrame) : t.filledInFrame := by
  have idle : ∀ u : State, (u.landingIdle c).rings[c].phase = .inFrame →
      (u.landingIdle c).rings[c].filling.isSome = true := fun u phase => absurd phase (u.landingIdle_outside c)
  cases e with
  | goesOn => exact h
  | accepted _ i => exact h.beat (fun d hd => (s.accept_others c i d hd).1) (idle _)
  | torn => exact h.beat ((s.countTorn_beatKept c).trans (State.landingIdle_beatKept _ c)).others (idle _)

theorem Landed.laws {w : WriteData} (l : Landed s c n w t) :
    (s.PoolInv strict → t.PoolInv strict) ∧ (s.filledInFrame → t.filledInFrame) := by
  have ended : ∀ {u m}, BeatKept c s u → FrameEnded u c m t →
      (s.filledInFrame → u.rings[c].phase = .inFrame → s.rings[c].filling.isSome = true) →
      (s.PoolInv strict → t.PoolInv strict) ∧ (s.filledInFrame → t.filledInFrame) := fun {u m} kept outcome own =>
    ⟨fun h => outcome.poolInv (kept.poolInv h), fun h => outcome.filledInFrame
      (h.beat kept.others fun phase => by rw [kept.filling]; exact own h phase)⟩
  cases l with
  | dropped => exact ⟨id, id⟩
  | starved =>
    have kept : BeatKept c s (s.starvedWord0 c) := s.setRing_beatKept c rfl rfl
    refine ⟨kept.poolInv, fun h => h.beat kept.others fun phase => ?_⟩
    rw [show (s.starvedWord0 c).rings[c] = { s.rings[c] with
      phase := .dropping, starvedDrop := s.rings[c].starvedDrop + 1 } from upd_getElem_self ..] at phase
    exact nomatch phase
  | begun _ _ i filling _ outcome =>
    exact ended (s.beginFrame_beatKept c i w) outcome fun _ _ => by rw [filling]; rfl
  | begunAnew _ _ i filling _ outcome =>
    exact ended ((s.countTorn_beatKept c).trans (State.beginFrame_beatKept _ c i w)) outcome fun _ _ => by
      rw [filling]
      rfl
  | stored _ i filling _ _ outcome =>
    exact ended (u := s.wordStored c i n w) (s.wordStored_beatKept c i n w) outcome fun _ _ => by rw [filling]; rfl
  | marked _ within outcome =>
    refine ended ?_ outcome fun h _ => h c within
    exact s.setRing_beatKept c rfl rfl

/-! ### Operations -/

theorem Touches.poolInv {ps : List Piece} (e : Touches ps s t) (h : s.PoolInv strict)
  (hp : Piece.pool ∉ ps := by decide)
    (hr : Piece.rings ∉ ps := by decide) (hh : Piece.holds ∉ ps := by decide) (hc : Piece.cameras ∉ ps := by decide)
    (hx : Piece.contexts ∉ ps := by decide) : t.PoolInv strict :=
  h.congr ⟨e.same .pool hp, e.same .rings hr, fun k => by rw [e.same .holds hh]⟩ (e.same .cameras hc)
    (e.same .contexts hx)

theorem Operation.poolInv (o : Operation s t) (h : s.PoolInv strict) (apart : s.regionsApart)
    (range : s.engine.inRange) : t.PoolInv strict := by
  cases o with
  | nothing => exact h
  | drop k tag a => exact (s.guardDrop_effect k tag a).poolInv h
  | store a w => exact (s.setMem_touches _).poolInv h
  | page n w => exact (s.pageWrite_touches n w).poolInv h
  | consume w => exact (s.consumerBeat_touches w).poolInv h
  | stage i w => exact (State.stageBeat_effect _ i w).poolInv ((s.pageWrite_touches (256 + i.val) w).poolInv h)
  | command d c tag =>
    have stored := s.pageWrite_touches 8 ⟨0xFF, d⟩
    refine (State.offer_cases _ c tag).poolInv (stored.poolInv h)
      (stored.regionsApart ⟨rfl, rfl, rfl⟩ ⟨rfl, rfl⟩ apart) ?_
    rwa [show (s.pageWrite 8 ⟨0xFF, d⟩).engine = s.engine from stored.same .engine]
  | land c n w => exact (s.landingPhase_cases c n w).laws.1 h
  | frameStart i => exact (State.frameStartNotice_effect _ i).poolInv (h.latch i)
  | status n => exact (s.afterStatusRead_effect n).poolInv h
  | stale c => exact (s.staleTimeout_effect c).poolInv h
  | sample l =>
    have lines : State.PoolInv strict { s with lines := l } := h.congr ⟨rfl, rfl, fun _ => rfl⟩ rfl rfl
    exact (State.sampleInstant_pooled lines.core).effect_inv lines (State.sampleInstant_effect _)
  | linger i => exact (s.lingerExpiry_effect i).poolInv h
  | close k => exact (s.guardClose_effect k).poolInv h
  | overtime => exact s.applyingOvertime_effect.poolInv h

theorem Operation.filledInFrame (o : Operation s t) (h : s.filledInFrame) : t.filledInFrame := by
  cases o with
  | nothing => exact h
  | drop k tag a => exact h.kept (s.guardDrop_effect k tag a).landingKept
  | store a w => exact h.kept (.of_rings rfl)
  | page n w => exact h.kept (.of_rings ((s.pageWrite_touches n w).same .rings))
  | consume w => exact h.kept (.of_rings ((s.consumerBeat_touches w).same .rings))
  | stage i w =>
    exact h.kept ((LandingKept.of_rings ((s.pageWrite_touches (256 + i.val) w).same .rings)).trans
      (State.stageBeat_effect _ i w).landingKept)
  | command d c tag =>
    exact h.kept ((LandingKept.of_rings ((s.pageWrite_touches 8 ⟨0xFF, d⟩).same .rings)).trans
      (State.offer_cases _ c tag).landingKept)
  | land c n w => exact (Landed.laws (strict := True) (s.landingPhase_cases c n w)).2 h
  | frameStart i => exact h.kept (s.frameStart_landingKept i)
  | status n => exact h.kept (s.afterStatusRead_effect n).landingKept
  | stale c => exact h.kept (s.staleTimeout_effect c).landingKept
  | sample l => exact h.kept (State.sampleInstant_landingKept { s with lines := l })
  | linger i => exact h.kept (s.lingerExpiry_effect i).landingKept
  | close k => exact h.kept (s.guardClose_effect k).landingKept
  | overtime => exact h.kept s.applyingOvertime_effect.landingKept

/-- The laws of the pool and what they rest on, by step. -/
structure State.PoolState (strict : Prop) (s : State) : Prop where
  inv : s.PoolInv strict
  apart : s.regionsApart
  range : s.engine.inRange
  filled : strict → s.filledInFrame

theorem State.poolLaws.poolState (laws : s.poolLaws) (apart : s.regionsApart) (range : s.engine.inRange) :
    s.PoolState False :=
  ⟨⟨(State.poolLaws_iff.1 laws).1, (State.poolLaws_iff.1 laws).2, False.elim, False.elim⟩, apart, range, False.elim⟩

theorem State.slotLaws.poolState (slots : s.slotLaws) (laws : s.poolLaws) (apart : s.regionsApart)
    (range : s.engine.inRange) : s.PoolState True := by
  obtain ⟨ties, stamps, filled, pins⟩ := State.slotLaws_iff.1 slots
  obtain ⟨core, sized⟩ := State.poolLaws_iff.1 laws
  exact ⟨⟨core.strict stamps, sized, fun _ => ties, fun _ => pins⟩, apart, range, fun _ => filled⟩

theorem State.poolState_powerOn (s : State) (straps : BitVec 2) : (s.powerOn straps).PoolState strict := by
  have full := (s.slotLaws_powerOn straps).poolState (s.poolLaws_powerOn straps) (s.regionsApart_powerOn straps)
    (Engine.inRange_of_rest (.inl rfl) rfl)
  obtain ⟨⟨core, sized, ties, pins⟩, apart, range, filled⟩ := full
  exact ⟨⟨⟨core.members, core.nodup, fun i hi => ⟨(core.lawful i hi).1, fun _ => (core.lawful i hi).2 trivial⟩⟩, sized,
    fun _ => ties trivial, fun _ => pins trivial⟩, apart, range, fun _ => filled trivial⟩

/-- The laws do not speak of the time, the queue, the port and the condition. -/
theorem State.PoolState.congr (h : s.PoolState strict) (same : PoolSame s t) (cameras : t.cameras = s.cameras)
    (contexts : t.contexts = s.contexts) (apart : t.regionsApart) (engine : t.engine = s.engine) :
    t.PoolState strict :=
  ⟨h.inv.congr same cameras contexts, apart, by rw [engine]; exact h.range,
    fun hs => (h.filled hs).kept (.of_rings same.rings)⟩

theorem State.PoolState.step (h : s.PoolState strict) (next : step s = .next t) : t.PoolState strict :=
  step_keeps h next (fun _ _ k => k.congr ⟨rfl, rfl, fun _ => rfl⟩ rfl rfl k.apart rfl)
    (fun _ _ _ k => k.congr ⟨rfl, rfl, fun _ => rfl⟩ rfl rfl k.apart rfl)
    (fun _ _ k => k.congr ⟨rfl, rfl, fun _ => rfl⟩ rfl rfl k.apart rfl)
    (fun _ _ _ k => k.congr ⟨rfl, rfl, fun _ => rfl⟩ rfl rfl k.apart rfl)
    (fun u straps _ => u.poolState_powerOn straps)
    fun _ _ k o => ⟨o.poolInv k.inv k.apart k.range, o.regionsApart k.apart, o.engine_inRange k.range,
      fun hs => o.filledInFrame (k.filled hs)⟩

end

/-- Settles O59: every operation moves a slot from one place to one other, so that rings, slot records, holds and
scan contexts go on naming each other. -/
theorem poolLawsAreKept : Obligations.PoolLawsAreKept := by
  refine ⟨fun s t laws apart range next => ?_, fun s t laws apart range _ slots next => ?_⟩
  · have after := (laws.poolState apart range).step next
    exact State.poolLaws_iff.2 ⟨after.inv.core, after.inv.sized⟩
  · have after := (slots.poolState laws apart range).step next
    exact State.slotLaws_iff.2 ⟨after.inv.ties trivial, after.inv.core.stamps, after.filled trivial,
      after.inv.pins trivial⟩

end Sys2Proof.Machine
end

section
/-! The rings that a warm restart builds (R25): the enabled cameras take the FREE slots in ascending number. -/

namespace Sys2Proof.Machine

set_option Elab.async false

section
variable {s t u : State} {c : Camera}

/-! ### One ring -/

/-- The slot records of a ring built of the slots `is`. -/
def builtSlot (c : Camera) (is : List Nat) (k : Nat) : SlotRec :=
  if is.head? = some k then ⟨.ring c .filling, 0, none⟩ else ⟨.ring c .empty, 0, none⟩

theorem builtSlot_pins (c : Camera) (is : List Nat) (k : Nat) : (builtSlot c is k).pins = 0 := by
  unfold builtSlot
  split <;> rfl

/-- A ring of the `n` lowest FREE slots, as the slot records and the rings show it. -/
theorem State.buildRing_lowest (s : State) (c : Camera) (n : Nat) :
    (s.buildRing c n).rings = upd s.rings c (s.rings[c].built (s.freeSlots.take n))
      ∧ (s.buildRing c n).pool.slots.length = s.pool.slots.length
      ∧ (s.buildRing c n).freeSlots = s.freeSlots.drop n
      ∧ (∀ k ∈ s.freeSlots.take n, (s.buildRing c n).slot k = builtSlot c (s.freeSlots.take n) k)
      ∧ ∀ k, k ∉ s.freeSlots.take n → (s.buildRing c n).slot k = s.slot k := by
  obtain ⟨is, u, claimed, rings, length, slots⟩ := s.buildRing_slots c n
  generalize s.buildRing c n = t at *
  have lowest := claimed.lowest
  subst lowest
  have within (k : Nat) (hk : k ∈ s.freeSlots.take n) : t.slot k = builtSlot c (s.freeSlots.take n) k := by
    rw [slots, claimed.slots, if_pos hk]
    rfl
  have beyond (k : Nat) (hk : k ∉ s.freeSlots.take n) : t.slot k = s.slot k := by
    rw [slots, if_neg fun e => hk (List.mem_of_head? e), claimed.slots, if_neg hk]
  refine ⟨rings, length, ?_, within, beyond⟩
  rw [← filter_notMem_take s.nodup_freeSlots]
  refine State.freeSlots_taken length fun k => ?_
  by_cases hk : k ∈ s.freeSlots.take n
  · rw [within k hk, builtSlot]
    split
    · exact ⟨nofun, fun e => absurd hk e.2⟩
    · exact ⟨nofun, fun e => absurd hk e.2⟩
  · rw [beyond k hk]
    exact ⟨fun e => ⟨e, hk⟩, fun e => e.1⟩

/-! ### The rings of several cameras -/

/-- The rings of the cameras of `l`, one behind the other, of the FREE slots in ascending index. -/
structure LowestTaken (s t : State) (l : List Camera) : Prop where
  length : t.pool.slots.length = s.pool.slots.length
  free : t.freeSlots = s.freeSlots.drop (l.map s.ringSize).sum
  rest : ∀ k, k ∉ s.freeSlots.take (l.map s.ringSize).sum → t.slot k = s.slot k
  pins : ∀ k, (s.slot k).pins = 0 → (t.slot k).pins = 0
  others : ∀ c : Camera, c ∉ l → t.rings[c] = s.rings[c]
  rings : ∀ l1 c l2, l = l1 ++ c :: l2 →
    t.rings[c] = s.rings[c].built ((s.freeSlots.drop (l1.map s.ringSize).sum).take (s.ringSize c))
  slots : ∀ l1 c l2, l = l1 ++ c :: l2 → ∀ k ∈ (s.freeSlots.drop (l1.map s.ringSize).sum).take (s.ringSize c),
    t.slot k = builtSlot c ((s.freeSlots.drop (l1.map s.ringSize).sum).take (s.ringSize c)) k

theorem State.buildRings_cons (s : State) (c : Camera) (l : List Camera) : s.buildRings (c :: l) =
    (if s.cameras[c].enable then s.buildRing c s.cameras[c].k else s).buildRings l := rfl

/-- An enabled camera takes its slots, and a disabled one, whose ring is empty, takes none. -/
theorem State.buildRing_sized (none : s.rings[c].built [] = s.rings[c]) :
    ∃ t, (if s.cameras[c].enable then s.buildRing c s.cameras[c].k else s) = t ∧ t.cameras = s.cameras
      ∧ t.rings = upd s.rings c (s.rings[c].built (s.freeSlots.take (s.ringSize c)))
      ∧ t.pool.slots.length = s.pool.slots.length
      ∧ t.freeSlots = s.freeSlots.drop (s.ringSize c)
      ∧ (∀ k ∈ s.freeSlots.take (s.ringSize c), t.slot k = builtSlot c (s.freeSlots.take (s.ringSize c)) k)
      ∧ ∀ k, k ∉ s.freeSlots.take (s.ringSize c) → t.slot k = s.slot k := by
  by_cases on : s.cameras[c].enable = true
  · have size : s.ringSize c = s.cameras[c].k := if_pos on
    rw [if_pos on, size]
    exact ⟨_, rfl, (s.buildRing_effect c _).same .cameras, s.buildRing_lowest c _⟩
  · have size : s.ringSize c = 0 := if_neg on
    rw [if_neg on, size, List.take_zero, none]
    exact ⟨s, rfl, rfl, (Vector.set_getElem_self _).symm, rfl, rfl, fun k hk => absurd hk List.not_mem_nil,
      fun _ _ => rfl⟩

theorem State.ringSize_congr (h : t.cameras = s.cameras) : t.ringSize = s.ringSize := by
  funext c
  unfold State.ringSize
  rw [h]

theorem State.buildRings_lowest {l : List Camera} (nodup : l.Nodup)
    (none : ∀ c ∈ l, s.rings[c].built [] = s.rings[c]) : LowestTaken s (s.buildRings l) l := by
  induction l generalizing s with
  | nil => exact ⟨rfl, rfl, fun _ _ => rfl, fun _ h => h, fun _ _ => rfl, fun l1 c l2 e => by simp at e,
    fun l1 c l2 e => by simp at e⟩
  | cons c l ih =>
    obtain ⟨new, nodup⟩ := List.nodup_cons.1 nodup
    have other : ∀ d ∈ l, d ≠ c := fun d hd e => new (e ▸ hd)
    obtain ⟨u, built, cameras, rings, length, free, within, beyond⟩ :=
      State.buildRing_sized (none c (List.mem_cons_self ..))
    rw [s.buildRings_cons, built]
    have ring (d : Camera) (hd : d ≠ c) : u.rings[d] = s.rings[d] := by rw [rings, upd_getElem_of_ne _ _ hd]
    have later := ih (s := u) nodup fun d hd => by
      rw [ring d (other d hd)]
      exact none d (List.mem_cons_of_mem _ hd)
    generalize u.buildRings l = t at later ⊢
    obtain ⟨length', free', rest, pins, others, rings', slots⟩ := later
    rw [State.ringSize_congr cameras, free] at free' rest rings' slots
    have place (l1 : List Camera) : ((c :: l1).map s.ringSize).sum = s.ringSize c + (l1.map s.ringSize).sum := by
      rw [List.map_cons, List.sum_cons]
    have split {l1 : List Camera} {d : Camera} {l2 : List Camera} (e : c :: l = l1 ++ d :: l2) :
        (l1 = [] ∧ d = c) ∨ ∃ l1', l1 = c :: l1' ∧ l = l1' ++ d :: l2 := by
      cases l1 with
      | nil =>
        cases e
        exact .inl ⟨rfl, rfl⟩
      | cons x l1 =>
        cases e
        exact .inr ⟨l1, rfl, rfl⟩
    have apart (k : Nat) (hk : k ∈ s.freeSlots.take (s.ringSize c)) : k ∉ s.freeSlots.drop (s.ringSize c) := by
      have both : (s.freeSlots.take (s.ringSize c) ++ s.freeSlots.drop (s.ringSize c)).Nodup := by
        rw [List.take_append_drop]
        exact s.nodup_freeSlots
      exact fun h => (List.nodup_append.1 both).2.2 k hk k h rfl
    refine ⟨length'.trans length, ?_, fun k hk => ?_, fun k zero => ?_, fun d hd => ?_, fun l1 d l2 e => ?_,
      fun l1 d l2 e k hk => ?_⟩
    · rw [free', List.drop_drop, place]
    · rw [place, List.take_add, List.mem_append, not_or] at hk
      rw [rest k hk.2, beyond k hk.1]
    · refine pins k ?_
      by_cases hk : k ∈ s.freeSlots.take (s.ringSize c)
      · rw [within k hk]
        exact builtSlot_pins ..
      · rw [beyond k hk, zero]
    · rw [others d (List.not_mem_of_not_mem_cons hd), ring d (List.ne_of_not_mem_cons hd)]
    · rcases split e with ⟨rfl, rfl⟩ | ⟨l1, rfl, inside⟩
      · rw [others d new, rings, upd_getElem_self]
        rfl
      · rw [rings' l1 d l2 inside, ring d (other d (by rw [inside]; simp)), List.drop_drop, place]
    · rcases split e with ⟨rfl, rfl⟩ | ⟨l1, rfl, inside⟩
      · rw [rest k fun h => apart k hk (List.mem_of_mem_take h)]
        exact within k hk
      · rw [place, ← List.drop_drop] at hk ⊢
        exact slots l1 d l2 inside k hk

/-! ### The warm restart -/

/-- The cameras before `c`, `c` and the cameras behind it. -/
theorem finRange_split : ∀ c : Camera, List.finRange 16 =
    (List.finRange 16).filter (· < c) ++ c :: (List.finRange 16).filter (c < ·) := by decide

/-- The slots that no hold has. -/
def State.unheld (s : State) : List Nat :=
  (List.range s.pool.slots.length).filter fun i => decide (∀ h : HoldId, (s.slot i).disp ≠ .held h)

theorem State.slotsCleared_freeSlots (s : State) : s.slotsCleared.freeSlots = s.unheld := by
  unfold State.freeSlots State.unheld
  rw [s.slotsCleared_length]
  refine List.filter_congr fun i _ => ?_
  rw [Bool.eq_iff_iff, decide_eq_true_iff, decide_eq_true_iff, s.slotsCleared_slot]
  rcases (s.slot i).restarted_cases with ⟨h, held, after⟩ | ⟨other, after⟩
  · rw [after, held]
    exact ⟨nofun, fun e => absurd rfl (e h)⟩
  · rw [after]
    exact ⟨fun _ => other, fun _ => rfl⟩

theorem State.slotsRestart_lowest (s : State) :
    LowestTaken s.slotsCleared s.slotsRestart (List.finRange 16) := by
  rw [s.slotsRestart_eq]
  refine State.buildRings_lowest (List.nodup_finRange 16) fun c _ => ?_
  rw [s.slotsCleared_ring]
  rfl

/-- The slots that the cameras before `c` take at a restart. -/
def State.slotsBefore (s : State) (c : Camera) : Nat := (((List.finRange 16).filter (· < c)).map s.ringSize).sum

/-- The slots of camera `c`'s ring behind a restart. -/
def State.restartSlots (s : State) (c : Camera) : List Nat := (s.unheld.drop (s.slotsBefore c)).take (s.ringSize c)

theorem State.slotsRestart_ring (s : State) (c : Camera) :
    s.slotsRestart.rings[c] = s.rings[c].restarted.built (s.restartSlots c) := by
  have taken := s.slotsRestart_lowest.rings _ c _ (finRange_split c)
  rw [s.slotsCleared_freeSlots, s.slotsCleared_ring] at taken
  exact taken

theorem State.slotsRestart_member (s : State) (c : Camera) {k : Nat} (hk : k ∈ s.restartSlots c) :
    s.slotsRestart.slot k = builtSlot c (s.restartSlots c) k := by
  have taken := s.slotsRestart_lowest.slots _ c _ (finRange_split c)
  rw [s.slotsCleared_freeSlots] at taken
  exact taken k hk

/-- A HELD slot keeps its record but for the pins. -/
theorem State.slotsRestart_held (s : State) {i : Nat} {h : HoldId} (held : (s.slot i).disp = .held h) :
    s.slotsRestart.slot i = { s.slot i with pins := 0 } := by
  rw [s.slotsRestart_lowest.rest i fun free => ?_, s.slotsCleared_slot, SlotRec.restarted_held held]
  have := (State.mem_freeSlots.1 (List.mem_of_mem_take free)).2
  rw [s.slotsCleared_slot, SlotRec.restarted_held held] at this
  exact nomatch held.symm.trans this

/-- Every slot that no ring has taken and no hold has is FREE. -/
theorem State.slotsRestart_free (s : State) {i : Nat}
    (hi : i ∈ s.unheld.drop ((List.finRange 16).map s.ringSize).sum) : s.slotsRestart.slot i = .fresh := by
  have unheld : ∀ h, (s.slot i).disp ≠ .held h := of_decide_eq_true (List.mem_filter.1 (List.mem_of_mem_drop hi)).2
  have sizes : s.slotsCleared.ringSize = s.ringSize := State.ringSize_congr rfl
  have both := s.slotsCleared.nodup_freeSlots
  rw [← List.take_append_drop ((List.finRange 16).map s.ringSize).sum s.slotsCleared.freeSlots,
    s.slotsCleared_freeSlots] at both
  rw [s.slotsRestart_lowest.rest i fun taken => ?_, s.slotsCleared_slot, SlotRec.restarted_fresh unheld]
  rw [sizes, s.slotsCleared_freeSlots] at taken
  exact (List.nodup_append.1 both).2.2 i taken i hi rfl

theorem State.slotsRestart_pins (s : State) (i : Nat) : (s.slotsRestart.slot i).pins = 0 :=
  s.slotsRestart_lowest.pins i (by rw [s.slotsCleared_slot, SlotRec.restarted_pins])

theorem State.slotsRestart_length (s : State) : s.slotsRestart.pool.slots.length = s.pool.slots.length :=
  s.slotsRestart_lowest.length.trans s.slotsCleared_length

/-- Under the laws of the pool every enabled camera finds its k slots. -/
theorem State.restartSlots_length (laws : s.poolLaws) (c : Camera) : (s.restartSlots c).length = s.ringSize c := by
  obtain ⟨core, sized⟩ := State.poolLaws_iff.1 laws
  have enough := State.slotsCleared_enough (strict := False) ⟨core, sized, False.elim, False.elim⟩
  have count : s.slotsCleared.freeCount = s.unheld.length := by
    rw [← s.slotsCleared_freeSlots, State.freeCount_eq, List.countP_eq_length_filter]
    rfl
  have split : (List.finRange 16).map s.ringSize = ((List.finRange 16).filter (· < c)).map s.ringSize
      ++ s.ringSize c :: ((List.finRange 16).filter (c < ·)).map s.ringSize := by
    conv_lhs => rw [finRange_split c]
    rw [List.map_append, List.map_cons]
  rw [count, split, List.sum_append, List.sum_cons] at enough
  unfold State.restartSlots State.slotsBefore
  rw [List.length_take, List.length_drop]
  omega

end

end Sys2Proof.Machine
end

section
/-! What a warm restart does in each block (R40, R70, R115, R142): records and reports. -/

namespace Sys2Proof.Machine

set_option Elab.async false

/-! ### Camera by camera -/

/-- An operation camera by camera, each of which changes its own record and reports what its record says. -/
theorem cameras_foldl {β : Type} {get : State → Vector β 16} {f : State → Camera → State} {good : State → Prop}
    {records : Vector β 16} {g : Camera → β × List Report}
    (step : ∀ u c, good u → (get u)[c] = records[c] →
      Logged (g c).2 u (f u c) ∧ get (f u c) = upd (get u) c (g c).1 ∧ good (f u c))
    {l : List Camera} (nodup : l.Nodup) {u : State} (here : good u) (fresh : ∀ c ∈ l, (get u)[c] = records[c]) :
    Logged (l.flatMap fun c => (g c).2) u (l.foldl f u)
      ∧ ∀ d : Camera, (get (l.foldl f u))[d] = if d ∈ l then (g d).1 else (get u)[d] := by
  induction l generalizing u with
  | nil => exact ⟨.refl u, fun d => (if_neg List.not_mem_nil).symm⟩
  | cons c l ih =>
    obtain ⟨new, nodup⟩ := List.nodup_cons.1 nodup
    obtain ⟨log, stored, still⟩ := step u c here (fresh c (List.mem_cons_self ..))
    obtain ⟨later, records'⟩ := ih nodup still fun d hd => by
      rw [stored, upd_getElem_of_ne _ _ fun e => new (by rw [← e]; exact hd)]
      exact fresh d (List.mem_cons_of_mem _ hd)
    refine ⟨log.trans later, fun d => ?_⟩
    rw [List.foldl_cons, records', stored]
    by_cases hd : d ∈ l
    · rw [if_pos hd, if_pos (List.mem_cons_of_mem _ hd)]
    · rw [if_neg hd]
      by_cases own : d = c
      · subst own
        rw [upd_getElem_self, if_pos (List.mem_cons_self ..)]
      · rw [upd_getElem_of_ne _ _ own, if_neg fun e => (List.mem_cons.1 e).elim own hd]

section
variable (s : State)

theorem State.cadenceRestart_told :
    Logged ((List.finRange 16).flatMap fun c : Camera =>
        (cadenceRestarted c s.cameras[c].enable s.time s.cadence[c]).2) s s.cadenceRestart
      ∧ ∀ c : Camera, s.cadenceRestart.cadence[c] = (cadenceRestarted c s.cameras[c].enable s.time s.cadence[c]).1 := by
  have told := cameras_foldl (get := State.cadence) (good := fun u => u.cameras = s.cameras ∧ u.time = s.time)
    (records := s.cadence) (g := fun c => cadenceRestarted c s.cameras[c].enable s.time s.cadence[c])
    (f := fun u c => u.cadenceTo c (cadenceRestarted c u.cameras[c].enable u.time u.cadence[c]))
    (fun u c ⟨cameras, time⟩ fresh => by
      have e := u.cadenceTo_effect c (cadenceRestarted c s.cameras[c].enable s.time s.cadence[c])
      rw [fresh, cameras, time]
      exact ⟨State.cadenceTo_logged .., State.cadenceTo_cadence .., (e.same .cameras).trans cameras,
        (e.same .time).trans time⟩) (List.nodup_finRange 16) (u := s) ⟨rfl, rfl⟩ fun _ _ => rfl
  exact ⟨told.1, fun c => (told.2 c).trans (if_pos (List.mem_finRange c))⟩

theorem State.lensRestart_told :
    Logged ((List.finRange 16).flatMap fun c : Camera => (lensRestarted c s.lens[c]).2) s s.lensRestart
      ∧ ∀ c : Camera, s.lensRestart.lens[c] = (lensRestarted c s.lens[c]).1 := by
  have told := cameras_foldl (get := State.lens) (good := fun _ => True)
    (records := s.lens) (g := fun c => lensRestarted c s.lens[c])
    (f := fun u c => u.lensTo c (lensRestarted c u.lens[c]))
    (fun u c _ fresh => by
      rw [fresh]
      exact ⟨State.lensTo_logged .., State.lensTo_lens .., trivial⟩) (List.nodup_finRange 16) (u := s) trivial
    fun _ _ => rfl
  exact ⟨told.1, fun c => (told.2 c).trans (if_pos (List.mem_finRange c))⟩

end

/-! ### The Lens Monitor -/

theorem lensRestarted_reports (c : Camera) (l : LensRec) : (lensRestarted c l).2 =
    (if l.learn = .idle then [] else [.learnEnd c (.discarded .restart) l.learned l.candidates none])
      ++ if l.baseline ≠ none ∧ (l.state = .part ∨ l.state = .obscured) then
          [.lens c l.state .clean .restart none] else [] := by
  unfold lensRestarted discardRun verdictRestart
  by_cases idle : l.learn = .idle <;> cases base : l.baseline <;> simp [idle, LensRec.learnIdle]

/-- A lens record behind a restart: the run is discarded and a baseline's verdict starts over. -/
theorem lensRestarted_record (c : Camera) (l : LensRec) :
    (lensRestarted c l).1.acc = none ∧ (lensRestarted c l).1.eligible = 0 ∧ (lensRestarted c l).1.learn = .idle
      ∧ (lensRestarted c l).1.baseline = l.baseline ∧ (lensRestarted c l).1.usableCount = l.usableCount
      ∧ (l.learn ≠ .idle → (lensRestarted c l).1.noRun)
      ∧ (l.baseline ≠ none → (lensRestarted c l).1.state = .clean ∧ (lensRestarted c l).1.verdictFresh)
      ∧ (l.baseline = none → (lensRestarted c l).1.state = l.state ∧ (lensRestarted c l).1.scores = l.scores
          ∧ (lensRestarted c l).1.flags = l.flags ∧ (lensRestarted c l).1.history = l.history) := by
  have run : ∀ x : LensRec, x.learn = .idle ∧ x.sums = Vector.replicate 48 0 ∧ x.learned = 0 ∧ x.candidates = 0 →
      x.noRun := fun x ⟨learn, sums, learned, candidates⟩ =>
    ⟨learn, learned, candidates, fun z => by rw [sums, get_replicate]⟩
  have fresh : ∀ x : LensRec, x.scores = Vector.replicate 48 256 ∧ x.flags = Vector.replicate 48 false
      ∧ x.history = [] → x.verdictFresh := fun x ⟨scores, flags, history⟩ =>
    ⟨fun z => by rw [scores, flags, get_replicate, get_replicate]; exact ⟨rfl, rfl⟩, history⟩
  unfold lensRestarted discardRun verdictRestart
  by_cases idle : l.learn = .idle
  · rw [if_pos idle]
    cases base : l.baseline with
    | none => exact ⟨rfl, rfl, idle, rfl, rfl, fun h => absurd idle h, fun h => absurd rfl h, fun _ => ⟨rfl, rfl,
      rfl, rfl⟩⟩
    | some b => exact ⟨rfl, rfl, idle, rfl, rfl, fun h => absurd idle h, fun _ => ⟨rfl, fresh _ ⟨rfl, rfl, rfl⟩⟩, nofun⟩
  · rw [if_neg idle]
    cases base : l.baseline with
    | none =>
      exact ⟨rfl, rfl, rfl, rfl, rfl, fun _ => run _ ⟨rfl, rfl, rfl, rfl⟩, fun h => absurd rfl h,
        fun _ => ⟨rfl, rfl, rfl, rfl⟩⟩
    | some b =>
      exact ⟨rfl, rfl, rfl, rfl, rfl, fun _ => run _ ⟨rfl, rfl, rfl, rfl⟩,
        fun _ => ⟨rfl, fresh _ ⟨rfl, rfl, rfl⟩⟩, nofun⟩

/-! ### The Door Line Unit -/

/-- The door unit behind a restart, before the states of the enabled doors. -/
def DoorUnit.cleared (x : DoorUnit) (now : Time) : DoorUnit :=
  { x with
    lastSample := now, opens := Vector.replicate 12 .unknown, alerts := Vector.replicate 12 .unknown,
      reverse := .unknown }

/-- A door's state behind a restart. -/
def State.doorRestarted (s : State) (d : Door) : DoorState :=
  if s.doors[d].enable then .unknown else s.doorUnit.states.get d

theorem State.setDoorState_self (s : State) (d : Door) (cause : DoorCause) :
    s.setDoorState d (s.doorUnit.states.get d) cause = s := by
  have same : upd s.doorUnit.states d (s.doorUnit.states.get d) = s.doorUnit.states := Vector.set_getElem_self _
  unfold State.setDoorState
  dsimp only
  rw [if_pos rfl, same]

/-- The part with its door unit cleared and the states of all doors stored. -/
def State.doorsCleared (s : State) : State :=
  { s with doorUnit :=
      ((List.finRange 12).foldl (fun x d => x.stored d (s.doorRestarted d)) (s.doorUnit.cleared s.time)) }

theorem State.doorsRestart_eq (s : State) : s.doorsRestart = s.doorsCleared.emitAll
    ((List.finRange 12).flatMap fun d => doorReports d (s.doorUnit.states.get d) (s.doorRestarted d) .restart) := by
  have unfolded : s.doorsRestart = (List.finRange 12).foldl
      (fun s (d : Door) => if s.doors[d].enable then s.setDoorState d .unknown .restart else s)
      { s with doorUnit := s.doorUnit.cleared s.time } := rfl
  rw [unfolded]
  have one (u : State) (d : Door) (doors : u.doors = s.doors)
      (off : ∀ d : Door, s.doors[d].enable = false → u.doorUnit.states.get d = s.doorUnit.states.get d) :
      (if u.doors[d].enable then u.setDoorState d .unknown .restart else u)
        = u.setDoorState d (s.doorRestarted d) .restart := by
    rw [doors]
    unfold State.doorRestarted
    by_cases on : s.doors[d].enable = true
    · rw [if_pos on, if_pos on]
    · rw [if_neg on, if_neg on, ← off d (Bool.eq_false_of_not_eq_true on), u.setDoorState_self]
  refine doorStates_foldl (u := { s with doorUnit := s.doorUnit.cleared s.time })
    (good := fun u => u.doors = s.doors ∧ ∀ d : Door, s.doors[d].enable = false →
      u.doorUnit.states.get d = s.doorUnit.states.get d)
    (fun u d ⟨doors, off⟩ => one u d doors off) (fun u d ⟨doors, off⟩ => ?_) _ (List.nodup_finRange 12) ⟨rfl,
      fun _ _ => rfl⟩
  rw [one u d doors off, State.setDoorState_eq, State.emitAll_doors, State.emitAll_doorUnit]
  refine ⟨doors, fun e he => ?_⟩
  by_cases own : e = d
  · subst own
    refine (upd_get_self ..).trans ?_
    unfold State.doorRestarted
    rw [he]
    rfl
  · exact (upd_get_of_ne _ _ own).trans (off e he)

theorem State.doorsRestart_told (s : State) :
    Logged ((List.finRange 12).flatMap fun d : Door =>
        if s.doors[d].enable = true ∧ s.doorUnit.states.get d ≠ .unknown then
          [.door d (s.doorUnit.states.get d) .unknown .restart] else []) s s.doorsRestart
      ∧ (∀ d : Door, s.doorsRestart.doorUnit.opens.get d = .unknown ∧ s.doorsRestart.doorUnit.alerts.get d = .unknown
          ∧ s.doorsRestart.doorUnit.states.get d = s.doorRestarted d)
      ∧ s.doorsRestart.doorUnit.reverse = .unknown ∧ s.doorsRestart.doorUnit.lastSample = s.time := by
  have reports : (fun d : Door => if s.doors[d].enable = true ∧ s.doorUnit.states.get d ≠ .unknown then
      [Report.door d (s.doorUnit.states.get d) .unknown .restart] else [])
      = fun d => doorReports d (s.doorUnit.states.get d) (s.doorRestarted d) .restart := by
    funext d
    unfold doorReports State.doorRestarted
    by_cases on : s.doors[d].enable = true
    · rw [if_pos on]
      by_cases same : s.doorUnit.states.get d = .unknown
      · rw [if_neg fun h => h.2 same, if_pos same]
      · rw [if_pos ⟨on, same⟩, if_neg same]
    · rw [if_neg on, if_neg fun h => on h.1, if_pos rfl]
  rw [s.doorsRestart_eq, State.emitAll_doorUnit, reports]
  have debouncers := stored_foldl_debouncers (form := s.doorRestarted) (List.finRange 12) (s.doorUnit.cleared s.time)
  refine ⟨Logged.trans (rs := []) (t := s.doorsCleared) ⟨rfl, rfl, rfl⟩ (.emitAll _ _), fun d => ?_, ?_, ?_⟩
  · unfold State.doorsCleared
    rw [stored_foldl_states, if_pos (List.mem_finRange d), debouncers]
    exact ⟨get_replicate .., get_replicate .., rfl⟩
  · unfold State.doorsCleared
    rw [debouncers]
    rfl
  · unfold State.doorsCleared
    rw [debouncers]
    rfl

/-! ### The holds -/

/-- A hold behind a disable or a restart: completed SHORT where it was COLLECTING and is one of those named. -/
def Hold.shortened (which : Hold → Bool) (cause : HoldCause) (x : Hold) : Hold :=
  if x.state = .collecting ∧ which x then x.completed cause true else x

/-- The reports of the holds `l` that complete SHORT. -/
def HoldUnit.shortReports (u : HoldUnit) (which : Hold → Bool) (cause : HoldCause) (l : List HoldId) : List Report :=
  l.filterMap fun h => (u.table.get h).bind fun x =>
    if x.state = .collecting ∧ which x then some (.holdComplete h (x.completed cause true)) else none

section
variable {which : Hold → Bool} {cause : HoldCause}

/-- One hold that completes SHORT where it is named. -/
def State.shortHold (which : Hold → Bool) (cause : HoldCause) (s : State) (h : HoldId) : State :=
  match s.holds.table.get h with
  | some x => if x.state = .collecting ∧ which x then s.completeHold h x cause true else s
  | none => s

theorem State.shortHold_told (s : State) (h : HoldId) :
    Logged (s.holds.shortReports which cause [h]) s (s.shortHold which cause h)
      ∧ (s.shortHold which cause h).holds = { s.holds with
        table := upd s.holds.table h ((s.holds.table.get h).map (Hold.shortened which cause)) } := by
  have keep : (s.holds.table.get h).map (Hold.shortened which cause) = s.holds.table.get h →
      s.holds = { s.holds with
        table := upd s.holds.table h ((s.holds.table.get h).map (Hold.shortened which cause)) } := fun same => by
    rw [same]
    exact congrArg (fun v => { s.holds with table := v }) (Vector.set_getElem_self _).symm
  unfold State.shortHold HoldUnit.shortReports
  cases present : s.holds.table.get h with
  | none =>
    rw [present] at keep
    simp only [List.filterMap_cons, present, Option.bind_none, List.filterMap_nil]
    exact ⟨.refl s, keep rfl⟩
  | some x =>
    rw [present] at keep
    by_cases named : x.state = .collecting ∧ which x
    · have after : x.shortened which cause = x.completed cause true := if_pos named
      simp only [List.filterMap_cons, present, Option.bind_some, if_pos named, List.filterMap_nil]
      rw [Option.map_some, after]
      refine ⟨s.completeHold_logged h x cause true, ?_⟩
      unfold State.completeHold
      rw [State.emit_holds]
      rfl
    · have after : x.shortened which cause = x := if_neg named
      simp only [List.filterMap_cons, present, Option.bind_some, if_neg named, List.filterMap_nil]
      exact ⟨.refl s, keep (by rw [Option.map_some, after])⟩

theorem State.shortHolds_told {l : List HoldId} (nodup : l.Nodup) (s : State) :
    Logged (s.holds.shortReports which cause l) s (l.foldl (State.shortHold which cause) s)
      ∧ (l.foldl (State.shortHold which cause) s).holds.lock = s.holds.lock
      ∧ (l.foldl (State.shortHold which cause) s).holds.order = s.holds.order
      ∧ ∀ h, (l.foldl (State.shortHold which cause) s).holds.table.get h =
          if h ∈ l then (s.holds.table.get h).map (Hold.shortened which cause) else s.holds.table.get h := by
  induction l generalizing s with
  | nil => exact ⟨.refl s, rfl, rfl, fun h => (if_neg List.not_mem_nil).symm⟩
  | cons h l ih =>
    obtain ⟨new, nodup⟩ := List.nodup_cons.1 nodup
    obtain ⟨log, holds⟩ := s.shortHold_told (which := which) (cause := cause) h
    obtain ⟨later, lock, order, table⟩ := ih nodup (s.shortHold which cause h)
    have others (k : HoldId) (hk : k ≠ h) : (s.shortHold which cause h).holds.table.get k = s.holds.table.get k := by
      rw [holds]
      exact upd_get_of_ne _ _ hk
    have reports : (s.shortHold which cause h).holds.shortReports which cause l = s.holds.shortReports which cause l :=
      List.filterMap_congr fun k hk => by rw [others k fun e => new (by rw [← e]; exact hk)]
    rw [reports] at later
    refine ⟨?_, lock.trans (by rw [holds]), order.trans (by rw [holds]), fun k => ?_⟩
    · have split : s.holds.shortReports which cause (h :: l) =
          s.holds.shortReports which cause [h] ++ s.holds.shortReports which cause l :=
        List.filterMap_append (l := [h]) ..
      rw [split]
      exact log.trans later
    · rw [List.foldl_cons, table]
      by_cases own : k = h
      · subst own
        rw [if_neg new, if_pos (List.mem_cons_self ..), holds]
        exact upd_get_self ..
      · rw [others k own]
        exact if_congr (by simp [own]) rfl rfl

/-- The holds that complete SHORT at a disable or a restart, in the order of creation (R142, R151). -/
theorem State.completeShort_told {s : State} (nodup : s.holds.order.Nodup) :
    Logged (s.holds.shortReports which cause s.holds.order) s (s.completeShort which cause)
      ∧ (s.completeShort which cause).holds.lock = s.holds.lock
      ∧ (s.completeShort which cause).holds.order = s.holds.order
      ∧ ∀ h, (s.completeShort which cause).holds.table.get h =
          if h ∈ s.holds.order then (s.holds.table.get h).map (Hold.shortened which cause) else s.holds.table.get h :=
  s.shortHolds_told nodup

end

/-- A hold behind a restart: completed SHORT while it was COLLECTING. -/
def Hold.restarted (x : Hold) : Hold :=
  if x.state = .collecting then { x with state := .complete, short := true, cause := some .restart } else x

/-- The reports of the holds `l` at a restart. -/
def HoldUnit.restartReports (u : HoldUnit) (l : List HoldId) : List Report :=
  l.filterMap fun h => (u.table.get h).bind fun x =>
    if x.state = .collecting then some (.holdComplete h x.restarted) else none

theorem Hold.shortened_restart : Hold.shortened (fun _ => true) .restart = Hold.restarted :=
  funext fun _ => if_congr (and_iff_left rfl) rfl rfl

theorem HoldUnit.shortReports_restart (u : HoldUnit) (l : List HoldId) :
    u.shortReports (fun _ => true) .restart l = u.restartReports l := by
  unfold HoldUnit.shortReports HoldUnit.restartReports Hold.restarted
  refine List.filterMap_congr fun h _ => congrArg _ (funext fun x => ?_)
  by_cases collecting : x.state = .collecting
  · rw [if_pos ⟨collecting, rfl⟩, if_pos collecting, if_pos collecting]
    rfl
  · rw [if_neg fun h => collecting h.1, if_neg collecting]

end Sys2Proof.Machine
end

section
/-! The warm restart (O28): the blocks one behind the other. -/

namespace Sys2Proof.Machine

set_option Elab.async false

/-! ### The part without its reports -/

theorem State.claimSlots_touches (n : Nat) (s : State) (c : Camera) : Touches [.pool] s (s.claimSlots c n).2 := by
  induction n generalizing s with
  | zero => exact .refl _ s
  | succ n ih =>
    unfold State.claimSlots
    split
    · rename_i i u claim
      obtain ⟨-, rfl⟩ := State.claimSlot_eq_some_iff.1 claim
      exact ((s.setSlot_touches _ _).trans (ih _)).mono (by decide)
    · exact .refl _ s

theorem State.buildRing_touches (s : State) (c : Camera) (n : Nat) :
    Touches [.pool, .rings] s (s.buildRing c n) := by
  have claims := s.claimSlots_touches n c
  unfold State.buildRing
  generalize s.claimSlots c n = x at claims ⊢
  obtain ⟨is, u⟩ := x
  cases is with
  | nil => exact (claims.trans (u.setRing_touches c _)).mono (by decide)
  | cons i is => exact ((claims.trans (u.setRing_touches c _)).trans (State.setSlot_touches _ i _)).mono (by decide)

theorem State.slotsRestart_touches (s : State) : Touches [.pool, .rings] s s.slotsRestart := by
  have cleared : Touches [.pool, .rings] s s.slotsCleared := by
    intro p hp
    cases p <;> first | rfl | exact absurd (by decide) hp
  rw [s.slotsRestart_eq]
  refine cleared.seq (.foldl (fun u c => ?_) _ _)
  exact .ite (fun _ => u.buildRing_touches c _) fun _ => .refl _ u

/-! ### The blocks behind the Slot Manager -/

section
variable (s : State)

/-- The restart from the Evidence Hold Unit on. -/
def State.restartFromHolds : State :=
  { s.completeShort (fun _ => true) .restart with episodes := Vector.replicate 7 none }

/-- The restart from the Spotlight Unit on. -/
def State.restartFromSpots : State := s.spotsRestart.restartFromHolds

/-- The restart from the Door Line Unit on. -/
def State.restartFromDoors : State := s.doorsRestart.restartFromSpots

/-- The restart from the Screen Composer on. -/
def State.restartFromScreens : State := { s with contexts := Vector.replicate 4 none }.restartFromDoors

/-- The restart from the Lens Monitor on. -/
def State.restartFromLens : State := s.lensRestart.restartFromScreens

/-- The restart from the Cadence Monitor on. -/
def State.restartFromCadence : State := s.cadenceRestart.restartFromLens

theorem State.restartBlocks_eq : s.restartBlocks = s.slotsRestart.restartFromCadence := rfl

theorem State.restartFromHolds_effect : Effect [.holds, .episodes] s s.restartFromHolds :=
  (s.completeShort_effect _ _).trans (State.withEpisodes_effect _ _)

theorem State.restartFromSpots_effect : Effect [.spots, .holds, .episodes] s s.restartFromSpots :=
  s.spotsRestart_effect.trans (State.restartFromHolds_effect _)

theorem State.restartFromDoors_effect : Effect [.doorUnit, .spots, .holds, .episodes] s s.restartFromDoors :=
  s.doorsRestart_effect.trans (State.restartFromSpots_effect _)

theorem State.restartFromScreens_effect :
    Effect [.contexts, .doorUnit, .spots, .holds, .episodes] s s.restartFromScreens :=
  (s.withContexts_effect _).trans (State.restartFromDoors_effect _)

theorem State.restartFromLens_effect :
    Effect [.lens, .contexts, .doorUnit, .spots, .holds, .episodes] s s.restartFromLens :=
  s.lensRestart_effect.trans (State.restartFromScreens_effect _)

theorem State.restartFromCadence_effect :
    Effect [.cadence, .lens, .contexts, .doorUnit, .spots, .holds, .episodes] s s.restartFromCadence :=
  s.cadenceRestart_effect.trans (State.restartFromLens_effect _)

/-- The reports of the holds, of the door unit, of the Lens Monitor and of the Cadence Monitor at a restart. -/
def State.restartDoorReports : List Report :=
  (List.finRange 12).flatMap fun d : Door =>
    if s.doors[d].enable = true ∧ s.doorUnit.states.get d ≠ .unknown then
      [.door d (s.doorUnit.states.get d) .unknown .restart] else []

def State.restartLensReports : List Report :=
  (List.finRange 16).flatMap fun c : Camera => (lensRestarted c s.lens[c]).2

def State.restartCadenceReports : List Report :=
  (List.finRange 16).flatMap fun c : Camera => (cadenceRestarted c s.cameras[c].enable s.time s.cadence[c]).2

variable (nodup : s.holds.order.Nodup)
include nodup

theorem State.restartFromHolds_told : Logged (s.holds.restartReports s.holds.order) s s.restartFromHolds
    ∧ s.restartFromHolds.holds.lock = s.holds.lock ∧ s.restartFromHolds.holds.order = s.holds.order
    ∧ ∀ h, s.restartFromHolds.holds.table.get h =
        if h ∈ s.holds.order then (s.holds.table.get h).map Hold.restarted else s.holds.table.get h := by
  have told := State.completeShort_told (which := fun _ => true) (cause := .restart) nodup
  rw [Hold.shortened_restart, HoldUnit.shortReports_restart] at told
  exact told

theorem State.restartFromSpots_logged : Logged (s.holds.restartReports s.holds.order) s s.restartFromSpots := by
  have later := (State.restartFromHolds_told s.spotsRestart nodup).1
  exact Logged.trans (rs := []) (t := s.spotsRestart) ⟨rfl, rfl, rfl⟩ later

theorem State.restartFromDoors_logged :
    Logged (s.restartDoorReports ++ s.holds.restartReports s.holds.order) s s.restartFromDoors := by
  have holds : s.doorsRestart.holds = s.holds := s.doorsRestart_effect.same .holds
  have later := s.doorsRestart.restartFromSpots_logged (by rw [holds]; exact nodup)
  rw [holds] at later
  exact s.doorsRestart_told.1.trans later

theorem State.restartFromScreens_logged :
    Logged (s.restartDoorReports ++ s.holds.restartReports s.holds.order) s s.restartFromScreens := by
  have later := State.restartFromDoors_logged { s with contexts := Vector.replicate 4 none } nodup
  exact Logged.trans (rs := []) (t := { s with contexts := Vector.replicate 4 none }) ⟨rfl, rfl, rfl⟩ later

theorem State.restartFromLens_logged :
    Logged (s.restartLensReports ++ (s.restartDoorReports ++ s.holds.restartReports s.holds.order)) s
      s.restartFromLens := by
  have e := s.lensRestart_effect
  have log := s.lensRestart_told.1
  unfold State.restartFromLens
  generalize s.lensRestart = u at e log ⊢
  have holds : u.holds = s.holds := e.same .holds
  have doors : u.restartDoorReports = s.restartDoorReports := by
    unfold State.restartDoorReports
    rw [show u.doors = s.doors from e.same .doors, show u.doorUnit = s.doorUnit from e.same .doorUnit]
  have later := u.restartFromScreens_logged (by rw [holds]; exact nodup)
  rw [holds, doors] at later
  exact log.trans later

theorem State.restartFromCadence_logged :
    Logged (s.restartCadenceReports ++ (s.restartLensReports ++ (s.restartDoorReports
      ++ s.holds.restartReports s.holds.order))) s s.restartFromCadence := by
  have e := s.cadenceRestart_effect
  have log := s.cadenceRestart_told.1
  unfold State.restartFromCadence
  generalize s.cadenceRestart = u at e log ⊢
  have holds : u.holds = s.holds := e.same .holds
  have doors : u.restartDoorReports = s.restartDoorReports := by
    unfold State.restartDoorReports
    rw [show u.doors = s.doors from e.same .doors, show u.doorUnit = s.doorUnit from e.same .doorUnit]
  have lens : u.restartLensReports = s.restartLensReports := by
    unfold State.restartLensReports
    rw [show u.lens = s.lens from e.same .lens]
  have later := u.restartFromLens_logged (by rw [holds]; exact nodup)
  rw [holds, doors, lens] at later
  exact log.trans later

end

end Sys2Proof.Machine
end

section
/-! The warm restart (O28): what it leaves, block by block, and its answer. -/

namespace Sys2Proof.Machine

set_option Elab.async false

section
variable {s v : State}

/-! ### Records behind the blocks -/

theorem State.restartFromCadence_cadence (v : State) (c : Camera) : v.restartFromCadence.cadence[c] =
    (cadenceRestarted c v.cameras[c].enable v.time v.cadence[c]).1 := by
  rw [← v.cadenceRestart_told.2 c]
  exact congrArg (fun x : Vector CadenceRec 16 => x[c]) (v.cadenceRestart.restartFromLens_effect.same .cadence)

theorem State.restartFromCadence_lens (v : State) (c : Camera) :
    v.restartFromCadence.lens[c] = (lensRestarted c v.lens[c]).1 := by
  have e := v.cadenceRestart_effect
  unfold State.restartFromCadence
  generalize v.cadenceRestart = u at e ⊢
  rw [← show u.lens = v.lens from e.same .lens, ← u.lensRestart_told.2 c]
  exact congrArg (fun x : Vector LensRec 16 => x[c]) (u.lensRestart.restartFromScreens_effect.same .lens)

/-- The part before its screens' contexts go. -/
theorem State.restartFromCadence_eq (v : State) :
    v.restartFromCadence = v.cadenceRestart.lensRestart.restartFromScreens := rfl

theorem State.restartFromCadence_contexts (v : State) (i : Screen) : v.restartFromCadence.contexts[i] = none := by
  rw [v.restartFromCadence_eq]
  generalize v.cadenceRestart.lensRestart = u
  have contexts : u.restartFromScreens.contexts = Vector.replicate 4 none :=
    Effect.same (s := { u with contexts := Vector.replicate 4 none }) (State.restartFromDoors_effect _) .contexts
  rw [contexts]
  exact Vector.getElem_replicate i.isLt

theorem State.restartFromCadence_spots (v : State) (i : Screen) :
    v.restartFromCadence.spots[i].entries = [] ∧ v.restartFromCadence.spots[i].counting = none := by
  rw [v.restartFromCadence_eq]
  unfold State.restartFromScreens State.restartFromDoors State.restartFromSpots
  generalize State.doorsRestart _ = u
  have spots : u.spotsRestart.restartFromHolds.spots = u.spotsRestart.spots :=
    u.spotsRestart.restartFromHolds_effect.same .spots
  have own : u.spotsRestart.spots[i] = { u.spots[i] with entries := [], counting := none } := by
    show (Vector.ofFn fun i : Fin 4 => { u.spots[i] with entries := [], counting := none })[i] = _
    rw [Fin.getElem_fin, Vector.getElem_ofFn]
  rw [spots, own]
  exact ⟨rfl, rfl⟩

theorem State.restartFromCadence_doors (v : State) :
    (∀ d : Door, v.restartFromCadence.doorUnit.opens.get d = .unknown
        ∧ v.restartFromCadence.doorUnit.alerts.get d = .unknown
        ∧ (v.doors[d].enable = true → v.restartFromCadence.doorUnit.states.get d = .unknown)
        ∧ (v.doors[d].enable = false → v.restartFromCadence.doorUnit.states.get d = v.doorUnit.states.get d))
      ∧ v.restartFromCadence.doorUnit.reverse = .unknown ∧ v.restartFromCadence.doorUnit.lastSample = v.time := by
  have monitors := v.cadenceRestart_effect.trans v.cadenceRestart.lensRestart_effect
  rw [v.restartFromCadence_eq]
  generalize v.cadenceRestart.lensRestart = u at monitors ⊢
  have unit : u.restartFromScreens.doorUnit = { u with contexts := Vector.replicate 4 none }.doorsRestart.doorUnit :=
    (State.restartFromSpots_effect _).same .doorUnit
  obtain ⟨-, doors, reverse, sample⟩ := State.doorsRestart_told { u with contexts := Vector.replicate 4 none }
  have restarted (d : Door) : State.doorRestarted { u with contexts := Vector.replicate 4 none } d
      = v.doorRestarted d := by
    unfold State.doorRestarted
    show (if u.doors[d].enable then _ else u.doorUnit.states.get d) = _
    rw [show u.doors = v.doors from monitors.same .doors, show u.doorUnit = v.doorUnit from monitors.same .doorUnit]
  rw [unit]
  refine ⟨fun d => ?_, reverse, sample.trans (monitors.same .time)⟩
  obtain ⟨opens, alerts, state⟩ := doors d
  rw [restarted] at state
  unfold State.doorRestarted at state
  exact ⟨opens, alerts, fun on => by rw [state, if_pos on], fun off => by rw [state, off]; rfl⟩

theorem State.restartFromCadence_holds (nodup : v.holds.order.Nodup) :
    v.restartFromCadence.holds.lock = v.holds.lock ∧ v.restartFromCadence.holds.order = v.holds.order
      ∧ ∀ h, v.restartFromCadence.holds.table.get h =
          if h ∈ v.holds.order then (v.holds.table.get h).map Hold.restarted else v.holds.table.get h := by
  have before : ∃ u : State, u.holds = v.holds ∧ v.restartFromCadence = u.restartFromHolds := by
    have e := (v.cadenceRestart_effect.trans v.cadenceRestart.lensRestart_effect)
    rw [v.restartFromCadence_eq]
    generalize v.cadenceRestart.lensRestart = a at e ⊢
    have doors := (State.doorsRestart_effect { a with contexts := Vector.replicate 4 none }).trans
      (State.spotsRestart_effect _)
    exact ⟨_, (doors.same .holds).trans (e.same .holds), rfl⟩
  obtain ⟨u, holds, same⟩ := before
  have told := (u.restartFromHolds_told (by rw [holds]; exact nodup)).2
  rw [← same, holds] at told
  exact told

/-! ### The command -/

/-- The part when RESTART has been taken: the tag, the staging and an APPLYING wait (R174). -/
def State.restartTaken (s : State) (tag : Byte) : State :=
  (((s.takeTag tag).discardStaging).cutApplying s.engine.lastTag).setEngine
    { (((s.takeTag tag).discardStaging).cutApplying s.engine.lastTag).engine with state := .idle, pending := 0 }

theorem State.warmRestart_eq (s : State) (tag : Byte) : s.warmRestart tag =
    ((s.restartTaken tag).slotsRestart.restartFromCadence).finish 0x50 .done .none 0 0 := rfl

theorem State.restartTaken_effect (s : State) (tag : Byte) : Effect [.engine] s (s.restartTaken tag) :=
  Effect.mono ((((s.takeTag_effect tag).trans (State.discardStaging_effect _)).trans
    (State.cutApplying_effect _ _)).trans (State.setEngine_effect _ _)) (by decide)

/-- The report of a COMMIT that was APPLYING (R174). -/
def Engine.cutReports (e : Engine) : List Report :=
  if e.state = .applying then
    [.commandDone 0x02 e.lastTag .overtime .restarted (b8 e.load.table.code) (BitVec.ofNat 16 e.load.first)]
  else []

theorem State.restartTaken_logged (s : State) (tag : Byte) : Logged s.engine.cutReports s (s.restartTaken tag) := by
  have cut : Logged s.engine.cutReports ((s.takeTag tag).discardStaging)
      (((s.takeTag tag).discardStaging).cutApplying s.engine.lastTag) := by
    have state : ((s.takeTag tag).discardStaging).engine.state = s.engine.state := rfl
    unfold Engine.cutReports State.cutApplying
    rw [state]
    cases s.engine.state with
    | applying => exact Logged.trans (rs := []) (State.setEngine_logged _ _) (.emit _ _)
    | idle => exact .refl _
    | staging => exact .refl _
    | aborted => exact .refl _
  have before : Logged [] s (s.takeTag tag).discardStaging :=
    (State.setEngine_logged s _).trans (State.setEngine_logged _ _)
  have whole := (before.trans cut).trans (State.setEngine_logged _
    { (((s.takeTag tag).discardStaging).cutApplying s.engine.lastTag).engine with state := .idle, pending := 0 })
  rw [List.nil_append, List.append_nil] at whole
  exact whole

theorem State.restartTaken_engine (s : State) (tag : Byte) : ∃ result reason table index,
    (s.restartTaken tag).engine = { s.engine with
      lastTag := tag, buffer := Vector.replicate 256 0, staged := 0, state := .idle, pending := 0, result := result,
      reason := reason, table := table, index := index } := by
  obtain ⟨_, _, _, _, h⟩ := (s.takeTag tag).discardStaging.cutApplying_sameButResult s.engine.lastTag
  unfold State.restartTaken
  rw [State.setEngine_engine, h]
  exact ⟨_, _, _, _, rfl⟩

end

end Sys2Proof.Machine
end

section
/-! The warm restart (O28): the obligation. -/

namespace Sys2Proof.Machine

set_option Elab.async false

section
variable {s v : State}

/-! ### The statement's own terms -/

theorem State.restartCadenceReports_of (cameras : v.cameras = s.cameras) (cadence : v.cadence = s.cadence) :
    v.restartCadenceReports = (List.finRange 16).flatMap fun c : Camera =>
      if s.cameras[c].enable then
        (if s.cadence[c].state = .locked ∨ s.cadence[c].state = .stale then
            [.cadence c s.cadence[c].state .acquiring .restart none] else [])
          ++ (if s.cadence[c].frozen then [.frozen c false .restart none] else [])
      else [] := by
  unfold State.restartCadenceReports
  rw [cameras, cadence]
  refine List.flatMap_congr fun c _ => ?_
  unfold cadenceRestarted
  by_cases on : s.cameras[c].enable = true
  · rw [if_pos on, if_pos on]
  · rw [if_neg on, if_neg on]

theorem State.restartLensReports_of (lens : v.lens = s.lens) :
    v.restartLensReports = (List.finRange 16).flatMap fun c : Camera =>
      (if s.lens[c].learn = .idle then [] else
          [.learnEnd c (.discarded .restart) s.lens[c].learned s.lens[c].candidates none])
        ++ (if s.lens[c].baseline ≠ none ∧ (s.lens[c].state = .part ∨ s.lens[c].state = .obscured) then
            [.lens c s.lens[c].state .clean .restart none] else []) := by
  unfold State.restartLensReports
  rw [lens]
  exact List.flatMap_congr fun c _ => lensRestarted_reports c _

theorem State.restartSlots_congr (pool : v.pool = s.pool) (cameras : v.cameras = s.cameras) (c : Camera) :
    v.restartSlots c = s.restartSlots c := by
  have slots := State.slot_congr pool
  unfold State.restartSlots State.slotsBefore State.unheld
  rw [State.ringSize_congr cameras, pool]
  simp only [slots]

theorem RingRec.restarted_built (r : RingRec) (is : List Nat) : r.restarted.built is =
    { r with ready := [], filling := is.head?, empty := is.tail, phase := .waiting, tornMark := false, writes := 0,
             frameCount := 0 } := rfl


theorem builtSlot_of_first {c : Camera} {is : List Nat} {i : Nat} (h : is.head? = some i) :
    builtSlot c is i = ⟨.ring c .filling, 0, none⟩ := if_pos h

theorem builtSlot_of_rest {c : Camera} {is : List Nat} (nodup : is.Nodup) {i : Nat} (h : i ∈ is.tail) :
    builtSlot c is i = ⟨.ring c .empty, 0, none⟩ := by
  refine if_neg fun first => ?_
  cases is with
  | nil => exact nomatch first
  | cons j is =>
    cases first
    exact (List.nodup_cons.1 nodup).1 h

theorem State.restartSlots_nodup (s : State) (c : Camera) : (s.restartSlots c).Nodup :=
  (List.nodup_range.filter _).sublist ((List.take_sublist _ _).trans (List.drop_sublist _ _))

theorem exec_restart (running : s.isRunning) {r : Requester} (role : s.roleOf r.tag = .control) (tag : Byte)
    (spare : BitVec 48) : exec (.restart r tag spare) s = .next
      (((s.pageWrite 8 ⟨0xFF, commandWord 0x50 tag spare⟩).warmRestart tag).completeWrite r) := by
  show commandWrite r _ .restart tag s = _
  rw [commandWrite, whileRunning_of_running running, State.asControl_of_control role, State.commandBeat,
    State.offer_restart]

/-- Everything but the engine, memory, report ring and pool stands while RESTART is taken and the rings are built. -/
theorem State.slotsRestart_stands (s : State) (d : Word) (tag : Byte) :
    Touches [.mem, .ring, .engine, .pool, .rings] s (((s.pageWrite 8 ⟨0xFF, d⟩).restartTaken tag).slotsRestart) :=
  (((s.pageWrite_touches 8 _).trans (State.restartTaken_effect _ tag).touches).trans
    (State.slotsRestart_touches _)).mono (by decide)

end

theorem State.emitAll_consumer (s : State) (rs : List Report) : (s.emitAll rs).ring.consumer = s.ring.consumer := by
  induction rs generalizing s with
  | nil => rfl
  | cons r rs ih =>
    refine (ih (s.emit r)).trans ?_
    rw [State.emit_ring]
    unfold ReportRing.afterReport
    split
    · rfl
    · split <;> rfl

section
variable {s x : State} (pool : x.pool = s.pool) (rings : x.rings = s.rings) (cameras : x.cameras = s.cameras)
include pool rings cameras

/-- The ring of camera `c` behind a restart that the part `x` takes, in which the slots stand as in `s`. -/
theorem State.slotsRestart_ring_of (c : Camera) : x.slotsRestart.rings[c] =
    { s.rings[c] with
      ready := [], filling := (s.restartSlots c).head?, empty := (s.restartSlots c).tail, phase := .waiting,
      tornMark := false, writes := 0, frameCount := 0 } := by
  rw [x.slotsRestart_ring, rings, State.restartSlots_congr pool cameras, RingRec.restarted_built]

/-- The members of the rings under the laws of the pool. -/
theorem State.slotsRestart_members_of (laws : s.poolLaws) (c : Camera) :
    x.slotsRestart.rings[c].filling.toList ++ x.slotsRestart.rings[c].empty = s.restartSlots c
      ∧ (s.cameras[c].enable = true → x.slotsRestart.rings[c].filling.isSome = true)
      ∧ (∀ i, x.slotsRestart.rings[c].filling = some i → x.slotsRestart.slot i = ⟨.ring c .filling, 0, none⟩)
      ∧ ∀ i ∈ x.slotsRestart.rings[c].empty, x.slotsRestart.slot i = ⟨.ring c .empty, 0, none⟩ := by
  have same := State.restartSlots_congr pool cameras c
  have member {k : Nat} (hk : k ∈ s.restartSlots c) : x.slotsRestart.slot k = builtSlot c (s.restartSlots c) k := by
    rw [← same] at hk ⊢
    exact x.slotsRestart_member c hk
  rw [State.slotsRestart_ring_of pool rings cameras c]
  refine ⟨?_, fun on => ?_, fun i first => ?_, fun i rest => ?_⟩
  · cases s.restartSlots c <;> rfl
  · have three := (State.poolLaws_iff.1 laws).2.2 c on
    have length := State.restartSlots_length laws c
    rw [State.ringSize, if_pos on] at length
    cases h : s.restartSlots c with
    | nil =>
      rw [h] at length
      have : s.cameras[c].k = 0 := length.symm
      omega
    | cons i is => rfl
  · rw [member (List.mem_of_head? first), builtSlot_of_first first]
  · rw [member (List.mem_of_mem_tail rest), builtSlot_of_rest (s.restartSlots_nodup c) rest]

end

theorem State.slotsRestart_left_of {s x : State} (pool : x.pool = s.pool) (cameras : x.cameras = s.cameras) {i : Nat}
    (hi : i ∈ s.unheld.drop ((List.finRange 16).map s.ringSize).sum) : x.slotsRestart.slot i = ⟨.free, 0, none⟩ := by
  have slots := State.slot_congr pool
  refine x.slotsRestart_free ?_
  unfold State.unheld
  simp only [State.ringSize_congr cameras, pool, slots]
  exact hi

/-- Settles O28: the restart is followed block by block, from the slots to the holds. -/
theorem restartStartsTheBlocksOver : Obligations.RestartStartsTheBlocksOver := by
  intro r tag spare s running role inRange consistent short size free before rs
  obtain ⟨-, nodup, present⟩ := consistent
  have run := exec_restart running role tag spare
  have byte : commandByte (commandWord 0x50 tag spare) 0 = 0x50 := commandByte_commandWord_zero ..
  rw [State.warmRestart_eq] at run
  have taken := (s.pageWrite 8 ⟨0xFF, commandWord 0x50 tag spare⟩).restartTaken_effect tag
  have takenLog := (s.pageWrite 8 ⟨0xFF, commandWord 0x50 tag spare⟩).restartTaken_logged tag
  obtain ⟨_, _, _, _, engine⟩ := (s.pageWrite 8 ⟨0xFF, commandWord 0x50 tag spare⟩).restartTaken_engine tag
  have stands := s.slotsRestart_stands (commandWord 0x50 tag spare) tag
  have pool : ((s.pageWrite 8 ⟨0xFF, commandWord 0x50 tag spare⟩).restartTaken tag).pool = s.pool := taken.same .pool
  have rings : ((s.pageWrite 8 ⟨0xFF,
    commandWord 0x50 tag spare⟩).restartTaken tag).rings = s.rings := taken.same .rings
  have cameras : ((s.pageWrite 8 ⟨0xFF, commandWord 0x50 tag spare⟩).restartTaken tag).cameras = s.cameras :=
    taken.same .cameras
  generalize (s.pageWrite 8 ⟨0xFF, commandWord 0x50 tag spare⟩).restartTaken tag = x at *
  have ring := State.slotsRestart_ring_of pool rings cameras
  have members := State.slotsRestart_members_of pool rings cameras
  have left := fun i => State.slotsRestart_left_of pool cameras (i := i)
  have pins := x.slotsRestart_pins
  have length : x.slotsRestart.pool.slots.length = s.pool.slots.length :=
    x.slotsRestart_length.trans (by rw [pool])
  have held : ∀ i h, (s.slot i).disp = .held h → x.slotsRestart.slot i = { s.slot i with pins := 0 } := fun i h e => by
    rw [← State.slot_congr pool i] at e ⊢
    exact x.slotsRestart_held e
  have restartLog := x.slotsRestart_touches.logged (by decide) (by decide) (by decide)
  have restartEngine : x.slotsRestart.engine = x.engine := x.slotsRestart_touches.same .engine
  generalize x.slotsRestart = v at *
  have vcameras : v.cameras = s.cameras := stands.same .cameras
  have vcadence : v.cadence = s.cadence := stands.same .cadence
  have vlens : v.lens = s.lens := stands.same .lens
  have vdoors : v.doors = s.doors := stands.same .doors
  have vunit : v.doorUnit = s.doorUnit := stands.same .doorUnit
  have vholds : v.holds = s.holds := stands.same .holds
  have vtime : v.time = s.time := stands.same .time
  have vnodup : v.holds.order.Nodup := by rw [vholds]; exact nodup
  have log := v.restartFromCadence_logged vnodup
  have e := v.restartFromCadence_effect
  have cadence := v.restartFromCadence_cadence
  have lens := v.restartFromCadence_lens
  have contexts := v.restartFromCadence_contexts
  have spots := v.restartFromCadence_spots
  obtain ⟨doors, reverse, sample⟩ := v.restartFromCadence_doors
  obtain ⟨lock, order, table⟩ := State.restartFromCadence_holds vnodup
  rw [State.restartCadenceReports_of vcameras vcadence, State.restartLensReports_of vlens, State.restartDoorReports,
    vdoors, vunit, vholds] at log
  rw [vcameras, vtime, vcadence] at cadence
  rw [vlens] at lens
  rw [vdoors, vunit] at doors
  rw [vtime] at sample
  rw [vholds] at lock order table
  have episodes : v.restartFromCadence.episodes = Vector.replicate 7 none := rfl
  generalize v.restartFromCadence = w at *
  have reports : Logged rs (s.pageWrite 8 ⟨0xFF, commandWord 0x50 tag spare⟩) w := by
    have all := takenLog.trans (restartLog.trans log)
    rw [List.nil_append] at all
    refine Eq.subst (motive := fun l => Logged l _ w) ?_ all
    simp only [rs, List.append_assoc]
    rfl
  have wengine : w.engine = x.engine := (e.same .engine).trans restartEngine
  have wport : w.port = s.port := (e.same .port).trans (stands.same .port)
  have answered := answered_of_finish (tag := tag) r inRange reports (by rw [wengine, engine]) wport .done .none 0 0
  rw [byte, wengine, engine] at answered
  have last : Touches [.mem, .ring, .engine, .port] w ((w.finish 0x50 .done .none 0 0).completeWrite r) :=
    (w.finish_effect 0x50 .done .none 0 0).touches.completeWrite r (by decide)
  have frame : Touches [.mem, .ring, .engine, .port, .pool, .rings, .cadence, .lens, .contexts, .doorUnit, .spots,
      .holds, .episodes] s ((w.finish 0x50 .done .none 0 0).completeWrite r) :=
    ((stands.trans e.touches).trans last).mono (by decide)
  have reported := answered.2.1.2
  generalize (w.finish 0x50 .done .none 0 0).completeWrite r = t at *
  have tpool : t.pool = v.pool := (last.same .pool).trans (e.same .pool)
  have trings : t.rings = v.rings := (last.same .rings).trans (e.same .rings)
  have tslot : ∀ i, t.slot i = v.slot i := State.slot_congr tpool
  have tcadence : t.cadence = w.cadence := last.same .cadence
  have tlens : t.lens = w.lens := last.same .lens
  have tcontexts : t.contexts = w.contexts := last.same .contexts
  have tspots : t.spots = w.spots := last.same .spots
  have tunit : t.doorUnit = w.doorUnit := last.same .doorUnit
  have tholds : t.holds = w.holds := last.same .holds
  have tepisodes : t.episodes = w.episodes := last.same .episodes
  refine ⟨t, run, answered, frame, by rw [reported]; exact (s.emitAll_ring_place _).1,
    by rw [reported]; exact (s.emitAll_ring_place _).2.1, by rw [reported, State.emitAll_consumer], fun c on => ?_,
      fun c => ?_, fun c => ?_, fun laws c => ?_, fun laws i hi => ?_,
    fun i _ => ?_, fun i h held' => ?_, fun i => ?_, fun d => ?_, ?_, ?_, ?_, ?_, fun h y there => ?_, fun k => ?_⟩
  · rw [tcadence, cadence c, cadenceRestarted, if_pos on]
  · rw [tlens, lens c]
    exact lensRestarted_record c _
  · rw [trings, ring c]
    exact ⟨rfl, rfl, rfl, rfl, rfl, rfl, rfl, rfl⟩
  · simp only [trings, tslot]
    exact members laws c
  · rw [tslot]
    exact left i hi
  · rw [tslot, pins]
  · rw [tslot, held i h held']
  · rw [tcontexts, tspots]
    exact ⟨contexts i, spots i⟩
  · rw [tunit]
    exact doors d
  · rw [tunit, reverse]
  · rw [tunit, sample]
  · rw [tholds, lock]
  · rw [tholds, order]
  · rw [tholds, table, if_pos ((present h).2 (by rw [there]; rfl)), there]
    rfl
  · unfold State.episode
    rw [tepisodes, episodes, get_replicate]

end Sys2Proof.Machine
end

section
/-! A COMMIT that applies nothing (O22): its answers, and the records that validation checks one by one (R162, R164). -/

namespace Sys2Proof.Machine

set_option Elab.async false

/-! ### The answers -/

section
variable {s : State} {r : Requester} {tag : Byte} {spare : BitVec 48}

theorem commit_idle (running : s.isRunning) (role : s.roleOf r.tag = .control) (inRange : s.ring.inRange)
    (idle : s.engine.state = .idle) :
    ∃ t, exec (.commit r tag spare) s = .next t ∧ Touches [.mem, .ring, .engine, .port] s t
      ∧ Answered s t r (commandWord 0x02 tag spare) [] (s.engine.ended tag .refused .nothingStaged 0 0) :=
  ⟨_, commandWrite_idle running role idle (by decide) _ tag, finish_taken r inRange (commandByte_commandWord_zero ..)⟩

theorem commit_short (running : s.isRunning) (role : s.roleOf r.tag = .control) (inRange : s.ring.inRange)
    (staging : s.engine.state = .staging) (short : s.engine.staged < s.engine.load.count * 8) :
    ∃ t, exec (.commit r tag spare) s = .next t ∧ Touches [.mem, .ring, .engine, .port] s t
      ∧ Answered s t r (commandWord 0x02 tag spare) []
        { s.engine.ended tag .aborted .short (b8 s.engine.load.table.code) (BitVec.ofNat 16 s.engine.load.first) with
          state := .aborted, staged := 0, buffer := Vector.replicate 256 0 } := by
  have run := exec_commit_staging (tag := tag) (spare := spare) running role staging
  rw [State.stagingCommit_short (s := s.taken _ tag) short] at run
  have byte : commandByte (commandWord 0x02 tag spare) 0 = 0x02 := commandByte_commandWord_zero ..
  have answered := State.abortLoad_answered (s := s) (d := commandWord 0x02 tag spare) (tag := tag) r inRange .short
  rw [byte] at answered
  exact ⟨_, run, s.abortLoad_touches 0x02 tag .short _ r, answered⟩

theorem commit_invalid (running : s.isRunning) (role : s.roleOf r.tag = .control) (inRange : s.ring.inRange)
    {f : Failure} (staging : s.engine.state = .staging) (complete : s.engine.load.count * 8 ≤ s.engine.staged)
    (invalid : s.validate = some f) :
    ∃ t, exec (.commit r tag spare) s = .next t ∧ Touches [.mem, .ring, .engine, .port] s t
      ∧ Answered s t r (commandWord 0x02 tag spare) []
        { s.engine.ended tag .invalid f.reason (b8 f.table.code) (BitVec.ofNat 16 f.index) with
          state := .idle, staged := 0, buffer := Vector.replicate 256 0 } := by
  have run := exec_commit_staging (tag := tag) (spare := spare) running role staging
  have failed := (s.validate_taken (commandWord 0x02 tag spare) tag).trans invalid
  rw [State.stagingCommit_complete (s := s.taken _ tag) complete, State.commitLoad_of_some failed] at run
  exact ⟨_, run, finish_setEngine r inRange (commandByte_commandWord_zero ..)
    { s.engine with state := .idle, staged := 0, buffer := Vector.replicate 256 0 }⟩

end

/-! ### The first failure -/

theorem firstFailure_cons (b : Bool) (reason : Reason) (cs : List Check) :
    firstFailure (⟨b, reason⟩ :: cs) = if b = true then firstFailure cs else some reason := by
  cases b <;> rfl

theorem findSome?_range'_eq_some {β : Type} {f : Nat → Option β} {a n i : Nat} {b : β} (low : a ≤ i) (high : i < a + n)
    (here : f i = some b) (before : ∀ j, a ≤ j → j < i → f j = none) : (List.range' a n).findSome? f = some b := by
  obtain ⟨k, rfl⟩ := Nat.exists_eq_add_of_le low
  have split : List.range' a n = List.range' a k ++ (a + k) :: List.range' (a + k + 1) (n - k - 1) := by
    rw [← List.range'_succ, List.range'_append_1]
    congr 1
    omega
  rw [List.findSome?_eq_some_iff]
  exact ⟨_, _, _, split, here, fun j hj => by
    obtain ⟨low, high⟩ := List.mem_range'_1.1 hj
    exact before j low high⟩

theorem findSome?_range'_eq_none {β : Type} {f : Nat → Option β} {a n : Nat}
    (all : ∀ j, a ≤ j → j < a + n → f j = none) : (List.range' a n).findSome? f = none := by
  rw [List.findSome?_eq_none_iff]
  intro j hj
  obtain ⟨low, high⟩ := List.mem_range'_1.1 hj
  exact all j low high

/-- The staged records by their table indices. -/
theorem Engine.records_eq (e : Engine) :
    e.records = (List.range' e.load.first e.load.count).map fun i => (i, e.stagedBytes i) := by
  unfold Engine.records Engine.stagedBytes
  rw [List.range'_eq_map_range, List.map_map]
  refine List.map_congr_left fun r _ => ?_
  rw [Function.comp_apply, Nat.add_sub_cancel_left]

/-- The first failing check of the first failing record of a load whose records are checked one by one. -/
theorem firstBad_records (e : Engine) (T : TableId) (checks : Nat × RecordBytes → List Check) :
    (∀ i reason, e.load.first ≤ i → i < e.load.first + e.load.count →
        (∀ j, e.load.first ≤ j → j < i → firstFailure (checks (j, e.stagedBytes j)) = none) →
          firstFailure (checks (i, e.stagedBytes i)) = some reason →
            firstBad T checks (fun x => x.1) e.records = some ⟨reason, T, i⟩)
      ∧ ((∀ j, e.load.first ≤ j → j < e.load.first + e.load.count → firstFailure (checks (j, e.stagedBytes j)) = none) →
          firstBad T checks (fun x => x.1) e.records = none) := by
  unfold firstBad
  rw [e.records_eq, List.findSome?_map]
  refine ⟨fun i reason low high before here => findSome?_range'_eq_some low high ?_ fun j lj hj => ?_, fun all =>
    findSome?_range'_eq_none fun j lj hj => ?_⟩
  · rw [Function.comp_apply, here]
    rfl
  · rw [Function.comp_apply, before j lj hj]
    rfl
  · rw [Function.comp_apply, all j lj hj]
    rfl

/-! ### Ranges -/

theorem within_iff {lo v hi : Nat} : within lo v hi = true ↔ lo ≤ v ∧ v ≤ hi := decide_eq_true_iff

theorem SpotRequest.inRange_iff {q : SpotRequest} : q.inRange = true ↔ requestRanges q := by
  unfold SpotRequest.inRange requestRanges
  simp only [Bool.and_eq_true, within_iff, Nat.zero_le, true_and, and_assoc]

theorem ScreenRec.inRange_iff {r : ScreenRec} : r.inRange = true ↔ screenRanges r := by
  unfold ScreenRec.inRange screenRanges
  simp only [Bool.and_eq_true, within_iff, decide_eq_true_eq, Nat.zero_le, true_and, and_assoc]

theorem DoorRec.inRange_iff {r : DoorRec} : r.inRange = true ↔ doorRanges r := by
  unfold DoorRec.inRange doorRanges
  simp only [Bool.and_eq_true, within_iff, SpotRequest.inRange_iff, Nat.zero_le, true_and, and_assoc]

theorem PaneRec.inRange_iff {p : PaneRec} : p.inRange = true ↔ paneRanges p := by
  unfold PaneRec.inRange paneRanges
  simp only [Bool.and_eq_true, Bool.or_eq_true, within_iff, decide_eq_true_eq, Nat.zero_le, true_and, and_assoc,
    or_assoc]

theorem cameraRanges_iff {slotBytes : Nat} {c : Camera} {r : CameraRec} :
    (decide (r.w % 16 = 0) && within 320 r.w 1920 && within 240 r.h 1200 && decide (r.w * r.h * 2 ≤ slotBytes)
      && within 3 r.k 6 && within 10000 r.period 200000
      && ((decide (r.partner < 16) && decide (r.partner ≠ c.val)) || decide (r.partner = Config.noPartner))
      && within 1 r.judge 16 && within 0 r.noise 31) = true ↔ cameraRanges slotBytes c r := by
  unfold cameraRanges
  simp only [Bool.and_eq_true, Bool.or_eq_true, within_iff, decide_eq_true_eq, Nat.zero_le, true_and, and_assoc]
  rfl

theorem cameraKept_iff {old r : CameraRec} :
    (!(old.enable && r.enable)
      || (decide (r.w = old.w) && decide (r.h = old.h) && decide (r.k = old.k) && decide (r.excl = old.excl))) = true
      ↔ cameraKept old r := by
  unfold cameraKept
  simp only [Bool.or_eq_true, Bool.not_eq_true', Bool.and_eq_false_iff, Bool.and_eq_true, decide_eq_true_eq, and_assoc]
  cases old.enable <;> cases r.enable <;> simp

/-! ### SETUP -/

theorem SetupRec.inRange_iff {r : SetupRec} : r.inRange = true ↔ setupRanges r := by
  unfold SetupRec.inRange setupRanges
  simp only [Bool.and_eq_true, within_iff, decide_eq_true_eq, SpotRequest.inRange_iff, Nat.zero_le, true_and, and_assoc]

theorem SetupRec.ordered_iff {r : SetupRec} : r.ordered = true ↔ setupOrders r := by
  unfold SetupRec.ordered setupOrders
  simp only [Bool.and_eq_true, decide_eq_true_eq, and_assoc]

theorem SetupRec.hasControl_iff {r : SetupRec} : r.hasControl = true ↔ ∃ tag, roleIn r.roleMap tag = .control := by
  unfold SetupRec.hasControl
  simp only [List.any_eq_true, decide_eq_true_eq]
  refine ⟨fun ⟨t, _, h⟩ => ⟨_, h⟩, fun ⟨tag, h⟩ => ⟨tag.toNat, List.mem_range.2 tag.isLt, ?_⟩⟩
  rw [BitVec.ofNat_toNat, BitVec.setWidth_eq]
  exact h

/-- Two runs of addresses that have bytes lie apart, or overlap. -/
theorem apart_iff {a alen b blen : Nat} (ha : 0 < alen) (hb : 0 < blen) :
    overlap a alen b blen = false ↔ apart a alen b blen := by
  unfold apart
  rw [overlap_eq_false_iff]
  omega

theorem SetupRec.ringFits_iff {r : SetupRec} {page : Nat} : r.ringFits page = true ↔ setupRing r page := by
  unfold SetupRec.ringFits setupRing SetupRec.ringLen
  simp only [Bool.and_eq_true, within_iff, decide_eq_true_eq, Bool.not_eq_true', and_assoc]
  refine and_congr_right fun _ => and_congr_right fun low => and_congr_right fun _ => and_congr_right fun _ => ?_
  exact apart_iff (by show 0 < r.ringCapacity * 32; omega) (by decide)

theorem SetupRec.areaFits_iff {r : SetupRec} {page : Nat} (units : 1 ≤ r.slotUnits) (capacity : 64 ≤ r.ringCapacity) :
    r.areaFits page = true ↔ setupArea r page := by
  unfold SetupRec.areaFits setupArea SetupRec.areaLen SetupRec.ringLen
  simp only [Bool.or_eq_true, Bool.and_eq_true, decide_eq_true_eq, Bool.not_eq_true', and_assoc]
  by_cases none : r.slotCount = 0
  · simp only [none, true_or]
  · have some : 0 < r.slotCount * (r.slotUnits * Config.slotUnit) :=
      Nat.mul_pos (Nat.pos_of_ne_zero none) (Nat.mul_pos units (by decide))
    have ring : 0 < r.ringCapacity * Config.reportBytes := Nat.mul_pos (by omega) (by decide)
    rw [apart_iff some (by decide), apart_iff some ring]
    rfl

theorem State.setupIdle_iff {s : State} {r : SetupRec} : (!(r.newGeometry s.setup)
      || ((List.finRange 16).all (fun c : Fin 16 => !s.cameras[c].enable) && decide (s.holdCount = 0)
          && s.pool.slots.all fun x => decide (x.disp ≠ .retiring))) = true ↔ setupIdle s r := by
  have geometry : r.newGeometry s.setup = true ↔ newGeometry s.setup r := by
    unfold SetupRec.newGeometry newGeometry
    simp only [Bool.or_eq_true, decide_eq_true_eq, or_assoc]
  have holds : s.holdCount = 0 ↔ ∀ h : HoldId, s.holds.table.get h = none := by
    unfold State.holdCount
    rw [List.countP_eq_zero]
    exact ⟨fun k h => Option.not_isSome_iff_eq_none.1 (k h (List.mem_finRange h)), fun k h _ => by rw [k h]; decide⟩
  have slots : (∀ x ∈ s.pool.slots, x.disp ≠ .retiring) ↔ ∀ i, i < s.pool.slots.length →
    (s.slot i).disp ≠ .retiring := by
    rw [List.forall_mem_iff_forall_getElem]
    exact forall_congr' fun i => forall_congr' fun hi => by rw [State.slot_eq_getElem hi]
  unfold setupIdle
  rw [← geometry, ← holds, ← slots]
  simp only [Bool.or_eq_true, Bool.not_eq_true', Bool.and_eq_true, List.all_eq_true, List.mem_finRange, true_implies,
    decide_eq_true_eq, and_assoc]
  cases r.newGeometry s.setup <;> simp

theorem Engine.setup_load {e : Engine} (table : e.load.table = .setup) (range : 1 ≤ e.load.count
    ∧ e.load.first + e.load.count ≤ e.load.table.records) : e.load.first = 0 ∧ e.load.count = 1 := by
  rw [table] at range
  have : TableId.records .setup = 1 := rfl
  omega

/-- What validation of a SETUP load names (R162). -/
theorem State.validate_setup {s : State} (table : s.engine.load.table = .setup)
    (load : s.engine.load.first = 0 ∧ s.engine.load.count = 1) : s.validate =
      (firstFailure (s.setupChecks (setupOf (s.engine.stagedBytes 0)))).map fun reason => ⟨reason, .setup, 0⟩ := by
  have one : s.engine.records = [(0, s.engine.stagedBytes 0)] := by
    rw [s.engine.records_eq, load.1, load.2]
    rfl
  unfold State.validate
  dsimp only
  rw [table]
  dsimp only
  rw [one]
  unfold firstBad
  rw [List.findSome?_singleton]

end Sys2Proof.Machine
end

section
/-! What validation names (O22) for SETUP, SCREENS, DOORS and CAMERAS loads (R162 to R164). -/

namespace Sys2Proof.Machine

set_option Elab.async false

section
variable {s : State}

/-! ### SETUP -/

/-- The first failure of a SETUP record, check by check (R162). -/
theorem State.firstFailure_setup (r : SetupRec) : firstFailure (s.setupChecks r) =
    if r.inRange = true then if r.ordered = true then if r.hasControl = true then
      if r.ringFits s.pageBase = true then if r.areaFits s.pageBase = true then
        if (!(r.newGeometry s.setup)
            || ((List.finRange 16).all (fun c : Fin 16 => !s.cameras[c].enable) && decide (s.holdCount = 0)
                && s.pool.slots.all fun x => decide (x.disp ≠ .retiring))) = true then none
        else some .busySlots
      else some .badArea
    else some .badRing else some .badRoles else some .badOrder else some .badRange := by
  unfold State.setupChecks
  simp only [firstFailure_cons]
  rfl

theorem State.validate_setup_cases {r : SetupRec} (names : s.validate =
      (firstFailure (s.setupChecks r)).map fun reason => ⟨reason, .setup, 0⟩) :
    (¬setupRanges r → s.validate = some ⟨.badRange, .setup, 0⟩)
      ∧ (setupRanges r → ¬setupOrders r → s.validate = some ⟨.badOrder, .setup, 0⟩)
      ∧ (setupRanges r → setupOrders r → (¬∃ tag, roleIn r.roleMap tag = .control) →
          s.validate = some ⟨.badRoles, .setup, 0⟩)
      ∧ (setupRanges r → setupOrders r → (∃ tag, roleIn r.roleMap tag = .control) → ¬setupRing r s.pageBase →
          s.validate = some ⟨.badRing, .setup, 0⟩)
      ∧ (setupRanges r → setupOrders r → (∃ tag, roleIn r.roleMap tag = .control) → setupRing r s.pageBase →
          ¬setupArea r s.pageBase → s.validate = some ⟨.badArea, .setup, 0⟩)
      ∧ (setupRanges r → setupOrders r → (∃ tag, roleIn r.roleMap tag = .control) → setupRing r s.pageBase →
          setupArea r s.pageBase →
          (¬setupIdle s r → s.validate = some ⟨.busySlots, .setup, 0⟩) ∧ (setupIdle s r → s.validate = none)) := by
  rw [names, State.firstFailure_setup]
  have range := r.inRange_iff
  have order := r.ordered_iff
  have control := r.hasControl_iff
  have ring := r.ringFits_iff (page := s.pageBase)
  have area (hr : setupRanges r) (hg : setupRing r s.pageBase) := r.areaFits_iff (page := s.pageBase) hr.1 hg.2.1
  refine ⟨fun h => ?_, fun h1 h => ?_, fun h1 h2 h => ?_, fun h1 h2 h3 h => ?_, fun h1 h2 h3 h4 h => ?_,
    fun h1 h2 h3 h4 h5 => ⟨fun h => ?_, fun h => ?_⟩⟩
  · rw [if_neg (mt range.1 h)]
    rfl
  · rw [if_pos (range.2 h1), if_neg (mt order.1 h)]
    rfl
  · rw [if_pos (range.2 h1), if_pos (order.2 h2), if_neg (mt control.1 h)]
    rfl
  · rw [if_pos (range.2 h1), if_pos (order.2 h2), if_pos (control.2 h3), if_neg (mt ring.1 h)]
    rfl
  · rw [if_pos (range.2 h1), if_pos (order.2 h2), if_pos (control.2 h3), if_pos (ring.2 h4),
      if_neg (mt (area h1 h4).1 h)]
    rfl
  · rw [if_pos (range.2 h1), if_pos (order.2 h2), if_pos (control.2 h3), if_pos (ring.2 h4),
      if_pos ((area h1 h4).2 h5), if_neg (mt State.setupIdle_iff.1 h)]
    rfl
  · rw [if_pos (range.2 h1), if_pos (order.2 h2), if_pos (control.2 h3), if_pos (ring.2 h4),
      if_pos ((area h1 h4).2 h5), if_pos (State.setupIdle_iff.2 h)]
    rfl

/-! ### SCREENS and DOORS -/

/-- A table of `n` records that are checked by one range each. -/
theorem firstBad_ranges {n : Nat} (e : Engine) (T : TableId) (table : e.load.table = T)
    (bound : e.load.first + e.load.count ≤ n) {inRange : RecordBytes → Bool} {ranges : RecordBytes → Prop}
    (spec : ∀ f, inRange f = true ↔ ranges f) :
    (∀ i : Fin n, e.stages T i.val → (∀ j : Fin n, j < i → e.stages T j.val → ranges (e.stagedBytes j.val)) →
        ¬ranges (e.stagedBytes i.val) →
          firstBad T (fun x => [⟨inRange x.2, .badRange⟩]) (fun x => x.1) e.records = some ⟨.badRange, T, i.val⟩)
      ∧ ((∀ i : Fin n, e.stages T i.val → ranges (e.stagedBytes i.val)) →
          firstBad T (fun x => [⟨inRange x.2, .badRange⟩]) (fun x => x.1) e.records = none) := by
  have passes (f : RecordBytes) (h : ranges f) : firstFailure [⟨inRange f, .badRange⟩] = none := by
    rw [firstFailure_cons, if_pos ((spec f).2 h)]
    rfl
  obtain ⟨bad, good⟩ := firstBad_records e T fun x => [⟨inRange x.2, .badRange⟩]
  refine ⟨fun i ⟨_, low, high⟩ before here => bad i.val .badRange low high (fun j lj hj => ?_) ?_, fun all =>
    good fun j lj hj => passes _ (all ⟨j, by omega⟩ ⟨table, lj, hj⟩)⟩
  · exact passes _ (before ⟨j, by omega⟩ hj ⟨table, lj, Nat.lt_trans hj high⟩)
  · rw [firstFailure_cons, if_neg (mt (spec _).1 here)]

theorem State.validate_screens (table : s.engine.load.table = .screens) : s.validate =
    firstBad .screens (fun x => [⟨(screenOf x.2).inRange, .badRange⟩]) (fun x => x.1) s.engine.records := by
  unfold State.validate
  dsimp only
  rw [table]

theorem State.validate_doors (table : s.engine.load.table = .doors) : s.validate =
    firstBad .doors (fun x => [⟨(doorOf x.2).inRange, .badRange⟩]) (fun x => x.1) s.engine.records := by
  unfold State.validate
  dsimp only
  rw [table]

/-! ### CAMERAS: one record -/

/-- The first failure of a CAMERA record, check by check (R163). -/
theorem firstFailure_camera (slotBytes : Nat) (c : Camera) (old r : CameraRec) :
    (¬cameraRanges slotBytes c r → firstFailure (cameraChecks slotBytes c.val old r) = some .badRange)
      ∧ (cameraRanges slotBytes c r → ¬cameraKept old r →
          firstFailure (cameraChecks slotBytes c.val old r) = some .busyCamera)
      ∧ (cameraRanges slotBytes c r → cameraKept old r →
          firstFailure (cameraChecks slotBytes c.val old r) = none) := by
  unfold cameraChecks
  simp only [firstFailure_cons]
  refine ⟨fun h => ?_, fun h1 h => ?_, fun h1 h2 => ?_⟩
  · rw [if_neg (mt cameraRanges_iff.1 h)]
  · rw [if_pos (cameraRanges_iff.2 h1), if_neg (mt cameraKept_iff.1 h)]
  · rw [if_pos (cameraRanges_iff.2 h1), if_pos (cameraKept_iff.2 h2)]
    rfl

/-- The staged CAMERA records by their cameras. -/
theorem Engine.cameraRecords_eq (e : Engine) : e.cameraRecords =
    (List.range' e.load.first e.load.count).map fun i => (Fin.ofNat 16 i, cameraOf (e.stagedBytes i)) := by
  unfold Engine.cameraRecords
  rw [e.records_eq, List.map_map]
  rfl

theorem State.validate_cameras (table : s.engine.load.table = .cameras) :
    s.validate = s.validateCameras s.engine.cameraRecords := by
  unfold State.validate
  dsimp only
  rw [table]

/-- The first failing record of a CAMERAS load before its slot check. -/
theorem State.firstBad_cameras (bound : s.engine.load.first + s.engine.load.count ≤ 16)
    (table : s.engine.load.table = .cameras) :
    (∀ c : Camera, s.engine.stages .cameras c.val → (∀ c' : Camera, c' < c → s.engine.stages .cameras c'.val →
        cameraRanges s.pool.slotBytes c' (cameraOf (s.engine.stagedBytes c'.val))
          ∧ cameraKept s.cameras[c'] (cameraOf (s.engine.stagedBytes c'.val))) → ∀ reason,
        firstFailure (cameraChecks s.pool.slotBytes c.val s.cameras[c] (cameraOf (s.engine.stagedBytes c.val)))
          = some reason →
          firstBad .cameras (fun x => cameraChecks s.pool.slotBytes x.1.val s.cameras[x.1] x.2) (fun x => x.1.val)
            s.engine.cameraRecords = some ⟨reason, .cameras, c.val⟩)
      ∧ ((∀ c : Camera, s.engine.stages .cameras c.val →
          cameraRanges s.pool.slotBytes c (cameraOf (s.engine.stagedBytes c.val))
            ∧ cameraKept s.cameras[c] (cameraOf (s.engine.stagedBytes c.val))) →
          firstBad .cameras (fun x => cameraChecks s.pool.slotBytes x.1.val s.cameras[x.1] x.2) (fun x => x.1.val)
            s.engine.cameraRecords = none) := by
  have at_ (j : Nat) (hj : j < 16) : (Fin.ofNat 16 j : Camera) = ⟨j, hj⟩ := Fin.ext (Nat.mod_eq_of_lt hj)
  unfold firstBad
  rw [s.engine.cameraRecords_eq, List.findSome?_map]
  refine ⟨fun c ⟨_, low, high⟩ before reason here => findSome?_range'_eq_some low high ?_ fun j lj hj => ?_,
    fun all => findSome?_range'_eq_none fun j lj hj => ?_⟩
  · rw [Function.comp_apply, at_ c.val c.isLt, here]
    rfl
  · obtain ⟨ranges, kept⟩ := before ⟨j, by omega⟩ hj ⟨table, lj, Nat.lt_trans hj high⟩
    rw [Function.comp_apply, at_ j (by omega)]
    dsimp only
    rw [(firstFailure_camera _ ⟨j, by omega⟩ _ _).2.2 ranges kept]
    rfl
  · obtain ⟨ranges, kept⟩ := all ⟨j, by omega⟩ ⟨table, lj, hj⟩
    rw [Function.comp_apply, at_ j (by omega)]
    dsimp only
    rw [(firstFailure_camera _ ⟨j, by omega⟩ _ _).2.2 ranges kept]
    rfl

/-! ### CAMERAS: the slot balance -/

/-- What camera `c`'s staged record changes in the free count (R163). -/
def State.slotChange (s : State) (c : Camera) : Int :=
  (if s.cameras[c].enable = true ∧ (cameraOf (s.engine.stagedBytes c.val)).enable = false then
      (s.freedByDisable c : Int) else 0)
    - (if s.cameras[c].enable = false ∧ (cameraOf (s.engine.stagedBytes c.val)).enable = true then
      ((cameraOf (s.engine.stagedBytes c.val)).k : Int) else 0)

/-- What the record of camera `c`, staged or not, changes in the free count. -/
def State.loadChange (s : State) (c : Camera) : Int :=
  if s.engine.load.first ≤ c.val ∧ c.val < s.engine.load.first + s.engine.load.count then s.slotChange c else 0

/-- The free count before camera `j`'s record. -/
def State.slotBalance (s : State) (j : Nat) : Int :=
  (s.freeCount : Int) + (((List.finRange 16).filter fun c : Camera => decide (c.val < j)).map s.loadChange).sum

/-- Camera `c`'s enable does not find its slots. -/
def State.lacks (s : State) (c : Camera) : Prop :=
  s.cameras[c].enable = false ∧ (cameraOf (s.engine.stagedBytes c.val)).enable = true
    ∧ ¬((cameraOf (s.engine.stagedBytes c.val)).k : Int) + (s.setup.holdReserve : Int) ≤ s.slotBalance c.val

theorem finRange_below_succ : ∀ j : Fin 16, (List.finRange 16).filter (fun c : Camera => decide (c.val < j.val + 1)) =
    (List.finRange 16).filter (fun c : Camera => decide (c.val < j.val)) ++ [j] := by decide

theorem State.slotBalance_succ (s : State) (c : Camera) :
    s.slotBalance (c.val + 1) = s.slotBalance c.val + s.loadChange c := by
  unfold State.slotBalance
  rw [finRange_below_succ c, List.map_append, List.sum_append, List.map_singleton, List.sum_singleton, Int.add_assoc]

theorem State.slotBalance_first (s : State) : s.slotBalance s.engine.load.first = s.freeCount := by
  unfold State.slotBalance
  rw [List.map_congr_left (g := fun _ => (0 : Int)) fun c hc => ?_]
  · simp
  · have below : c.val < s.engine.load.first := of_decide_eq_true (List.mem_filter.1 hc).2
    exact if_neg (by omega)

/-- One record of the slot check, the free count being the balance: an enable that lacks its slots ends it, and
behind any other record the free count is the balance again. -/
theorem State.slotCheck_record {c : Camera} {free : Nat} (count : (free : Int) = s.slotBalance c.val) :
    (s.lacks c → ∀ rest,
        s.slotCheck free ((c, cameraOf (s.engine.stagedBytes c.val)) :: rest) = some c)
      ∧ (¬s.lacks c → ∃ free' : Nat, (free' : Int) = s.slotBalance c.val + s.slotChange c ∧ ∀ rest,
        s.slotCheck free ((c, cameraOf (s.engine.stagedBytes c.val)) :: rest) = s.slotCheck free' rest) := by
  unfold State.lacks State.slotChange
  rw [← count]
  generalize cameraOf (s.engine.stagedBytes c.val) = r
  have step (rest : List (Camera × CameraRec)) := State.slotCheck.eq_2 s free c r rest
  cases was : s.cameras[c].enable <;> cases on : r.enable <;> rw [was, on] at step
  case false.false => exact ⟨fun h => by simp at h, fun _ => ⟨free, by simp, step⟩⟩
  case true.true => exact ⟨fun h => by simp at h, fun _ => ⟨free, by simp, step⟩⟩
  case true.false => exact ⟨fun h => by simp at h, fun _ => ⟨free + s.freedByDisable c, by simp, step⟩⟩
  case false.true =>
    by_cases enough : r.k + s.setup.holdReserve ≤ free
    · refine ⟨fun h => absurd (by exact_mod_cast enough) h.2.2, fun _ => ⟨free - r.k, ?_, fun rest =>
        (step rest).trans (if_pos enough)⟩⟩
      simp only [Bool.false_eq_true, Bool.true_eq_false, and_self, if_true, if_false]
      omega
    · refine ⟨fun _ rest => (step rest).trans (if_neg enough), fun h => absurd ⟨rfl, rfl, fun le => enough ?_⟩ h⟩
      exact_mod_cast le

/-- The slot check from camera `j` on: the running free count is the balance, and each enable finds its slots up to
the first that does not. -/
theorem State.slotCheck_run {j n free : Nat} (bound : j + n ≤ 16) (low : s.engine.load.first ≤ j)
    (high : j + n ≤ s.engine.load.first + s.engine.load.count) (count : (free : Int) = s.slotBalance j) :
    (∀ c : Camera, j ≤ c.val → c.val < j + n → (∀ c' : Camera, j ≤ c'.val → c' < c → ¬s.lacks c') → s.lacks c →
        s.slotCheck free ((List.range' j n).map fun i => (Fin.ofNat 16 i, cameraOf (s.engine.stagedBytes i))) = some c)
      ∧ ((∀ c : Camera, j ≤ c.val → c.val < j + n → ¬s.lacks c) →
        s.slotCheck free ((List.range' j n).map fun i => (Fin.ofNat 16 i, cameraOf (s.engine.stagedBytes i)))
          = none) := by
  induction n generalizing j free with
  | zero => exact ⟨fun c lc hc => absurd hc (by omega), fun _ => rfl⟩
  | succ n ih =>
    obtain ⟨k, rfl⟩ : ∃ k : Camera, k.val = j := ⟨⟨j, by omega⟩, rfl⟩
    have own : (Fin.ofNat 16 k.val : Camera) = k := Fin.ext (Nat.mod_eq_of_lt k.isLt)
    have change : s.loadChange k = s.slotChange k := if_pos ⟨low, by omega⟩
    rw [List.range'_succ, List.map_cons, own]
    obtain ⟨stops, goes⟩ := State.slotCheck_record count
    by_cases lacks : s.lacks k
    · rw [stops lacks]
      refine ⟨fun c lc hc before _ => ?_, fun all => absurd lacks (all k (Nat.le_refl _) (by omega))⟩
      rcases Nat.lt_or_eq_of_le lc with lt | same
      · exact absurd lacks (before k (Nat.le_refl _) lt)
      · exact congrArg some (Fin.ext same)
    · obtain ⟨free', stands, step⟩ := goes lacks
      rw [step]
      obtain ⟨bad, good⟩ := ih (j := k.val + 1) (free := free') (by omega) (by omega) (by omega)
        (by rw [stands, s.slotBalance_succ, change])
      refine ⟨fun c lc hc before here => bad c ?_ (by omega) (fun c' lc' => before c' (by omega)) here,
        fun all => good fun c lc hc => all c (by omega) (by omega)⟩
      rcases Nat.lt_or_eq_of_le lc with lt | same
      · exact lt
      · exact absurd (by rwa [show k = c from Fin.ext same]) lacks

/-- The slot check of a CAMERAS load. -/
theorem State.slotCheck_load (bound : s.engine.load.first + s.engine.load.count ≤ 16)
    (table : s.engine.load.table = .cameras) :
    (∀ c : Camera, s.engine.stages .cameras c.val →
        (∀ c' : Camera, c' < c → s.engine.stages .cameras c'.val → ¬s.lacks c') → s.lacks c →
        s.slotCheck s.freeCount s.engine.cameraRecords = some c)
      ∧ ((∀ c : Camera, s.engine.stages .cameras c.val → ¬s.lacks c) →
        s.slotCheck s.freeCount s.engine.cameraRecords = none) := by
  obtain ⟨bad, good⟩ := State.slotCheck_run (s := s) bound (Nat.le_refl _) (Nat.le_refl _) s.slotBalance_first.symm
  rw [s.engine.cameraRecords_eq]
  exact ⟨fun c ⟨_, low, high⟩ before lacks => bad c low high (fun c' lc hc => before c' hc ⟨table, lc,
    Nat.lt_trans hc high⟩) lacks, fun all => good fun c lc hc => all c ⟨table, lc, hc⟩⟩

end

end Sys2Proof.Machine
end

section
/-! What validation names (O22) for LAYOUTS and PANES loads: the walk of the chains (R165). -/

namespace Sys2Proof.Machine

set_option Elab.async false

section
variable {s : State} {panes : Vector PaneRec 224}

/-! ### One chain -/

/-- The indices that a chain's walk has visited before its `n`th, the last one first. -/
def visited (panes : Vector PaneRec 224) (head n : Nat) : List Nat :=
  ((List.range n).map (chainIndex panes head)).reverse

theorem visited_succ (head n : Nat) :
    visited panes head (n + 1) = chainIndex panes head n :: visited panes head n := by
  unfold visited
  rw [List.range_succ, List.map_append, List.reverse_append]
  rfl

theorem visited_length (head n : Nat) : (visited panes head n).length = n := by
  simp [visited]

theorem visited_contains {head n i : Nat} :
    (visited panes head n).contains i = true ↔ ∃ m, m < n ∧ chainIndex panes head m = i := by
  simp [visited]

theorem chainIndex_next {head n : Nat} (h : chainIndex panes head n < 224) :
    chainIndex panes head (n + 1) = (panes.get ⟨chainIndex panes head n, h⟩).next := dif_pos h

/-- One index of a chain's walk, check by check (R165). -/
theorem walkChain_step (l fuel i : Nat) (seen : List Nat) : walkChain panes l (fuel + 1) i seen =
    if i = 255 then none
    else if h : i < 224 then
      if seen.contains i = true then some ⟨.chainLoop, .layouts, l⟩
      else if 8 ≤ seen.length then some ⟨.chainLong, .layouts, l⟩
      else if (!(panes.get ⟨i, h⟩).inRange) = true then some ⟨.badPane, .panes, i⟩
      else walkChain panes l fuel (panes.get ⟨i, h⟩).next (i :: seen)
    else some ⟨.badLink, .layouts, l⟩ := rfl

/-- The walk of a chain stands at the first index that does not pass. -/
theorem walkChain_passes (l head : Nat) {n : Nat} (pass : ∀ m, m < n → stepPasses panes head m) :
    n ≤ 8 ∧ walkChain panes l 10 head [] =
      walkChain panes l (9 - n + 1) (chainIndex panes head n) (visited panes head n) := by
  induction n with
  | zero => exact ⟨by omega, rfl⟩
  | succ n ih =>
    obtain ⟨_, walk⟩ := ih fun m hm => pass m (by omega)
    obtain ⟨short, fresh, inside, ranges⟩ := pass n (Nat.lt_succ_self n)
    have unseen : ¬(visited panes head n).contains (chainIndex panes head n) = true := fun h => by
      obtain ⟨m, hm, same⟩ := visited_contains.1 h
      exact fresh m hm same
    refine ⟨short, walk.trans ?_⟩
    rw [walkChain_step, if_neg (by omega), dif_pos inside, if_neg unseen, visited_length, if_neg (by omega),
      PaneRec.inRange_iff.2 ranges, if_neg (by decide), visited_succ, chainIndex_next inside,
      show 9 - n = 9 - (n + 1) + 1 by omega]

/-- What the walk of a chain names at the first index that does not pass (R165). -/
theorem walkChain_fails (l head : Nat) {n : Nat} (pass : ∀ m, m < n → stepPasses panes head m) :
    (224 ≤ chainIndex panes head n → chainIndex panes head n ≠ 255 →
        walkChain panes l 10 head [] = some ⟨.badLink, .layouts, l⟩)
      ∧ (chainIndex panes head n < 224 → (∃ m, m < n ∧ chainIndex panes head m = chainIndex panes head n) →
        walkChain panes l 10 head [] = some ⟨.chainLoop, .layouts, l⟩)
      ∧ (chainIndex panes head n < 224 → ¬(∃ m, m < n ∧ chainIndex panes head m = chainIndex panes head n) → 8 ≤ n →
        walkChain panes l 10 head [] = some ⟨.chainLong, .layouts, l⟩)
      ∧ ∀ h : chainIndex panes head n < 224, ¬(∃ m, m < n ∧ chainIndex panes head m = chainIndex panes head n) →
        n < 8 → ¬paneRanges (panes.get ⟨chainIndex panes head n, h⟩) →
          walkChain panes l 10 head [] = some ⟨.badPane, .panes, chainIndex panes head n⟩ := by
  rw [(walkChain_passes l head pass).2, walkChain_step, visited_length]
  refine ⟨fun outside notEnd => ?_, fun inside seen => ?_, fun inside fresh long => ?_,
    fun inside fresh short bad => ?_⟩
  · rw [if_neg notEnd, dif_neg (by omega)]
  · rw [if_neg (by omega), dif_pos inside, if_pos (visited_contains.2 seen)]
  · rw [if_neg (by omega), dif_pos inside, if_neg (mt visited_contains.1 fresh), if_pos long]
  · rw [if_neg (by omega), dif_pos inside, if_neg (mt visited_contains.1 fresh), if_neg (by omega),
      Bool.eq_false_of_not_eq_true (mt PaneRec.inRange_iff.1 bad)]
    rfl

theorem walkChain_of_chainPasses {l head : Nat} (passes : chainPasses panes head) :
    walkChain panes l 10 head [] = none := by
  obtain ⟨n, ends, pass⟩ := passes
  rw [(walkChain_passes l head pass).2, walkChain_step, if_pos ends]

/-! ### All chains -/

/-- The first of a table's entries at which a function has a value. -/
theorem findSome?_finRange_eq_some {α : Type} {n : Nat} {f : Fin n → Option α} {i : Fin n} {a : α} (here : f i = some a)
    (before : ∀ j, j < i → f j = none) : (List.finRange n).findSome? f = some a := by
  have sorted := List.pairwise_lt_finRange n
  have mem := List.mem_finRange i
  generalize List.finRange n = xs at sorted mem
  induction xs with
  | nil => cases mem
  | cons x xs ih =>
    obtain ⟨below, sorted⟩ := List.pairwise_cons.1 sorted
    rcases List.mem_cons.1 mem with rfl | mem
    · rw [List.findSome?_cons, here]
    · rw [List.findSome?_cons, before x (below i mem)]
      exact ih sorted mem

/-- What validation names in a load whose layouts `W`, with their heads, are walked over the stores as they would
stand. -/
theorem walkLayouts_names (layouts : Vector LayoutRec 32) {walked : Fin 32 → Bool} {W : Fin 32 → Prop}
    {head : Fin 32 → Nat} (meant : ∀ l, walked l = true ↔ W l) (heads : ∀ l, W l → (layouts.get l).head = head l)
    {names : Option Failure} (eq : names = walkLayouts layouts panes walked) :
    (∀ (l : Fin 32) (n : Nat), W l → (∀ l', l' < l → W l' → chainPasses panes (head l')) →
        (∀ m, m < n → stepPasses panes (head l) m) →
          let i := chainIndex panes (head l) n
          let seen := ∃ m, m < n ∧ chainIndex panes (head l) m = i
          (224 ≤ i → i ≠ 255 → names = some ⟨.badLink, .layouts, l.val⟩)
            ∧ (i < 224 → seen → names = some ⟨.chainLoop, .layouts, l.val⟩)
            ∧ (i < 224 → ¬seen → 8 ≤ n → names = some ⟨.chainLong, .layouts, l.val⟩)
            ∧ ∀ h : i < 224, ¬seen → n < 8 → ¬paneRanges (panes.get ⟨i, h⟩) → names = some ⟨.badPane, .panes, i⟩)
      ∧ ((∀ l, W l → chainPasses panes (head l)) → names = none) := by
  subst eq
  have of_walked {l : Fin 32} (h : W l) : (if walked l = true then walkChain panes l.val 10 (layouts.get l).head []
      else none) = walkChain panes l.val 10 (head l) [] := by
    rw [if_pos ((meant l).2 h), heads l h]
  have passed (l : Fin 32) (passes : W l → chainPasses panes (head l)) :
      (if walked l = true then walkChain panes l.val 10 (layouts.get l).head [] else none) = none := by
    by_cases h : W l
    · rw [of_walked h, walkChain_of_chainPasses (passes h)]
    · rw [if_neg (mt (meant l).1 h)]
  refine ⟨fun l n here before pass => ?_, fun all => ?_⟩
  · have first {f : Failure} (h : walkChain panes l.val 10 (head l) [] = some f) :
        walkLayouts layouts panes walked = some f :=
      findSome?_finRange_eq_some ((of_walked here).trans h) fun l' below => passed l' (before l' below)
    obtain ⟨link, loop, long, bad⟩ := walkChain_fails l.val _ pass
    exact ⟨fun h1 h2 => first (link h1 h2), fun h1 h2 => first (loop h1 h2), fun h1 h2 h3 => first (long h1 h2 h3),
      fun h h2 h3 h4 => first (bad h h2 h3 h4)⟩
  · exact List.findSome?_eq_none_iff.2 fun l _ => passed l (all l)

/-! ### LAYOUTS and PANES -/

theorem Engine.records_any {e : Engine} {T : TableId} (table : e.load.table = T) (i : Nat) :
    (e.records.any fun x => decide (x.1 = i)) = true ↔ e.stages T i := by
  rw [e.records_eq, List.any_map, List.any_eq_true]
  simp only [Function.comp_apply, List.mem_range'_1, decide_eq_true_eq, exists_eq_right]
  exact ⟨fun ⟨low, high⟩ => ⟨table, low, high⟩, fun ⟨_, low, high⟩ => ⟨low, high⟩⟩

theorem chainIndex_stands {head : Nat} (h : ¬head < 224) (n : Nat) : chainIndex panes head n = head := by
  induction n with
  | zero => rfl
  | succ n ih => rw [chainIndex, ih, dif_neg h]

/-- The panes along a chain that meet a test, by their places in it. -/
theorem chainWalk_any {which : Nat → Bool} (fuel head : Nat) : (reaches.chainWalk panes fuel head).any which = true ↔
    ∃ n, n < fuel ∧ chainIndex panes head n < 224 ∧ which (chainIndex panes head n) = true := by
  induction fuel generalizing head with
  | zero => simp [reaches.chainWalk]
  | succ fuel ih =>
    rw [reaches.chainWalk]
    by_cases h : head < 224
    · rw [dif_pos h, List.any_cons, Bool.or_eq_true, ih]
      constructor
      · rintro (here | ⟨n, hn, inside, later⟩)
        · exact ⟨0, by omega, h, here⟩
        · rw [← chainIndex_succ panes h] at inside later
          exact ⟨n + 1, by omega, inside, later⟩
      · rintro ⟨n, hn, inside, met⟩
        cases n with
        | zero => exact .inl met
        | succ n =>
          rw [chainIndex_succ panes h] at inside met
          exact .inr ⟨n, by omega, inside, met⟩
    · rw [dif_neg h]
      refine ⟨fun h => (nomatch h), fun ⟨n, _, inside, _⟩ => absurd inside ?_⟩
      rw [chainIndex_stands h]
      exact h

end

end Sys2Proof.Machine
end

section
/-! O22: a COMMIT that applies nothing. -/

namespace Sys2Proof.Machine

set_option Elab.async false

section
variable {s : State}

/-- What validation names in a CAMERAS load (R163): the first record in ascending number that fails its own checks,
and behind all of them the first enable that does not find its slots. -/
theorem State.validate_cameras_cases (bound : s.engine.load.first + s.engine.load.count ≤ 16)
    (table : s.engine.load.table = .cameras) :
    let r := fun c : Camera => cameraOf (s.engine.stagedBytes c.val)
    let sound := fun c : Camera => cameraRanges s.pool.slotBytes c (r c) ∧ cameraKept s.cameras[c] (r c)
    (∀ c : Camera, s.engine.stages .cameras c.val →
        (∀ c' : Camera, c' < c → s.engine.stages .cameras c'.val → sound c') →
        (¬cameraRanges s.pool.slotBytes c (r c) → s.validate = some ⟨.badRange, .cameras, c.val⟩)
          ∧ (cameraRanges s.pool.slotBytes c (r c) → ¬cameraKept s.cameras[c] (r c) →
            s.validate = some ⟨.busyCamera, .cameras, c.val⟩))
      ∧ ((∀ c : Camera, s.engine.stages .cameras c.val → sound c) →
        (∀ c : Camera, s.engine.stages .cameras c.val →
            (∀ c' : Camera, c' < c → s.engine.stages .cameras c'.val → ¬s.lacks c') → s.lacks c →
            s.validate = some ⟨.noSlot, .cameras, c.val⟩)
          ∧ ((∀ c : Camera, s.engine.stages .cameras c.val → ¬s.lacks c) → s.validate = none)) := by
  intro r sound
  obtain ⟨bad, good⟩ := State.firstBad_cameras bound table
  obtain ⟨lacking, enough⟩ := State.slotCheck_load bound table
  rw [State.validate_cameras table, State.validateCameras]
  refine ⟨fun c staged before => ⟨fun h => ?_, fun h1 h => ?_⟩, fun all => ⟨fun c staged before lacks => ?_,
    fun fits => ?_⟩⟩
  · rw [bad c staged before _ ((firstFailure_camera _ c _ _).1 h)]
  · rw [bad c staged before _ ((firstFailure_camera _ c _ _).2.1 h1 h)]
  · rw [good all, lacking c staged before lacks]
    rfl
  · rw [good all, enough fits]
    rfl

/-- What a disable frees, membership by membership (R7). -/
theorem State.countP_freed (s : State) (c : Camera) : (s.pool.slots.countP fun x =>
    decide ((x.disp = .ring c .ready ∨ x.disp = .ring c .filling ∨ x.disp = .ring c .empty) ∧ x.pins = 0))
      = s.freedByDisable c := by
  rw [s.freedByDisable_eq]
  refine List.countP_congr fun x _ => ?_
  rw [decide_eq_true_iff, SlotRec.freedBy_iff]
  refine and_congr_left fun _ => ⟨?_, ?_⟩
  · rintro (h | h | h) <;> exact ⟨_, h⟩
  · rintro ⟨_ | _ | _, h⟩ <;> simp [h]

theorem State.validate_layouts (table : s.engine.load.table = .layouts) : s.validate =
    walkLayouts (stagedLayouts s.layouts s.engine.records) s.panes fun l =>
      s.engine.records.any fun x => decide (x.1 = l.val) := by
  unfold State.validate
  dsimp only
  rw [table]

theorem State.validate_panes (table : s.engine.load.table = .panes) : s.validate =
    walkLayouts s.layouts (stagedPanes s.panes s.engine.records) fun l =>
      reaches (stagedPanes s.panes s.engine.records) (fun p => s.engine.records.any fun x => decide (x.1 = p))
        (s.layouts.get l).head := by
  unfold State.validate
  dsimp only
  rw [table]

/-- A staged layout's head, as the store would stand. -/
theorem stagedLayouts_head (bound : s.engine.load.first + s.engine.load.count ≤ 32)
    {l : Fin 32} (staged : s.engine.stages .layouts l.val) :
    ((stagedLayouts s.layouts s.engine.records).get l).head = (layoutOf (s.engine.stagedBytes l.val)).head := by
  refine congrArg LayoutRec.head ((records_foldl_getElem layoutOf s.engine bound s.layouts l).trans (if_pos ?_))
  exact ⟨staged.2.1, staged.2.2⟩

/-- The pane store as it would stand is the one that holds the staged records and, elsewhere, the panes in force. -/
theorem stagedPanes_unique (bound : s.engine.load.first + s.engine.load.count ≤ 224)
    (table : s.engine.load.table = .panes) {panes : Vector PaneRec 224}
    (holds : ∀ p : Fin 224, (s.engine.stages .panes p.val → panes.get p = paneOf (s.engine.stagedBytes p.val))
      ∧ (¬s.engine.stages .panes p.val → panes.get p = s.panes[p])) :
    stagedPanes s.panes s.engine.records = panes := by
  refine Vector.ext fun p hp => ?_
  refine (records_foldl_getElem paneOf s.engine bound s.panes ⟨p, hp⟩).trans (Eq.symm ?_)
  by_cases staged : s.engine.load.first ≤ p ∧ p < s.engine.load.first + s.engine.load.count
  · rw [if_pos staged]
    exact (holds ⟨p, hp⟩).1 ⟨table, staged⟩
  · rw [if_neg staged]
    exact (holds ⟨p, hp⟩).2 fun h => staged h.2

/-- A chain reaches a staged pane (R165). -/
theorem chainWalk_any_stages (bound : s.engine.load.first + s.engine.load.count ≤ 224)
    (table : s.engine.load.table = .panes) {panes : Vector PaneRec 224} {head : Nat} :
    reaches panes (fun p => s.engine.records.any fun x => decide (x.1 = p)) head = true ↔
      ∃ n, n < 224 ∧ s.engine.stages .panes (chainIndex panes head n) := by
  rw [reaches, chainWalk_any]
  refine exists_congr fun n => and_congr_right fun _ => ?_
  rw [Engine.records_any table]
  exact ⟨And.right, fun staged => ⟨Nat.lt_of_lt_of_le staged.2.2 bound, staged⟩⟩

end

/-- Settles O22: the answer of the COMMIT by the state of the load, and what validation names table by table. -/
theorem commitThatAppliesNothing : Obligations.CommitThatAppliesNothing := by
  unfold Obligations.CommitThatAppliesNothing
  refine ⟨fun r tag spare s running role inRange => ⟨commit_idle running role inRange,
    commit_short running role inRange, fun _ => commit_invalid running role inRange⟩, ?_⟩
  intro s staging range units e fails walks
  obtain ⟨low, high, bound, _⟩ := range.1 staging
  refine ⟨fun table => ?_, fun table => ?_, fun table => ?_, fun table => ?_, fun table => ?_,
    fun table panes holds => ?_⟩
  case refine_1 =>
    exact State.validate_setup_cases (State.validate_setup table (Engine.setup_load table ⟨low, bound⟩))
  case refine_2 =>
    intro staged r ranges kept enables freed change balance fits
    have slotBytes : s.pool.slotBytes = s.setup.slotUnits * 65536 := congrArg (· * 65536) units
    have freed_eq : freed = s.freedByDisable := funext s.countP_freed
    have change_eq : change = s.loadChange := by
      unfold change
      rw [freed_eq]
      rfl
    have balance_eq (c : Camera) : balance c = s.slotBalance c.val := by
      unfold balance
      rw [change_eq]
      rfl
    have lacks_iff (c : Camera) (h : staged c) : s.lacks c ↔ enables c ∧ ¬fits c := by
      unfold fits
      rw [balance_eq]
      exact ⟨fun ⟨off, on, lack⟩ => ⟨⟨h, off, on⟩, lack⟩, fun ⟨⟨_, off, on⟩, lack⟩ => ⟨off, on, lack⟩⟩
    have fits_of {c : Camera} (h : staged c) (fit : enables c → fits c) : ¬s.lacks c := fun lack =>
      ((lacks_iff c h).1 lack).2 (fit ((lacks_iff c h).1 lack).1)
    rw [table] at bound
    have named := State.validate_cameras_cases bound table
    rw [slotBytes] at named
    obtain ⟨bad, good⟩ := named
    refine ⟨bad, fun all => ?_⟩
    obtain ⟨lacking, enough⟩ := good all
    exact ⟨fun c enable before lack => lacking c enable.1 (fun c' below h => fits_of h (before c' below))
      ((lacks_iff c enable.1).2 ⟨enable, lack⟩), fun fit => enough fun c h => fits_of h (fit c)⟩
  case refine_3 =>
    rw [table] at bound
    obtain ⟨bad, good⟩ := firstBad_ranges s.engine .screens table bound fun f =>
      (ScreenRec.inRange_iff (r := screenOf f))
    rw [← State.validate_screens table] at bad good
    exact ⟨bad, good⟩
  case refine_4 =>
    rw [table] at bound
    obtain ⟨bad, good⟩ := firstBad_ranges s.engine .doors table bound fun f => (DoorRec.inRange_iff (r := doorOf f))
    rw [← State.validate_doors table] at bad good
    exact ⟨bad, good⟩
  case refine_5 =>
    rw [table] at bound
    exact walkLayouts_names _ (fun l => Engine.records_any table l.val) (fun l => stagedLayouts_head bound)
      (State.validate_layouts table)
  case refine_6 =>
    rw [table] at bound
    have eq := State.validate_panes table
    rw [stagedPanes_unique bound table holds] at eq
    refine walkLayouts_names _ (fun l => chainWalk_any_stages bound table) (fun l _ => rfl) eq

end Sys2Proof.Machine
end

section
/-! What one applied SCREEN or DOOR record does (O23), and the notices that an applied record gives the screens. -/

namespace Sys2Proof.Machine

set_option Elab.async false

section
variable {s t u : State}

/-! ### The SPOT reports -/

/-- Reports of kind SPOT alone. -/
structure SpotReports (rs : List Report) : Prop where
  kind : ∀ x ∈ rs, x.kind = 8

theorem SpotReports.nil : SpotReports [] := ⟨fun _ h => (List.not_mem_nil h).elim⟩

theorem SpotReports.append {rs qs : List Report} (h : SpotReports rs) (k : SpotReports qs) : SpotReports (rs ++ qs) :=
  ⟨fun x hx => (List.mem_append.1 hx).elim (h.kind x) (k.kind x)⟩

theorem SpotReports.cons {r : Report} {rs : List Report} (h : r.kind = 8) (k : SpotReports rs) :
    SpotReports (r :: rs) :=
  ⟨List.forall_mem_cons.2 ⟨h, k.kind⟩⟩

theorem spotReports_closeChange (i : Screen) (now : Time) (l : SpotList) (new : List SpotEntry) (created : Nat)
    (renewed : Bool) : SpotReports (closeChange i now l new created renewed).2 := by
  unfold closeChange governingReports
  dsimp only
  split
  · exact .nil
  · exact .cons rfl .nil

theorem spotReports_raiseIn (i : Screen) (now : Time) (o : Origin) (level layout : Nat) (l : SpotList) :
    SpotReports (raiseIn i now o level layout l).2.1 := by
  unfold raiseIn
  split
  · dsimp only
    exact spotReports_closeChange ..
  · dsimp only
    split
    · dsimp only
      exact spotReports_closeChange ..
    · split
      · exact .nil
      · split
        · exact .cons rfl (spotReports_closeChange ..)
        · exact .cons rfl .nil

theorem spotReports_endIn (i : Screen) (now : Time) (o : Origin) (ms : Nat) (l : SpotList) :
    SpotReports (endIn i now o ms l).2 := by
  unfold endIn
  split
  · exact .nil
  · split
    · exact spotReports_closeChange ..
    · exact spotReports_closeChange ..

/-! ### Notices -/

/-- Every screen's list changes as `x` says, with SPOT reports alone. -/
structure Notified (x : Screen → SpotList → SpotList) (s t : State) : Prop where
  spots : ∀ i : Screen, t.spots[i] = x i s.spots[i]
  told : ∃ rs, SpotReports rs ∧ Logged rs s t

theorem Notified.refl (s : State) : Notified (fun _ l => l) s s := ⟨fun _ => rfl, [], .nil, .refl s⟩

theorem Notified.trans {x y : Screen → SpotList → SpotList} (h : Notified x s t) (k : Notified y t u) :
    Notified (fun i l => y i (x i l)) s u := by
  obtain ⟨rs, only, log⟩ := h.told
  obtain ⟨qs, also, later⟩ := k.told
  exact ⟨fun i => by rw [k.spots, h.spots], rs ++ qs, only.append also, log.trans later⟩

/-- A notice that goes to the screens one by one. -/
theorem Notified.of_screens {f : State → Screen → State} {x : Screen → SpotList × List Report}
    (step : ∀ u i, u.time = s.time → u.spots[i] = s.spots[i] →
      f u i = u.spotTo i (x i) ∨ f u i = u ∧ x i = (s.spots[i], []))
    (only : ∀ i, SpotReports (x i).2) {y : Screen → SpotList → SpotList} (eq : ∀ i, (x i).1 = y i s.spots[i]) :
    Notified y s ((List.finRange 4).foldl f s) := by
  obtain ⟨lists, log⟩ := spots_foldl_all step
  refine ⟨fun i => (lists i).trans (eq i), _, ⟨fun r hr => ?_⟩, log⟩
  obtain ⟨i, -, hi⟩ := List.mem_flatMap.1 hr
  exact (only i).kind r hi

theorem State.raiseOrigin_notified (s : State) (o : Origin) (q : SpotRequest) :
    Notified (fun i => raiseNotice i s.time o q) s (s.raiseOrigin o q) := by
  obtain ⟨lists, log⟩ := s.raiseOrigin_spots o q
  refine ⟨fun i => (lists i).trans ?_, _, ⟨fun r hr => ?_⟩, log⟩
  · unfold raisedFor raiseNotice
    split <;> rfl
  · obtain ⟨i, -, hi⟩ := List.mem_flatMap.1 hr
    unfold raisedFor at hi
    split at hi
    · exact (spotReports_raiseIn ..).kind r hi
    · exact (List.not_mem_nil hi).elim

theorem State.endOrigin_notified (s : State) (o : Origin) (ms : Nat) :
    Notified (fun i l => (endIn i s.time o ms l).1) s (s.endOrigin o ms) := by
  obtain ⟨lists, log⟩ := s.endOrigin_spots o ms
  refine ⟨lists, _, ⟨fun r hr => ?_⟩, log⟩
  obtain ⟨i, -, hi⟩ := List.mem_flatMap.1 hr
  exact (spotReports_endIn ..).kind r hi

/-- What a changed request description makes of one screen's list (R120), with its reports. -/
def changedFor (i : Screen) (now : Time) (o : Origin) (old new : SpotRequest) (l : SpotList) : SpotList × List Report :=
  match old.mask.getLsbD i.val, new.mask.getLsbD i.val with
  | false, true => ((raiseIn i now o new.level new.layout l).1, (raiseIn i now o new.level new.layout l).2.1)
  | true, false => endIn i now o new.lingerMs l
  | true, true =>
    if (old.level ≠ new.level ∨ old.layout ≠ new.layout) ∧ (l.entryOf o).any (·.active) = true then
      ((raiseIn i now o new.level new.layout l).1, (raiseIn i now o new.level new.layout l).2.1)
    else (l, [])
  | false, false => (l, [])

theorem changedFor_list (i : Screen) (now : Time) (o : Origin) (old new : SpotRequest) (l : SpotList) :
    (changedFor i now o old new l).1 = changeNotice i now o old new l := by
  unfold changedFor changeNotice
  cases old.mask.getLsbD i.val <;> cases new.mask.getLsbD i.val
  case true.true =>
    dsimp only
    split <;> rfl
  all_goals rfl

theorem spotReports_changedForFor (i : Screen) (now : Time) (o : Origin) (old new : SpotRequest) (l : SpotList) :
    SpotReports (changedFor i now o old new l).2 := by
  unfold changedFor
  split
  · exact spotReports_raiseIn ..
  · exact spotReports_endIn ..
  · split
    · exact spotReports_raiseIn ..
    · exact .nil
  · exact .nil

theorem State.redescribeOn_eq (u : State) (o : Origin) (old new : SpotRequest) (i : Screen) :
    u.redescribeOn o old new i = u.spotTo i (changedFor i u.time o old new u.spots[i])
      ∨ u.redescribeOn o old new i = u ∧ changedFor i u.time o old new u.spots[i] = (u.spots[i], []) := by
  unfold State.redescribeOn changedFor
  cases old.mask.getLsbD i.val <;> cases new.mask.getLsbD i.val
  case false.false => exact .inr ⟨rfl, rfl⟩
  case false.true => exact .inl rfl
  case true.false => exact .inl rfl
  case true.true =>
    by_cases differ : old.level ≠ new.level ∨ old.layout ≠ new.layout
    · cases entry : u.spots[i].entryOf o with
      | none => simp [differ]
      | some e =>
        cases active : e.active <;> simp [differ, active, State.raiseOn]
    · obtain ⟨level, layout⟩ := not_or.1 differ
      simp [not_not.1 level, not_not.1 layout]

theorem State.redescribe_notified (s : State) (o : Origin) (old new : SpotRequest) :
    Notified (fun i => changeNotice i s.time o old new) s (s.redescribe o old new) := by
  refine .of_screens (x := fun i => changedFor i s.time o old new s.spots[i]) (fun u i time spot => ?_)
    (fun i => spotReports_changedForFor ..) fun i => changedFor_list ..
  have here := u.redescribeOn_eq o old new i
  rwa [time, spot] at here

/-! ### SCREEN records -/

theorem State.endStarved_setScreen (s : State) (i : Screen) (new : ScreenRec) (c : Camera) :
    (s.setScreen i new).endStarved c = (s.endStarved c).setScreen i new := by
  have target : (s.setScreen i new).takeTarget c = (s.takeTarget c).map fun u => u.setScreen i new := by
    unfold State.takeTarget
    show (match targetChoice (fun k => (s.slot k).pins) s.rings[c] with | some (k, r) => _ | none => _) = _
    cases targetChoice (fun k => (s.slot k).pins) s.rings[c] <;> rfl
  unfold State.endStarved
  rw [target]
  cases s.takeTarget c <;> rfl

theorem State.unpinned_setScreen (s : State) (i : Screen) (new : ScreenRec) (k : Nat) :
    (s.setScreen i new).unpinned k = (s.unpinned k).setScreen i new := by
  have slot : (s.setScreen i new).slot k = s.slot k := rfl
  unfold State.unpinned
  rw [slot]
  rcases (s.slot k).disp with _ | ⟨c, _ | _ | _⟩ | h | _
  case ring.ready =>
    dsimp only
    rw [State.endStarved_setScreen]
    exact (apply_ite (fun u => State.setScreen u i new) _ _ _).symm
  all_goals rfl

theorem State.unpin_setScreen (s : State) (i : Screen) (new : ScreenRec) (k : Nat) :
    (s.setScreen i new).unpin k = (s.unpin k).setScreen i new := by
  have slot : (s.setScreen i new).slot k = s.slot k := rfl
  unfold State.unpin
  dsimp only
  rw [slot, apply_ite (fun u => State.setScreen u i new), apply_ite (fun u => State.setScreen u i new),
    ← State.unpinned_setScreen]
  rfl

theorem State.unpinContext_setScreen (s : State) (i : Screen) (new : ScreenRec) :
    (s.setScreen i new).unpinContext i = (s.unpinContext i).setScreen i new := by
  have context : (s.setScreen i new).contexts[i] = s.contexts[i] := rfl
  unfold State.unpinContext
  rw [context]
  cases s.contexts[i] with
  | none => rfl
  | some x => exact List.foldl_hom (fun u => State.setScreen u i new) fun u k => u.unpin_setScreen i new k

/-- One applied SCREEN record (R72). -/
theorem State.applyScreen_record (s : State) (i : Screen) (new : ScreenRec) :
    (s.applyScreen i new).screens = upd s.screens i new
      ∧ (¬(s.screens[i].enable = true ∧ new.enable = false) → Touches [.screens] s (s.applyScreen i new))
      ∧ (s.screens[i].enable = true → new.enable = false →
        s.applyScreen i new = ((s.unpinContext i).setScreen i new).setContext i none) := by
  refine ⟨s.applyScreen_screens i new, fun stays => ?_, fun on off => ?_⟩
  · unfold State.applyScreen
    rw [if_neg (by simpa using stays)]
    exact fun p hp => by cases p <;> first | rfl | exact absurd hp (by decide)
  · unfold State.applyScreen
    rw [on, off]
    exact (State.releaseContext_eq _ i).trans (by rw [State.unpinContext_setScreen])

/-! ### DOOR records -/

/-- The notice of one source when a DOOR record is applied (R118): raised, ended or redescribed. -/
def State.sourceNotice (s : State) (o : Origin) (was is active : Bool) (old new : SpotRequest) : State :=
  match was, is with
  | false, true => s.notice o new false active
  | true, false => s.notice o new active false
  | true, true => if active then s.redescribe o old new else s
  | false, false => s

theorem State.sourceNotice_effect (s : State) (o : Origin) (was is active : Bool) (old new : SpotRequest) :
    Effect [.spots] s (s.sourceNotice o was is active old new) := by
  unfold State.sourceNotice
  split
  · exact s.notice_effect ..
  · exact s.notice_effect ..
  · exact .ite (fun _ => s.redescribe_effect ..) fun _ => .refl _ s
  · exact .refl _ s

theorem State.sourceNotice_notified (s : State) (o : Origin) (was is active : Bool) (old new : SpotRequest) :
    Notified (fun i => doorNotice i s.time o was is active old new) s (s.sourceNotice o was is active old new) := by
  cases active with
  | false => cases was <;> cases is <;> exact .refl s
  | true =>
    cases was <;> cases is
    case false.false => exact .refl s
    case false.true => exact s.raiseOrigin_notified o new
    case true.false => exact s.endOrigin_notified o new.lingerMs
    case true.true => exact s.redescribe_notified o old new

/-- The state that an applied DOOR record gives its door (R118). -/
def State.doorFormed (s : State) (d : Door) (new : DoorRec) : DoorState :=
  if s.doors[d].enable = new.enable then s.doorUnit.states.get d
  else doorStateOf new.enable (s.doorUnit.alerts.get d).accepted (s.doorUnit.opens.get d).accepted

/-- One applied DOOR record: the state formed, then the open source and the alert source (log entry 30). -/
theorem State.applyDoor_eq (s : State) (d : Door) (new : DoorRec) : s.applyDoor d new =
    (((s.setDoor d new).setDoorState d (s.doorFormed d new) (if new.enable then .enable else .disable)).sourceNotice
      (.doorOpen d) s.doors[d].enable new.enable (levelActive (s.doorUnit.opens.get d).accepted) s.doors[d].openReq
      new.openReq).sourceNotice (.doorAlert d) s.doors[d].enable new.enable
      (levelActive (s.doorUnit.alerts.get d).accepted) s.doors[d].alertReq new.alertReq := by
  have unit : (s.setDoor d new).doorUnit = s.doorUnit := rfl
  have self (cause : DoorCause) : (s.setDoor d new).setDoorState d (s.doorUnit.states.get d) cause = s.setDoor d new :=
    State.setDoorState_self ..
  have record : (s.setDoor d new).doors[d] = new := upd_getElem_self ..
  unfold State.applyDoor State.doorFormed State.openActive State.alertActive
  dsimp only
  rw [unit, record]
  cases was : s.doors[d].enable <;> cases is : new.enable
  case false.true => rfl
  case true.false => rfl
  case false.false =>
    rw [if_pos rfl, self]
    simp only [Bool.false_and, Bool.false_eq_true, if_false, record, is]
    rfl
  case true.true =>
    rw [if_pos rfl, self, if_neg (by decide), if_neg (by decide), Bool.true_and]
    have open_effect := (s.setDoor d new).sourceNotice_effect (.doorOpen d) true true
      (levelActive (s.doorUnit.opens.get d).accepted) s.doors[d].openReq new.openReq
    have opened : (if levelActive (s.doorUnit.opens.get d).accepted = true then
        (s.setDoor d new).redescribe (.doorOpen d) s.doors[d].openReq new.openReq else s.setDoor d new)
        = (s.setDoor d new).sourceNotice (.doorOpen d) true true (levelActive (s.doorUnit.opens.get d).accepted)
          s.doors[d].openReq new.openReq := rfl
    rw [opened, show State.doors _ = (s.setDoor d new).doors from open_effect.same .doors,
      show State.doorUnit _ = (s.setDoor d new).doorUnit from open_effect.same .doorUnit, record, is, Bool.true_and]
    rfl

/-- What one applied DOOR record leaves (R118). -/
theorem State.applyDoor_told (s : State) (d : Door) (new : DoorRec) :
    let was := s.doorUnit.states.get d
    (s.applyDoor d new).doors = upd s.doors d new
      ∧ (s.applyDoor d new).doorUnit = s.doorUnit.stored d (s.doorFormed d new)
      ∧ (∀ i : Screen, (s.applyDoor d new).spots[i] =
        doorNotice i s.time (.doorAlert d) s.doors[d].enable new.enable
          (levelActive (s.doorUnit.alerts.get d).accepted) s.doors[d].alertReq new.alertReq
          (doorNotice i s.time (.doorOpen d) s.doors[d].enable new.enable
            (levelActive (s.doorUnit.opens.get d).accepted) s.doors[d].openReq new.openReq s.spots[i]))
      ∧ ∃ rs, SpotReports rs ∧ Logged (doorReports d was (s.doorFormed d new)
          (if new.enable then .enable else .disable) ++ rs) s (s.applyDoor d new) := by
  rw [s.applyDoor_eq]
  have stored := (s.setDoor d new).setDoorState_eq d (s.doorFormed d new) (if new.enable then .enable else .disable)
  have effect := (s.setDoor d new).setDoorState_effect d (s.doorFormed d new) (if new.enable then .enable else .disable)
  generalize (s.setDoor d new).setDoorState d (s.doorFormed d new) (if new.enable then .enable else .disable) = u
    at stored effect ⊢
  have time : u.time = s.time := effect.time
  have spots : u.spots = s.spots := effect.same .spots
  have sent := (u.sourceNotice_notified (.doorOpen d) s.doors[d].enable new.enable
    (levelActive (s.doorUnit.opens.get d).accepted) s.doors[d].openReq new.openReq).trans
      (State.sourceNotice_notified _ (.doorAlert d) s.doors[d].enable new.enable
        (levelActive (s.doorUnit.alerts.get d).accepted) s.doors[d].alertReq new.alertReq)
  have kept := (u.sourceNotice_effect (.doorOpen d) s.doors[d].enable new.enable
    (levelActive (s.doorUnit.opens.get d).accepted) s.doors[d].openReq new.openReq)
  have later := kept.trans (State.sourceNotice_effect _ (.doorAlert d) s.doors[d].enable new.enable
        (levelActive (s.doorUnit.alerts.get d).accepted) s.doors[d].alertReq new.alertReq)
  obtain ⟨rs, only, log⟩ := sent.told
  refine ⟨(later.same .doors).trans (effect.same .doors), (later.same .doorUnit).trans ?_, fun i => ?_, rs, only, ?_⟩
  · rw [stored]
    exact State.emitAll_doorUnit ..
  · rw [sent.spots, kept.time, time, spots]
  · refine Logged.trans ?_ log
    rw [stored]
    exact Logged.trans (rs := []) (t := { s.setDoor d new with doorUnit := s.doorUnit.stored d (s.doorFormed d new) })
      ⟨rfl, rfl, rfl⟩ (.emitAll _ _)

end

end Sys2Proof.Machine
end

section
/-! What one applied SETUP record does (O23). -/

namespace Sys2Proof.Machine

set_option Elab.async false

section
variable {s : State}

/-- The part with a SETUP record stored and the slot table rebuilt where it differs (R1). -/
def State.setupStored (s : State) (new : SetupRec) : State :=
  { s with setup := new, pool := s.pool.regeometry new.slotBase new.slotUnits new.slotCount }

/-- The part with REVERSE redescribed where it is active (R120). -/
def State.reverseChanged (s : State) (old new : SetupRec) : State :=
  if s.doorUnit.reverse.accepted = some true then s.redescribe .reverse old.reverse new.reverse else s

theorem State.setupDoors_eq (s : State) (old new : SetupRec) : s.setupDoors old new =
    if old.debounce ≠ new.debounce then (s.reverseChanged old new).debounceChanged else s.reverseChanged old new := by
  unfold State.setupDoors State.reverseChanged
  rw [levelActive_eq]
  simp only [decide_eq_true_eq]

theorem State.reverseChanged_effect (s : State) (old new : SetupRec) : Effect [.spots] s (s.reverseChanged old new) :=
  .ite (fun _ => s.redescribe_effect ..) fun _ => .refl _ s

/-- No sample falls due by the new debounce period: the door unit only redescribes REVERSE. -/
theorem State.setupDoors_noSample {u : State} {old new : SetupRec} (stored : u.setup = new)
    (noSample : old.debounce = new.debounce ∨ elapsed u.doorUnit.lastSample u.time < new.debounce) :
    u.setupDoors old new = u.reverseChanged old new := by
  rw [State.setupDoors_eq]
  by_cases same : old.debounce = new.debounce
  · exact if_neg (not_not.2 same)
  · rw [if_pos same]
    have kept := u.reverseChanged_effect old new
    have due : (u.reverseChanged old new).sampleDue = false := by
      unfold State.sampleDue
      rw [show State.setup _ = u.setup from kept.same .setup, show State.doorUnit _ = u.doorUnit from
        kept.same .doorUnit, kept.time, stored]
      exact decide_eq_false (by omega)
    unfold State.debounceChanged
    rw [due]
    rfl

/-- A sample that falls due by the new debounce period is taken at once (R112). -/
theorem State.setupDoors_sample {u : State} {old new : SetupRec} (stored : u.setup = new)
    (sample : ¬(old.debounce = new.debounce ∨ elapsed u.doorUnit.lastSample u.time < new.debounce)) :
    (u.setupDoors old new).doorUnit.lastSample = u.time
      ∧ (u.setupDoors old new).doorUnit.opens = (u.doorUnit.sampled u.lines).opens
      ∧ (u.setupDoors old new).doorUnit.alerts = (u.doorUnit.sampled u.lines).alerts
      ∧ (u.setupDoors old new).doorUnit.reverse = (u.doorUnit.sampled u.lines).reverse := by
  obtain ⟨differ, late⟩ := not_or.1 sample
  rw [State.setupDoors_eq, if_pos differ]
  have kept := u.reverseChanged_effect old new
  have unit : (u.reverseChanged old new).doorUnit = u.doorUnit := kept.same .doorUnit
  have lines : (u.reverseChanged old new).lines = u.lines := kept.same .lines
  have due : (u.reverseChanged old new).sampleDue = true := by
    unfold State.sampleDue
    rw [show State.setup _ = u.setup from kept.same .setup, unit, kept.time, stored]
    exact decide_eq_true (by omega)
  unfold State.debounceChanged
  rw [if_pos due, (State.sampleLines_unit _).1, State.sampledUnit_debouncers, unit, lines, kept.time]
  exact ⟨rfl, rfl, rfl, rfl⟩

/-- What one applied SETUP record does (R1, R112, R120, R176). -/
theorem State.applySetup_told (s : State) (new : SetupRec) :
    let t := s.applySetup new
    let old := s.setup
    let noSample := old.debounce = new.debounce ∨ elapsed s.doorUnit.lastSample s.time < new.debounce
    let sameSlots := s.pool.base = new.slotBase ∧ s.pool.units = new.slotUnits ∧ s.pool.slots.length = new.slotCount
    let sameRing := s.ring.base = new.ringBase ∧ s.ring.capacity = new.ringCapacity
    t.setup = new ∧ Touches [.setup, .pool, .rings, .doorUnit, .spots, .holds, .mem, .ring] s t
      ∧ (¬sameRing → t.ring = ⟨new.ringBase, new.ringCapacity, true, 0, 0, 0⟩)
      ∧ (noSample → sameSlots → t.pool = s.pool)
      ∧ (noSample → ¬sameSlots →
          t.pool = ⟨new.slotBase, new.slotUnits, List.replicate new.slotCount ⟨.free, 0, none⟩⟩)
      ∧ (noSample → t.rings = s.rings ∧ t.holds = s.holds ∧ t.doorUnit = s.doorUnit)
      ∧ (noSample → s.doorUnit.reverse.accepted ≠ some true →
          t.spots = s.spots ∧ t.mem = s.mem ∧ (sameRing → t.ring = s.ring))
      ∧ (noSample → s.doorUnit.reverse.accepted = some true → ∀ i : Screen,
          t.spots[i] = changeNotice i s.time .reverse old.reverse new.reverse s.spots[i])
      ∧ (¬noSample → t.doorUnit.lastSample = s.time
          ∧ t.doorUnit.opens = (s.doorUnit.sampled s.lines).opens
          ∧ t.doorUnit.alerts = (s.doorUnit.sampled s.lines).alerts
          ∧ t.doorUnit.reverse = (s.doorUnit.sampled s.lines).reverse) := by
  intro t old noSample sameSlots sameRing
  have effect := (s.setupStored new).setupDoors_effect old new
  have quiet (h : noSample) : (s.setupStored new).setupDoors old new = (s.setupStored new).reverseChanged old new :=
    State.setupDoors_noSample rfl h
  have sampled (h : ¬noSample) := State.setupDoors_sample (u := s.setupStored new) (old := old) rfl h
  have at_t : t = { (s.setupStored new).setupDoors old new with
    ring := ((s.setupStored new).setupDoors old new).ring.reconfigure new.ringBase new.ringCapacity } := rfl
  have kept := (s.setupStored new).reverseChanged_effect old new
  have pool (h : noSample) : t.pool = s.pool.regeometry new.slotBase new.slotUnits new.slotCount := by
    rw [at_t, quiet h]
    exact kept.same .pool
  refine ⟨effect.same .setup, ?_, fun differ => ?_, fun h same => (pool h).trans (if_pos same),
    fun h differ => (pool h).trans (if_neg differ), fun h => ?_, fun h off => ?_, fun h on i => ?_, sampled⟩
  · have stored : Touches [.setup, .pool] s (s.setupStored new) := fun p hp => by
      cases p <;> first | rfl | exact absurd hp (by decide)
    have ring : Touches [.ring] ((s.setupStored new).setupDoors old new) t := fun p hp => by
      cases p <;> first | rfl | exact absurd hp (by decide)
    exact ((stored.trans effect.touches).trans ring).mono (by decide)
  · obtain ⟨base, capacity⟩ := effect.ringPlace
    rw [at_t]
    refine if_neg ?_
    rw [base, capacity]
    exact differ
  · rw [at_t, quiet h]
    exact ⟨kept.same .rings, kept.same .holds, kept.same .doorUnit⟩
  · rw [at_t, quiet h, show (s.setupStored new).reverseChanged old new = s.setupStored new from if_neg off]
    exact ⟨rfl, rfl, fun same => if_pos same⟩
  · rw [at_t, quiet h, show (s.setupStored new).reverseChanged old new =
      (s.setupStored new).redescribe .reverse old.reverse new.reverse from if_pos on]
    exact ((s.setupStored new).redescribe_notified .reverse old.reverse new.reverse).spots i

end

end Sys2Proof.Machine
end

section
/-! What the Lens Monitor makes of an applied CAMERA record (R64 to R66, O23). -/

namespace Sys2Proof.Machine

set_option Elab.async false

section
variable {c : Camera} {old new : CameraRec} {l : LensRec}

/-! ### Records -/

/-- A lens record behind a CAMERA record: a new geometry discards the baseline, a cut run its figures, a switch or an
enable starts the eligible counter over, and an enable the verdict on a baseline that stands. -/
def LensRec.applied (l : LensRec) (geometry cut rezero verdict : Bool) : LensRec :=
  { l with
    baseline := if geometry then none else l.baseline
    usableCount := if geometry then 0 else l.usableCount
    state := if geometry then .unlearned else if verdict then .clean else l.state
    scores := if geometry || verdict then Vector.replicate 48 256 else l.scores
    flags := if geometry || verdict then Vector.replicate 48 false else l.flags
    history := if geometry || verdict then [] else l.history
    learn := if cut then .idle else l.learn
    sums := if cut then Vector.replicate 48 0 else l.sums
    learned := if cut then 0 else l.learned
    candidates := if cut then 0 else l.candidates
    eligible := if rezero then 0 else l.eligible }

/-- The lens monitor of the camera is switched off by the record. -/
def lensOff (old new : CameraRec) : Bool := old.lensOn && !new.lensOn

/-- The lens monitor of the camera is switched on by the record. -/
def lensOn (old new : CameraRec) : Bool := !old.lensOn && new.lensOn

/-- A run is under way. -/
def LensRec.runs (l : LensRec) : Bool := decide (l.learn ≠ .idle)

theorem discardRun_record (cause : DiscardCause) : (discardRun c cause l).1 = l.applied false l.runs false false := by
  unfold discardRun LensRec.runs
  by_cases idle : l.learn = .idle
  · rw [if_pos idle, decide_eq_false (not_not.2 idle)]
    rfl
  · rw [if_neg idle, decide_eq_true idle]
    rfl

theorem lensDisabled_record : (lensDisabled c old new l).1 = l.applied false l.runs false false := discardRun_record _

theorem baselineDiscard_record : (baselineDiscard c l).1 = l.applied true l.runs false false := by
  unfold baselineDiscard
  dsimp only
  rw [discardRun_record]
  rfl

theorem lensSwitch_record :
    (lensSwitch c old new l).1 = l.applied false (l.runs && lensOff old new) (lensOn old new) false := by
  unfold lensSwitch lensOff lensOn
  cases old.lensOn <;> cases new.lensOn
  case true.false =>
    show (discardRun c .lensOff l).1 = l.applied false (l.runs && true) false false
    rw [Bool.and_true]
    exact discardRun_record .lensOff
  all_goals cases l.runs <;> rfl

theorem lensEnabled_record : (lensEnabled c l).1 = l.applied false false true l.baseline.isSome := by
  unfold lensEnabled verdictRestart LensRec.applied
  dsimp only
  cases l.baseline <;> rfl

/-- A later step, behind which runs and baselines that were cut or discarded stay so. -/
theorem LensRec.applied_applied {geometry geometry' cut cut' rezero : Bool} :
    (l.applied geometry cut false false).applied geometry' cut' rezero false =
      l.applied (geometry || geometry') (cut || cut') rezero false := by
  cases geometry <;> cases geometry' <;> cases cut <;> cases cut' <;> rfl

/-- The enable behind the configuration, with a verdict on the baseline that stands. -/
theorem LensRec.applied_enabled {geometry cut rezero : Bool} :
    (lensEnabled c (l.applied geometry cut rezero false)).1 =
      l.applied geometry cut true (!geometry && l.baseline.isSome) := by
  rw [lensEnabled_record]
  cases geometry <;> cases cut
  case true.false => rfl
  case true.true => rfl
  all_goals
    unfold LensRec.applied
    dsimp only
    cases l.baseline <;> rfl

theorem LensRec.applied_runs {geometry cut rezero verdict : Bool} :
    (l.applied geometry cut rezero verdict).runs = (l.runs && !cut) := by
  cases cut
  · exact (Bool.and_true _).symm
  · exact (Bool.and_false _).symm

theorem lensConfigured_record : (lensConfigured c old new l).1 =
    l.applied (geometryChanged old new) (l.runs && (geometryChanged old new || lensOff old new)) (lensOn old new)
      false := by
  unfold lensConfigured
  dsimp only
  rw [lensSwitch_record]
  cases geometryChanged old new with
  | false => rfl
  | true =>
    rw [if_pos rfl, baselineDiscard_record, LensRec.applied_applied, LensRec.applied_runs]
    cases l.runs <;> rfl

/-- The record behind a disable by the same CAMERA record. -/
theorem lensDisabled_configured : (lensConfigured c old new (lensDisabled c old new l).1).1 =
    l.applied (geometryChanged old new) l.runs (lensOn old new) false := by
  rw [lensConfigured_record, lensDisabled_record, LensRec.applied_applied, LensRec.applied_runs]
  cases l.runs <;> rfl

/-! ### Reports -/

/-- The LENS report of a discarded baseline (R66). -/
def LensRec.unlearnedReports (c : Camera) (geometry : Bool) (l : LensRec) : List Report :=
  if geometry = true ∧ l.state ≠ .unlearned then [.lens c l.state .unlearned .config none] else []

/-- The LEARN_END report of a run that is cut (R62). -/
def LensRec.cutReports (c : Camera) (cause : DiscardCause) (l : LensRec) : List Report :=
  if l.learn = .idle then [] else [.learnEnd c (.discarded cause) l.learned l.candidates none]

theorem LensRec.cutReports_of_idle (idle : l.runs = false) (cause : DiscardCause) : l.cutReports c cause = [] :=
  if_pos (not_not.1 (of_decide_eq_false idle))

theorem discardRun_reports (cause : DiscardCause) : (discardRun c cause l).2 = l.cutReports c cause := by
  unfold discardRun LensRec.cutReports
  split <;> rfl

theorem lensSwitch_reports : (lensSwitch c old new l).2 =
    if lensOff old new = true then l.cutReports c .lensOff else [] := by
  unfold lensSwitch lensOff
  cases old.lensOn <;> cases new.lensOn
  case true.false => exact discardRun_reports .lensOff
  all_goals rfl

theorem lensConfigured_reports : (lensConfigured c old new l).2 =
    l.unlearnedReports c (geometryChanged old new) ++
      if geometryChanged old new = true then l.cutReports c .config
      else if lensOff old new = true then l.cutReports c .lensOff else [] := by
  unfold lensConfigured
  dsimp only
  rw [lensSwitch_reports]
  cases geometryChanged old new with
  | false => rfl
  | true =>
    have idle : (baselineDiscard c l).1.runs = false := by
      rw [baselineDiscard_record, LensRec.applied_runs]
      cases l.runs <;> rfl
    rw [if_pos rfl, if_pos rfl, LensRec.cutReports_of_idle idle, ite_self, List.append_nil]
    unfold baselineDiscard LensRec.unlearnedReports
    dsimp only
    rw [discardRun_reports]
    exact congrArg (· ++ _) (if_congr (by simp) rfl rfl)

/-- Behind a disable the run is gone: the configuration reports the discarded baseline alone. -/
theorem lensDisabled_configured_reports : (lensConfigured c old new (lensDisabled c old new l).1).2 =
    l.unlearnedReports c (geometryChanged old new) := by
  have idle : (lensDisabled c old new l).1.runs = false := by
    rw [lensDisabled_record, LensRec.applied_runs]
    cases l.runs <;> rfl
  rw [lensConfigured_reports, LensRec.cutReports_of_idle idle, LensRec.cutReports_of_idle idle, ite_self, ite_self,
    List.append_nil, lensDisabled_record]
  rfl

theorem lensEnabled_reports : (lensEnabled c l).2 =
    if l.baseline ≠ none ∧ (l.state = .part ∨ l.state = .obscured) then
      [.lens c l.state .clean .enable none] else [] := by
  unfold lensEnabled verdictRestart
  dsimp only
  cases l.baseline with
  | none => exact (if_neg fun h => h.1 rfl).symm
  | some b => exact if_congr (by simp) rfl rfl

end

end Sys2Proof.Machine
end

section
/-! What one applied CAMERA record does block by block (O23): a disable, an enable, a new configuration. -/

namespace Sys2Proof.Machine

set_option Elab.async false

section
variable {s t v : State} {c : Camera} {old new : CameraRec}

/-! ### The lens record -/

/-- The figures of a lens record behind a CAMERA record (R62, R64, R66). -/
theorem LensRec.applied_told {l l' : LensRec} {geometry cause rezero verdict : Bool}
    (eq : l' = l.applied geometry (l.runs && cause) rezero verdict) :
    (geometry = true → l'.baseline = none ∧ l'.usableCount = 0 ∧ l'.state = .unlearned ∧ l'.verdictFresh)
      ∧ (geometry = false → l'.baseline = l.baseline ∧ l'.usableCount = l.usableCount)
      ∧ (l.learn ≠ .idle → cause = true → l'.noRun)
      ∧ (l.learn = .idle ∨ cause = false →
        l'.learn = l.learn ∧ l'.sums = l.sums ∧ l'.learned = l.learned ∧ l'.candidates = l.candidates)
      ∧ (l'.noiseInUse = l.noiseInUse ∧ l'.lastMean = l.lastMean ∧ l'.lastDark = l.lastDark)
      ∧ l'.eligible = (if rezero = true then 0 else l.eligible)
      ∧ (geometry = false → verdict = false →
        l'.state = l.state ∧ l'.scores = l.scores ∧ l'.flags = l.flags ∧ l'.history = l.history)
      ∧ (geometry = false → verdict = true → l'.verdictFresh ∧ l'.state = .clean) := by
  subst eq
  have fresh {x : LensRec} (scores : x.scores = Vector.replicate 48 256) (flags : x.flags = Vector.replicate 48 false)
      (history : x.history = []) : x.verdictFresh :=
    ⟨fun z => by rw [scores, flags, get_replicate, get_replicate]; exact ⟨rfl, rfl⟩, history⟩
  refine ⟨?_, ?_, fun running why => ?_, fun kept => ?_, ⟨rfl, rfl, rfl⟩, rfl, ?_, ?_⟩
  · rintro rfl
    exact ⟨rfl, rfl, rfl, fresh rfl rfl rfl⟩
  · rintro rfl
    exact ⟨rfl, rfl⟩
  · have cut : (l.runs && cause) = true := by
      rw [why, Bool.and_true]
      exact decide_eq_true running
    rw [cut]
    exact ⟨rfl, rfl, rfl, fun z => get_replicate ..⟩
  · have uncut : (l.runs && cause) = false := by
      rcases kept with idle | no
      · rw [show l.runs = false from decide_eq_false (not_not.2 idle), Bool.false_and]
      · rw [no, Bool.and_false]
    rw [uncut]
    exact ⟨rfl, rfl, rfl, rfl⟩
  · rintro rfl rfl
    exact ⟨rfl, rfl, rfl, rfl⟩
  · rintro rfl rfl
    exact ⟨fresh rfl rfl rfl, rfl⟩

/-! ### A disable -/

/-- What the monitors and the Hold Vault do at a disable, behind the Slot Manager (R29, R65, R142). -/
def State.disabledBlocks (v : State) (c : Camera) (old new : CameraRec) : State :=
  (((v.cadenceTo c (cadenceDisabled c v.cadence[c])).lensTo c
    (lensDisabled c old new (v.cadenceTo c (cadenceDisabled c v.cadence[c])).lens[c])).completeShort
      (fun x => decide (x.camera = c)) .disable).configureLens c old new

/-- The camera's slots and frame in progress behind a disable (R7). -/
def State.cameraDropped (s : State) (c : Camera) : State := ((s.lensDrop c).signatureDrop c).slotsDisable c

theorem State.applyCamera_disabledBlocks (was : s.cameras[c].enable = true) (off : new.enable = false) :
    s.applyCamera c new = ((s.setCamera c new).cameraDropped c).disabledBlocks c s.cameras[c] new :=
  State.applyCamera_disables was off

theorem State.disabledBlocks_told :
    let which : Hold → Bool := fun x => decide (x.camera = c)
    let l := v.lens[c]
    let t := v.disabledBlocks c old new
    Effect [.cadence, .lens, .holds] v t ∧ OthersKept c v t
      ∧ t.cadence[c] = (cadenceDisabled c v.cadence[c]).1
      ∧ t.lens[c] = l.applied (geometryChanged old new) l.runs (lensOn old new) false
      ∧ (v.holds.order.Nodup →
        (∀ h, t.holds.table.get h = if h ∈ v.holds.order then
            (v.holds.table.get h).map (Hold.shortened which .disable) else v.holds.table.get h)
          ∧ t.holds.order = v.holds.order ∧ t.holds.lock = v.holds.lock
          ∧ Logged ((cadenceDisabled c v.cadence[c]).2 ++ (lensDisabled c old new l).2
            ++ v.holds.shortReports which .disable v.holds.order
            ++ (lensConfigured c old new (lensDisabled c old new l).1).2) v t) := by
  intro which l t
  unfold t State.disabledBlocks State.configureLens
  have first := v.cadenceTo_effect c (cadenceDisabled c v.cadence[c])
  have others1 := v.cadenceTo_others c (cadenceDisabled c v.cadence[c])
  have log1 := v.cadenceTo_logged c (cadenceDisabled c v.cadence[c])
  have cadence1 := v.cadenceTo_cadence c (cadenceDisabled c v.cadence[c])
  generalize v.cadenceTo c (cadenceDisabled c v.cadence[c]) = v1 at *
  rw [show v1.lens = v.lens from first.same .lens]
  have second := v1.lensTo_effect c (lensDisabled c old new v.lens[c])
  have others2 := v1.lensTo_others c (lensDisabled c old new v.lens[c])
  have log2 := v1.lensTo_logged c (lensDisabled c old new v.lens[c])
  have lens2 := v1.lensTo_lens c (lensDisabled c old new v.lens[c])
  generalize v1.lensTo c (lensDisabled c old new v.lens[c]) = v2 at *
  have holds2 : v2.holds = v.holds := (second.same .holds).trans (first.same .holds)
  have third := v2.completeShort_effect which .disable
  have told3 := State.completeShort_told (s := v2) (which := which) (cause := .disable)
  rw [holds2] at told3
  change let t := (v2.completeShort which .disable).lensTo c (lensConfigured c old new
    (v2.completeShort which .disable).lens[c]); _
  have lens3 : (v2.completeShort which .disable).lens = v2.lens := third.same .lens
  generalize v2.completeShort which .disable = v3 at *
  rw [lens3, lens2, upd_getElem_self]
  have last := v3.lensTo_effect c (lensConfigured c old new (lensDisabled c old new l).1)
  have others4 := v3.lensTo_others c (lensConfigured c old new (lensDisabled c old new l).1)
  have log4 := v3.lensTo_logged c (lensConfigured c old new (lensDisabled c old new l).1)
  have lens4 := v3.lensTo_lens c (lensConfigured c old new (lensDisabled c old new l).1)
  generalize v3.lensTo c (lensConfigured c old new (lensDisabled c old new l).1) = w at *
  have holds : w.holds = v3.holds := last.same .holds
  refine ⟨(((first.trans second).trans third).trans last).mono (by decide), ?_, ?_, ?_, fun nodup => ?_⟩
  · exact ((others1.trans others2).trans (third.touches.others c (by decide) (by decide) (by decide))).trans others4
  · rw [show w.cadence = v3.cadence from last.same .cadence, show v3.cadence = v2.cadence from third.same .cadence,
      show v2.cadence = v1.cadence from second.same .cadence, cadence1, upd_getElem_self]
  · rw [lens4, upd_getElem_self, lensDisabled_configured]
  · obtain ⟨log3, lock, order, table⟩ := told3 nodup
    rw [holds]
    exact ⟨table, order, lock, ((log1.trans log2).trans log3).trans log4⟩

/-- The camera's slots and frame in progress behind a disable (R7). -/
theorem State.cameraDropped_told (s : State) (c : Camera) :
    Touches [.pool, .rings, .cadence, .lens] s (s.cameraDropped c) ∧ OthersKept c s (s.cameraDropped c)
      ∧ (s.cameraDropped c).rings[c] = { s.rings[c] with
          ready := [], filling := none, empty := [], phase := .waiting, tornMark := false, writes := 0 }
      ∧ (s.cameraDropped c).pool.slots.length = s.pool.slots.length
      ∧ (∀ i, (s.cameraDropped c).slot i = (s.slot i).dissolved c)
      ∧ (s.cameraDropped c).cadence[c] = { s.cadence[c] with sigAcc := none }
      ∧ (s.cameraDropped c).lens[c] = { s.lens[c] with acc := none } := by
  have rings : (s.cameraDropped c).rings = upd s.rings c { s.rings[c] with
      ready := [], filling := none, empty := [], phase := .waiting, tornMark := false, writes := 0 } := rfl
  have cadence : (s.cameraDropped c).cadence = upd s.cadence c { s.cadence[c] with sigAcc := none } := rfl
  have lens : (s.cameraDropped c).lens = upd s.lens c { s.lens[c] with acc := none } := rfl
  refine ⟨fun p hp => ?_, fun d hd => ?_, ?_, List.length_map .., fun i => State.slot_slotsDisable _ c i, ?_, ?_⟩
  · cases p <;> first | rfl | exact absurd hp (by decide)
  · rw [rings, cadence, lens, upd_getElem_of_ne _ _ hd, upd_getElem_of_ne _ _ hd, upd_getElem_of_ne _ _ hd]
    exact ⟨rfl, rfl, rfl⟩
  · rw [rings, upd_getElem_self]
  · rw [cadence, upd_getElem_self]
  · rw [lens, upd_getElem_self]

/-! ### An enable -/

/-- The rings and slots behind an enable (R6): the lowest FREE slots, the first FILLING. -/
theorem State.slotsEnable_told (s : State) (c : Camera) :
    Touches [.pool, .rings] s (s.slotsEnable c) ∧ OthersKept c s (s.slotsEnable c)
      ∧ ∀ i free, s.freeSlots.take s.cameras[c].k = i :: free →
        (s.slotsEnable c).rings[c] = ⟨[], some i, free, .waiting, false, 0, 0, 0, 0, 0⟩
          ∧ (s.slotsEnable c).slot i = ⟨.ring c .filling, 0, none⟩
          ∧ (∀ j ∈ free, (s.slotsEnable c).slot j = ⟨.ring c .empty, 0, none⟩)
          ∧ ∀ j, j ≠ i → j ∉ free → (s.slotsEnable c).slot j = s.slot j := by
  obtain ⟨rings, -, -, taken, left⟩ := s.buildRing_lowest c s.cameras[c].k
  have touches := s.buildRing_touches c s.cameras[c].k
  have slot (j : Nat) : (s.slotsEnable c).slot j = (s.buildRing c s.cameras[c].k).slot j := rfl
  have own : (s.slotsEnable c).rings = upd (s.buildRing c s.cameras[c].k).rings c
      { (s.buildRing c s.cameras[c].k).rings[c] with
        frameCount := 0, accepted := 0, torn := 0, starvedDrop := 0 } := rfl
  refine ⟨?_, fun d hd => ?_, fun i free lowest => ?_⟩
  · have counted : Touches [.rings] (s.buildRing c s.cameras[c].k) (s.slotsEnable c) := fun p hp => by
      cases p <;> first | rfl | exact absurd hp (by decide)
    exact (touches.trans counted).mono (by decide)
  · rw [own, upd_getElem_of_ne _ _ hd, rings, upd_getElem_of_ne _ _ hd]
    exact ⟨rfl, congrArg (fun v : Vector CadenceRec 16 => v[d]) (touches.same .cadence),
      congrArg (fun v : Vector LensRec 16 => v[d]) (touches.same .lens)⟩
  · have nodup : (i :: free).Nodup := by
      rw [← lowest]
      exact s.nodup_freeSlots.sublist (List.take_sublist _ _)
    rw [lowest] at rings taken left
    refine ⟨?_, ?_, fun j hj => ?_, fun j first rest => ?_⟩
    · rw [own, upd_getElem_self, rings, upd_getElem_self]
      rfl
    · rw [slot, taken i (List.mem_cons_self ..)]
      exact builtSlot_of_first rfl
    · rw [slot, taken j (List.mem_cons_of_mem _ hj)]
      exact builtSlot_of_rest nodup hj
    · rw [slot, left j (List.not_mem_cons_of_ne_of_not_mem first rest)]

/-- What the monitors do at an enable, behind the Slot Manager (R28, R64). -/
def State.enabledBlocks (v : State) (c : Camera) : State :=
  (v.cadenceTo c (cadenceEnabled c v.time v.cadence[c])).lensTo c
    (lensEnabled c (v.cadenceTo c (cadenceEnabled c v.time v.cadence[c])).lens[c])

theorem State.enableCamera_eq (s : State) (c : Camera) : s.enableCamera c = (s.slotsEnable c).enabledBlocks c := rfl

theorem State.enabledBlocks_told (v : State) (c : Camera) :
    Effect [.cadence, .lens] v (v.enabledBlocks c) ∧ OthersKept c v (v.enabledBlocks c)
      ∧ (v.enabledBlocks c).cadence[c] = (cadenceEnabled c v.time v.cadence[c]).1
      ∧ (v.enabledBlocks c).lens[c] = (lensEnabled c v.lens[c]).1
      ∧ Logged ((cadenceEnabled c v.time v.cadence[c]).2 ++ (lensEnabled c v.lens[c]).2) v (v.enabledBlocks c) := by
  unfold State.enabledBlocks
  have first := v.cadenceTo_effect c (cadenceEnabled c v.time v.cadence[c])
  have others := v.cadenceTo_others c (cadenceEnabled c v.time v.cadence[c])
  have log := v.cadenceTo_logged c (cadenceEnabled c v.time v.cadence[c])
  have cadence := v.cadenceTo_cadence c (cadenceEnabled c v.time v.cadence[c])
  generalize v.cadenceTo c (cadenceEnabled c v.time v.cadence[c]) = v1 at *
  rw [show v1.lens = v.lens from first.same .lens]
  have second := v1.lensTo_effect c (lensEnabled c v.lens[c])
  refine ⟨first.trans second, others.trans (v1.lensTo_others c _), ?_, ?_, log.trans (v1.lensTo_logged c _)⟩
  · rw [show State.cadence _ = v1.cadence from second.same .cadence, cadence, upd_getElem_self]
  · rw [State.lensTo_lens, upd_getElem_self]

/-! ### The configuration -/

/-- The part with a CAMERA record stored and its Lens Monitor configured (R66). -/
def State.configured (s : State) (c : Camera) (new : CameraRec) : State :=
  (s.setCamera c new).configureLens c s.cameras[c] new

theorem State.configured_told (s : State) (c : Camera) (new : CameraRec) :
    Effect [.cameras, .lens] s (s.configured c new) ∧ OthersKept c s (s.configured c new)
      ∧ (s.configured c new).cameras = upd s.cameras c new
      ∧ (s.configured c new).lens[c] = (lensConfigured c s.cameras[c] new s.lens[c]).1
      ∧ Logged (lensConfigured c s.cameras[c] new s.lens[c]).2 s (s.configured c new) := by
  have effect := (s.setCamera c new).lensTo_effect c (lensConfigured c s.cameras[c] new s.lens[c])
  refine ⟨(s.setCamera_effect c new).trans effect, ?_, effect.same .cameras, ?_, ?_⟩
  · exact OthersKept.trans (t := s.setCamera c new) (fun _ _ => ⟨rfl, rfl, rfl⟩) (State.lensTo_others _ c _)
  · exact (congrArg (fun v : Vector LensRec 16 => v[c]) (State.lensTo_lens ..)).trans (upd_getElem_self ..)
  · exact Logged.trans (rs := []) (t := s.setCamera c new) ⟨rfl, rfl, rfl⟩ (State.lensTo_logged _ c _)

end

end Sys2Proof.Machine
end

section
/-! One applied CAMERA record (O23): what each of its three cases leaves. -/

namespace Sys2Proof.Machine

set_option Elab.async false

section
variable {s : State} {c : Camera} {new : CameraRec}

/-! ### The three cases -/

/-- A record that disables its camera (R7, R29, R65, R142). -/
theorem State.applyCamera_off (was : s.cameras[c].enable = true) (off : new.enable = false) :
    let t := s.applyCamera c new
    let l := s.lens[c]
    let which : Hold → Bool := fun x => decide (x.camera = c)
    Touches [.cameras, .pool, .rings, .cadence, .lens, .holds, .mem, .ring] s t ∧ OthersKept c s t
      ∧ t.rings[c] = { s.rings[c] with
          ready := [], filling := none, empty := [], phase := .waiting, tornMark := false, writes := 0 }
      ∧ t.pool.slots.length = s.pool.slots.length ∧ (∀ i, t.slot i = (s.slot i).dissolved c)
      ∧ t.cadence[c] = { s.cadence[c] with
          state := .off, good := 0, slip := 0, previous := none, sigAcc := none, prevSig := none, run := 0
          frozen := false }
      ∧ t.lens[c] = { l with acc := none }.applied (geometryChanged s.cameras[c] new) l.runs
          (lensOn s.cameras[c] new) false
      ∧ (s.holds.order.Nodup →
        (∀ h, t.holds.table.get h = if h ∈ s.holds.order then
            (s.holds.table.get h).map (Hold.shortened which .disable) else s.holds.table.get h)
          ∧ t.holds.order = s.holds.order ∧ t.holds.lock = s.holds.lock
          ∧ Logged ((cadenceDisabled c s.cadence[c]).2
            ++ l.cutReports c (if geometryChanged s.cameras[c] new then .config else .disable)
            ++ s.holds.shortReports which .disable s.holds.order
            ++ l.unlearnedReports c (geometryChanged s.cameras[c] new)) s t) := by
  intro t l which
  obtain ⟨touched, others, rings, length, slots, cadence, lens⟩ := (s.setCamera c new).cameraDropped_told c
  have same := s.applyCamera_disabledBlocks (c := c) was off
  generalize (s.setCamera c new).cameraDropped c = v at *
  have told := State.disabledBlocks_told (v := v) (c := c) (old := s.cameras[c]) (new := new)
  rw [show v.disabledBlocks c s.cameras[c] new = t from same.symm] at told
  obtain ⟨effect, others', cadence', lens', held⟩ := told
  have stored : Touches [.cameras] s (s.setCamera c new) := fun p hp => by
    cases p <;> first | rfl | exact absurd hp (by decide)
  have before := stored.trans touched
  have holds : v.holds = s.holds := before.same .holds
  have rings' : t.rings = v.rings := effect.same .rings
  have pool : t.pool = v.pool := effect.same .pool
  have quiet : Logged [] s v := before.logged (by decide) (by decide) (by decide)
  refine ⟨(before.trans effect.touches).mono (by decide), others.trans others', ?_, ?_, fun i => ?_, ?_, ?_,
    fun nodup => ?_⟩
  · rw [rings', rings]
    rfl
  · rw [pool, length]
    rfl
  · rw [State.slot_congr pool, slots]
    rfl
  · rw [cadence', cadence]
    rfl
  · rw [lens', lens]
    rfl
  · rw [holds] at held
    obtain ⟨table, order, lock, log⟩ := held nodup
    refine ⟨table, order, lock, ?_⟩
    have record : v.lens[c] = { l with acc := none } := lens
    have off_reports : (cadenceDisabled c v.cadence[c]).2 = (cadenceDisabled c s.cadence[c]).2 := by
      rw [cadence]
      rfl
    rw [off_reports, lensDisabled_configured_reports, show (lensDisabled c s.cameras[c] new v.lens[c]).2 =
      l.cutReports c (if geometryChanged s.cameras[c] new then .config else .disable) from by
        rw [record]
        exact discardRun_reports _, record] at log
    exact quiet.trans log

/-- A record that enables its camera (R6, R28, R64, R66). -/
theorem State.applyCamera_on (was : s.cameras[c].enable = false) (on : new.enable = true) :
    let t := s.applyCamera c new
    let l := s.lens[c]
    let geometry := geometryChanged s.cameras[c] new
    Touches [.cameras, .pool, .rings, .cadence, .lens, .mem, .ring] s t ∧ OthersKept c s t
      ∧ (∀ i free, s.freeSlots.take new.k = i :: free →
        t.rings[c] = ⟨[], some i, free, .waiting, false, 0, 0, 0, 0, 0⟩
          ∧ t.slot i = ⟨.ring c .filling, 0, none⟩ ∧ (∀ j ∈ free, t.slot j = ⟨.ring c .empty, 0, none⟩)
          ∧ ∀ j, j ≠ i → j ∉ free → t.slot j = s.slot j)
      ∧ t.cadence[c] = { s.cadence[c] with
          state := .acquiring, good := 0, slip := 0, previous := none, staleRef := s.time, sigAcc := none
          prevSig := none, run := 0, frozen := false }
      ∧ t.lens[c] = l.applied geometry (l.runs && (geometry || lensOff s.cameras[c] new)) true
          (!geometry && l.baseline.isSome)
      ∧ Logged ((lensConfigured c s.cameras[c] new l).2 ++ .cadence c .off .acquiring .enable none ::
          (if geometry = false ∧ l.baseline ≠ none ∧ (l.state = .part ∨ l.state = .obscured) then
            [.lens c l.state .clean .enable none] else [])) s t := by
  intro t l geometry
  obtain ⟨effect1, others1, cameras1, lens1, log1⟩ := s.configured_told c new
  have same : t = ((s.configured c new).slotsEnable c).enabledBlocks c := State.applyCamera_enables was on
  generalize s.configured c new = v at *
  obtain ⟨touches2, others2, lowest⟩ := v.slotsEnable_told c
  have pool1 : v.pool = s.pool := effect1.same .pool
  have cadence1 : v.cadence = s.cadence := effect1.same .cadence
  have freeSlots : v.freeSlots = s.freeSlots := by
    unfold State.freeSlots
    rw [pool1, show v.slot = s.slot from funext (State.slot_congr pool1)]
  rw [freeSlots, cameras1, upd_getElem_self] at lowest
  generalize v.slotsEnable c = w at *
  obtain ⟨effect3, others3, cadence3, lens3, log3⟩ := w.enabledBlocks_told c
  generalize w.enabledBlocks c = x at *
  subst same
  have cadence2 : w.cadence = s.cadence := (touches2.same .cadence).trans cadence1
  have time2 : w.time = s.time := (touches2.same .time).trans effect1.time
  have lens2 : w.lens[c] = l.applied geometry (l.runs && (geometry || lensOff s.cameras[c] new))
      (lensOn s.cameras[c] new) false := by
    rw [show w.lens = v.lens from touches2.same .lens, lens1, lensConfigured_record]
  rw [cadence2, time2] at cadence3 log3
  refine ⟨((effect1.touches.trans touches2).trans effect3.touches).mono (by decide),
    (others1.trans others2).trans others3, fun i free first => ?_, cadence3, ?_, ?_⟩
  · have rings : t.rings = w.rings := effect3.same .rings
    have pool : t.pool = w.pool := effect3.same .pool
    have slot := State.slot_congr pool
    rw [rings, slot]
    obtain ⟨ring, filling, empties, rest⟩ := lowest i free first
    exact ⟨ring, filling, fun j hj => (slot j).trans (empties j hj), fun j hi hj =>
      ((slot j).trans (rest j hi hj)).trans (State.slot_congr pool1 j)⟩
  · rw [lens3, lens2, LensRec.applied_enabled]
  · have quiet : Logged [] v w := touches2.logged (by decide) (by decide) (by decide)
    have reports : (lensEnabled c w.lens[c]).2 =
        if geometry = false ∧ l.baseline ≠ none ∧ (l.state = .part ∨ l.state = .obscured) then
          [.lens c l.state .clean .enable none] else [] := by
      rw [lens2, lensEnabled_reports]
      unfold LensRec.applied
      cases geometry <;> simp
    rw [reports] at log3
    exact log1.trans (quiet.trans log3)

/-- The stale timeout falls due by a new period (R35). -/
def State.lateBy (s : State) (c : Camera) (new : CameraRec) : Prop :=
  new.enable = true ∧ s.cameras[c].period ≠ new.period
    ∧ (s.cadence[c].state = .acquiring ∨ s.cadence[c].state = .locked)
    ∧ 3 * new.period ≤ elapsed s.cadence[c].staleRef s.time

/-- A record that leaves its camera enabled or disabled (R35, R66). -/
theorem State.applyCamera_same (same : s.cameras[c].enable = new.enable) :
    let t := s.applyCamera c new
    let l := s.lens[c]
    let geometry := geometryChanged s.cameras[c] new
    Touches [.cameras, .cadence, .lens, .mem, .ring] s t ∧ OthersKept c s t
      ∧ t.lens[c] = l.applied geometry (l.runs && (geometry || lensOff s.cameras[c] new))
          (lensOn s.cameras[c] new) false
      ∧ (s.lateBy c new → t.cadence[c] =
          { s.cadence[c] with state := .stale, good := 0, slip := 0, previous := none }
        ∧ Logged ((lensConfigured c s.cameras[c] new l).2 ++ [.cadence c s.cadence[c].state .stale .timeout none]) s t)
      ∧ (¬s.lateBy c new → t.cadence[c] = s.cadence[c] ∧ Logged (lensConfigured c s.cameras[c] new l).2 s t) := by
  intro t l geometry
  obtain ⟨effect, others, cameras, lens, log⟩ := s.configured_told c new
  have eq : t = if new.enable = true ∧ s.cameras[c].period ≠ new.period then
      (s.configured c new).staleTimeout c else s.configured c new := State.applyCamera_reconfigures same.symm
  generalize s.configured c new = v at *
  have cadence : v.cadence = s.cadence := effect.same .cadence
  have due : v.staleDue c = true ↔ (s.cadence[c].state = .acquiring ∨ s.cadence[c].state = .locked)
      ∧ 3 * new.period ≤ elapsed s.cadence[c].staleRef s.time := by
    rw [State.staleDue_iff, cadence, cameras, upd_getElem_self, effect.time]
  rw [lensConfigured_record] at lens
  by_cases late : s.lateBy c new
  · obtain ⟨on, period, running⟩ := late
    have stale : t = v.cadenceTo c (cadenceStale c s.cadence[c]) := by
      rw [eq, if_pos ⟨on, period⟩, State.staleTimeout, if_pos (due.2 running), cadence]
    have later := v.cadenceTo_effect c (cadenceStale c s.cadence[c])
    have logs := log.trans (v.cadenceTo_logged c (cadenceStale c s.cadence[c]))
    have keep := others.trans (v.cadenceTo_others c (cadenceStale c s.cadence[c]))
    have record := v.cadenceTo_cadence c (cadenceStale c s.cadence[c])
    rw [← stale] at later logs keep record
    refine ⟨(effect.touches.trans later.touches).mono (by decide), keep, ?_, fun _ => ⟨?_, logs⟩,
      fun h => absurd ⟨on, period, running⟩ h⟩
    · rw [show t.lens = v.lens from later.same .lens, lens]
    · rw [record, upd_getElem_self]
      rfl
  · have stays : t = v := by
      rw [eq]
      by_cases changed : new.enable = true ∧ s.cameras[c].period ≠ new.period
      · rw [if_pos changed, State.staleTimeout, if_neg fun h => late ⟨changed.1, changed.2, due.1 h⟩]
      · rw [if_neg changed]
    rw [stays]
    exact ⟨effect.touches.mono (by decide), others, lens, fun h => absurd h late, fun _ => ⟨by rw [cadence], log⟩⟩

end

end Sys2Proof.Machine
end

section
/-! One applied CAMERA record, in the terms of the record (O23). -/

namespace Sys2Proof.Machine

set_option Elab.async false

section
variable {s : State} {c : Camera} {old new : CameraRec}

theorem geometryChanged_iff : geometryChanged old new = true ↔ old.w ≠ new.w ∨ old.h ≠ new.h ∨ old.excl ≠ new.excl := by
  unfold geometryChanged
  simp only [Bool.or_eq_true, decide_eq_true_eq, or_assoc]

theorem geometryChanged_eq_false_iff :
    geometryChanged old new = false ↔ ¬(old.w ≠ new.w ∨ old.h ≠ new.h ∨ old.excl ≠ new.excl) := by
  rw [← Bool.not_eq_true, geometryChanged_iff]

theorem lensOff_iff : lensOff old new = true ↔ old.lensOn = true ∧ new.lensOn = false := by
  unfold lensOff
  simp only [Bool.and_eq_true, Bool.not_eq_true']

theorem lensOn_iff : lensOn old new = true ↔ old.lensOn = false ∧ new.lensOn = true := by
  unfold lensOn
  simp only [Bool.and_eq_true, Bool.not_eq_true']

/-- How a CAMERA record changes its lens record: why the run is cut, when the eligible counter starts over, and when
the verdict does. -/
def LensApplied (old new : CameraRec) (l l' : LensRec) : Prop :=
  ∃ cause rezero verdict : Bool,
    l' = l.applied (geometryChanged old new) (l.runs && cause) rezero verdict
      ∧ (cause = true ↔ geometryChanged old new = true ∨ lensOff old new = true ∨ old.enable = true
        ∧ new.enable = false)
      ∧ (rezero = true ↔ lensOn old new = true ∨ old.enable = false ∧ new.enable = true)
      ∧ (verdict = true ↔ geometryChanged old new = false ∧ l.baseline ≠ none ∧ old.enable = false ∧ new.enable = true)

theorem State.applyCamera_lens (s : State) (c : Camera) (new : CameraRec) :
    LensApplied s.cameras[c] new s.lens[c] (s.applyCamera c new).lens[c]
      ∨ LensApplied s.cameras[c] new { s.lens[c] with acc := none } (s.applyCamera c new).lens[c] := by
  cases was : s.cameras[c].enable <;> cases is : new.enable
  case true.false =>
    have lens := (State.applyCamera_off (c := c) was is).2.2.2.2.2.2.1
    generalize s.cameras[c] = old at *
    refine .inr ⟨true, lensOn old new, false, ?_, by simp [was, is], by simp [was], by simp [was]⟩
    rw [lens, Bool.and_true]
    rfl
  case false.true =>
    obtain ⟨-, -, -, -, lens, -⟩ := State.applyCamera_on (c := c) was is
    generalize s.cameras[c] = old at *
    exact .inl ⟨_, true, _, lens, by simp [was], by simp [was, is], by simp [was, is, Option.isSome_iff_ne_none]⟩
  case false.false =>
    obtain ⟨-, -, lens, -⟩ := State.applyCamera_same (c := c) (was.trans is.symm)
    generalize s.cameras[c] = old at *
    exact .inl ⟨_, _, _, lens, by simp [was], by simp [is], by simp [is]⟩
  case true.true =>
    obtain ⟨-, -, lens, -⟩ := State.applyCamera_same (c := c) (was.trans is.symm)
    generalize s.cameras[c] = old at *
    exact .inl ⟨_, _, _, lens, by simp [is], by simp [was], by simp [was]⟩

/-- The figures behind a CAMERA record, in the record's terms (R62, R64, R66). -/
theorem LensApplied.told {l l' : LensRec} (h : LensApplied old new l l') :
    let geometry := old.w ≠ new.w ∨ old.h ≠ new.h ∨ old.excl ≠ new.excl
    let lensOff := old.lensOn = true ∧ new.lensOn = false
    let lensOn := old.lensOn = false ∧ new.lensOn = true
    (geometry → l'.baseline = none ∧ l'.usableCount = 0 ∧ l'.state = .unlearned ∧ l'.verdictFresh)
      ∧ (¬geometry → l'.baseline = l.baseline ∧ l'.usableCount = l.usableCount)
      ∧ (l.learn ≠ .idle → geometry ∨ lensOff ∨ old.enable = true ∧ new.enable = false → l'.noRun)
      ∧ (l.learn = .idle ∨ ¬(geometry ∨ lensOff ∨ old.enable = true ∧ new.enable = false) →
          l'.learn = l.learn ∧ l'.sums = l.sums ∧ l'.learned = l.learned ∧ l'.candidates = l.candidates)
      ∧ l'.noiseInUse = l.noiseInUse ∧ l'.lastMean = l.lastMean ∧ l'.lastDark = l.lastDark
      ∧ l'.eligible = (if lensOn ∨ old.enable = false ∧ new.enable = true then 0 else l.eligible)
      ∧ (¬geometry → l.baseline = none ∨ old.enable = true ∨ new.enable = false →
          l'.state = l.state ∧ l'.scores = l.scores ∧ l'.flags = l.flags ∧ l'.history = l.history)
      ∧ (old.enable = false → new.enable = true → ¬geometry → l.baseline ≠ none → l'.verdictFresh
        ∧ l'.state = .clean) := by
  intro geometry off on
  obtain ⟨cause, rezero, verdict, eq, why, zero, verdicts⟩ := h
  obtain ⟨discarded, stands, cut, uncut, ⟨noise, mean, dark⟩, eligible, kept, clean⟩ := LensRec.applied_told eq
  rw [geometryChanged_iff, lensOff_iff] at why
  rw [lensOn_iff] at zero
  rw [geometryChanged_eq_false_iff] at verdicts
  rw [geometryChanged_iff] at discarded
  rw [geometryChanged_eq_false_iff] at stands kept clean
  refine ⟨discarded, stands, fun running h => cut running (why.2 h), fun h => uncut (h.imp_right fun none => ?_), noise,
    mean, dark, ?_, fun same h => kept same ?_, fun was is same base => clean same (verdicts.2 ⟨same, base, was, is⟩)⟩
  · exact Bool.eq_false_of_not_eq_true (mt why.1 none)
  · rw [eligible]
    exact if_congr zero rfl rfl
  · refine Bool.eq_false_of_not_eq_true fun t => ?_
    obtain ⟨-, base, was, is⟩ := verdicts.1 t
    rcases h with h | h | h
    · exact base h
    · exact absurd (was.symm.trans h) (by decide)
    · exact absurd (is.symm.trans h) (by decide)

end

end Sys2Proof.Machine
end

section
/-! One applied CAMERA record (O23), clause by clause. -/

namespace Sys2Proof.Machine

set_option Elab.async false

section
variable {s : State} {c : Camera} {old new : CameraRec}

theorem State.applyCamera_others (s : State) (c : Camera) (new : CameraRec) : OthersKept c s (s.applyCamera c new) := by
  cases was : s.cameras[c].enable <;> cases is : new.enable
  case true.false => exact (State.applyCamera_off was is).2.1
  case false.true => exact (State.applyCamera_on was is).2.1
  case false.false => exact (State.applyCamera_same (was.trans is.symm)).2.1
  case true.true => exact (State.applyCamera_same (was.trans is.symm)).2.1

theorem LensRec.cutReports_eq (l : LensRec) (cause : DiscardCause) : l.cutReports c cause =
    if l.learn ≠ .idle then [.learnEnd c (.discarded cause) l.learned l.candidates none] else [] := by
  unfold LensRec.cutReports
  by_cases idle : l.learn = .idle
  · rw [if_pos idle, if_neg (not_not.2 idle)]
  · rw [if_neg idle, if_pos idle]

/-- What one applied CAMERA record does (R6, R7, R28, R29, R35, R64 to R66, R142). -/
theorem State.applyCamera_told (s : State) (c : Camera) (new : CameraRec) :
    let t := s.applyCamera c new
    let old := s.cameras[c]
    let l := s.lens[c]
    let geometry := old.w ≠ new.w ∨ old.h ≠ new.h ∨ old.excl ≠ new.excl
    let lensOff := old.lensOn = true ∧ new.lensOn = false
    let lensOn := old.lensOn = false ∧ new.lensOn = true
    let run := fun (d : DiscardCause) => Report.learnEnd c (.discarded d) l.learned l.candidates none
    let unlearned : List Report :=
      if geometry ∧ l.state ≠ .unlearned then [.lens c l.state .unlearned .config none] else []
    let configured : List Report := unlearned
      ++ (if l.learn ≠ .idle ∧ geometry then [run .config]
        else if l.learn ≠ .idle ∧ lensOff then [run .lensOff] else [])
    t.cameras = upd s.cameras c new
      ∧ (∀ c' : Camera, c' ≠ c → t.rings[c'] = s.rings[c'] ∧ t.cadence[c'] = s.cadence[c'] ∧ t.lens[c'] = s.lens[c'])
      ∧ (geometry → t.lens[c].baseline = none ∧ t.lens[c].usableCount = 0 ∧ t.lens[c].state = .unlearned
          ∧ t.lens[c].verdictFresh)
      ∧ (¬geometry → t.lens[c].baseline = l.baseline ∧ t.lens[c].usableCount = l.usableCount)
      ∧ (l.learn ≠ .idle → geometry ∨ lensOff ∨ old.enable = true ∧ new.enable = false → t.lens[c].noRun)
      ∧ (l.learn = .idle ∨ ¬(geometry ∨ lensOff ∨ old.enable = true ∧ new.enable = false) →
          t.lens[c].learn = l.learn ∧ t.lens[c].sums = l.sums ∧ t.lens[c].learned = l.learned
            ∧ t.lens[c].candidates = l.candidates)
      ∧ t.lens[c].noiseInUse = l.noiseInUse ∧ t.lens[c].lastMean = l.lastMean ∧ t.lens[c].lastDark = l.lastDark
      ∧ t.lens[c].eligible =
          (if lensOn ∨ old.enable = false ∧ new.enable = true then 0 else l.eligible)
      ∧ (¬geometry → l.baseline = none ∨ old.enable = true ∨ new.enable = false →
          t.lens[c].state = l.state ∧ t.lens[c].scores = l.scores ∧ t.lens[c].flags = l.flags
            ∧ t.lens[c].history = l.history)
      ∧ (∀ i free, old.enable = false → new.enable = true → new.k ≤ s.freeCount →
          ((List.range s.pool.slots.length).filter fun j => decide ((s.slot j).disp = .free)).take new.k = i :: free →
            t.rings[c] = ⟨[], some i, free, .waiting, false, 0, 0, 0, 0, 0⟩
              ∧ t.slot i = ⟨.ring c .filling, 0, none⟩ ∧ (∀ j ∈ free, t.slot j = ⟨.ring c .empty, 0, none⟩)
              ∧ (∀ j, j ≠ i → j ∉ free → t.slot j = s.slot j) ∧ t.holds = s.holds)
      ∧ (old.enable = false → new.enable = true →
          t.cadence[c] = { s.cadence[c] with
              state := .acquiring, good := 0, slip := 0, previous := none, staleRef := s.time, sigAcc := none
              prevSig := none, run := 0, frozen := false }
            ∧ (¬geometry → l.baseline ≠ none → t.lens[c].verdictFresh ∧ t.lens[c].state = .clean)
            ∧ Touches [.cameras, .pool, .rings, .cadence, .lens, .mem, .ring] s t
            ∧ Reported s s.mem (configured ++ .cadence c .off .acquiring .enable none ::
                (if ¬geometry ∧ l.baseline ≠ none ∧ (l.state = .part ∨ l.state = .obscured) then
                  [.lens c l.state .clean .enable none] else [])) t)
      ∧ (old.enable = true → new.enable = false → s.holds.consistent →
          let short := fun x : Hold =>
            if x.state = .collecting ∧ x.camera = c then
              { x with state := HoldState.complete, cause := some .disable, short := true } else x
          t.rings[c] = { s.rings[c] with
              ready := [], filling := none, empty := [], phase := .waiting, tornMark := false, writes := 0 }
            ∧ t.pool.slots.length = s.pool.slots.length
            ∧ (∀ i m, (s.slot i).disp = .ring c m → t.slot i =
                if (s.slot i).pins = 0 then ⟨.free, 0, none⟩ else ⟨.retiring, (s.slot i).pins, none⟩)
            ∧ (∀ i, (∀ m, (s.slot i).disp ≠ .ring c m) → t.slot i = s.slot i)
            ∧ t.cadence[c] = { s.cadence[c] with
                state := .off, good := 0, slip := 0, previous := none, sigAcc := none, prevSig := none, run := 0
                frozen := false }
            ∧ t.lens[c].acc = none
            ∧ (∀ h, t.holds.table.get h = (s.holds.table.get h).map short) ∧ t.holds.order = s.holds.order
            ∧ t.holds.lock = s.holds.lock
            ∧ Touches [.cameras, .pool, .rings, .cadence, .lens, .holds, .mem, .ring] s t
            ∧ Reported s s.mem
              (.cadence c s.cadence[c].state .off .disable none ::
                (if s.cadence[c].frozen then [.frozen c false .disable none] else [])
                ++ (if l.learn = .idle then [] else [run (if geometry then .config else .disable)])
                ++ s.holds.order.filterMap (fun h => (s.holds.table.get h).bind fun x =>
                    if x.state = .collecting ∧ x.camera = c then some (.holdComplete h (short x)) else none)
                ++ unlearned) t)
      ∧ (old.enable = new.enable →
          let late := new.enable = true ∧ old.period ≠ new.period
            ∧ (s.cadence[c].state = .acquiring ∨ s.cadence[c].state = .locked)
            ∧ 3 * new.period ≤ elapsed s.cadence[c].staleRef s.time
          Touches [.cameras, .cadence, .lens, .mem, .ring] s t
            ∧ t.cadence[c] = (if late then
                { s.cadence[c] with state := .stale, good := 0, slip := 0, previous := none } else s.cadence[c])
            ∧ t.lens[c].acc = l.acc
            ∧ Reported s s.mem (configured
                ++ (if late then [.cadence c s.cadence[c].state .stale .timeout none] else [])) t) := by
  intro t old l geometry off on run unlearned configured
  have figures : LensApplied old new l t.lens[c] ∨ LensApplied old new { l with acc := none } t.lens[c] :=
    s.applyCamera_lens c new
  have changed : geometryChanged old new = true ↔ geometry := geometryChanged_iff
  have unlearned_eq : l.unlearnedReports c (geometryChanged old new) = unlearned :=
    if_congr (and_congr_left' changed) rfl rfl
  have configured_eq : (lensConfigured c old new l).2 = configured := by
    rw [lensConfigured_reports, unlearned_eq, LensRec.cutReports_eq, LensRec.cutReports_eq]
    refine congrArg (unlearned ++ ·) ?_
    by_cases running : l.learn ≠ .idle
    · rw [if_pos running, if_pos running]
      exact ite_congr (propext (changed.trans (and_iff_right running).symm)) (fun _ => rfl) fun _ =>
        if_congr (lensOff_iff.trans (and_iff_right running).symm) rfl rfl
    · rw [if_neg running, if_neg running, ite_self, ite_self, if_neg fun h => running h.1,
        if_neg fun h => running h.1]
  obtain ⟨discarded, stands, cut, uncut, noise, mean, dark, eligible, kept, clean⟩ := figures.elim
    LensApplied.told LensApplied.told
  refine ⟨s.applyCamera_cameras c new, s.applyCamera_others c new, discarded, stands, cut, uncut, noise, mean, dark,
    eligible, kept, fun i free was is _ first => ?_, fun was is => ?_, fun was is consistent => ?_, fun same => ?_⟩
  · obtain ⟨touches, -, lowest, -⟩ := State.applyCamera_on (c := c) was is
    obtain ⟨ring, filling, empties, rest⟩ := lowest i free first
    exact ⟨ring, filling, empties, rest, touches.same .holds⟩
  · obtain ⟨touches, -, -, cadence, -, log⟩ := State.applyCamera_on (c := c) was is
    refine ⟨cadence, clean was is, touches, ?_⟩
    rw [configured_eq] at log
    simp only [geometryChanged_eq_false_iff] at log
    exact log.reported_self
  · intro short
    obtain ⟨touches, -, ring, length, slots, cadence, lens, held⟩ := State.applyCamera_off (c := c) was is
    obtain ⟨table, order, lock, log⟩ := held consistent.2.1
    have named (x : Hold) : x.state = .collecting ∧ decide (x.camera = c) = true
        ↔ x.state = .collecting ∧ x.camera = c :=
      and_congr_right' decide_eq_true_iff
    have shortened : Hold.shortened (fun x => decide (x.camera = c)) .disable = short :=
      funext fun x => if_congr (named x) rfl rfl
    have reports : s.holds.shortReports (fun x => decide (x.camera = c)) .disable s.holds.order =
        s.holds.order.filterMap (fun h => (s.holds.table.get h).bind fun x =>
          if x.state = .collecting ∧ x.camera = c then some (.holdComplete h (short x)) else none) := by
      refine List.filterMap_congr fun h _ => congrArg _ (funext fun x => ?_)
      rw [← shortened]
      by_cases here : x.state = .collecting ∧ x.camera = c
      · rw [if_pos ((named x).2 here), if_pos here, Hold.shortened, if_pos ((named x).2 here)]
      · rw [if_neg (mt (named x).1 here), if_neg here]
    refine ⟨ring, length, fun i m own => ?_, fun i other => ?_, cadence, ?_, fun h => ?_, order, lock, touches, ?_⟩
    · rw [slots, SlotRec.dissolved_own own]
      rfl
    · rw [slots, SlotRec.dissolved_other other]
    · rw [lens]
      rfl
    · rw [table, shortened]
      by_cases present : h ∈ s.holds.order
      · rw [if_pos present]
      · have absent : s.holds.table.get h = none :=
          Option.not_isSome_iff_eq_none.1 (mt (consistent.2.2 h).2 present)
        rw [if_neg present, absent]
        rfl
    · rw [unlearned_eq, reports] at log
      have cause : (if geometryChanged s.cameras[c] new = true then DiscardCause.config else .disable)
          = if geometry then .config else .disable := if_congr changed rfl rfl
      rw [cause] at log
      exact log.reported_self
  · intro late
    obtain ⟨touches, -, lens, stale, stays⟩ := State.applyCamera_same (c := c) same
    have acc : t.lens[c].acc = l.acc := by
      rw [lens]
      rfl
    rw [configured_eq] at stale stays
    by_cases h : late
    · obtain ⟨cadence, log⟩ := stale h
      exact ⟨touches, cadence.trans (if_pos h).symm, acc, by rw [if_pos h]; exact log.reported_self⟩
    · obtain ⟨cadence, log⟩ := stays h
      exact ⟨touches, cadence.trans (if_neg h).symm, acc, by rw [if_neg h, List.append_nil]; exact log.reported_self⟩

end

end Sys2Proof.Machine
end

section
/-! The COMMIT that applies its load (O23): the engine, the screens waited for, and the report ring. -/

namespace Sys2Proof.Machine

set_option Elab.async false

section
variable {s t : State}

/-! ### Affected screens -/

theorem State.usesLayout_iff {t : State} {i : Screen} {l : Nat} :
    t.usesLayout i l = true ↔ ∃ ctx, t.contexts[i] = some ctx ∧ ctx.layout = l := by
  unfold State.usesLayout
  cases t.contexts[i] <;> simp

theorem State.usesPane_iff {t : State} {i : Screen} {p : Nat} :
    t.usesPane i p = true ↔ ∃ ctx, t.contexts[i] = some ctx ∧ ∃ e ∈ ctx.panes, e.pane = p := by
  unfold State.usesPane
  cases t.contexts[i] <;> simp

theorem affects_iff {i : Screen} : affects s t i ↔ affected s t i = true := by
  unfold affects affected screenChanged
  simp only [Bool.and_eq_true, Bool.or_eq_true, decide_eq_true_eq, List.any_eq_true, List.mem_finRange, true_and,
    State.usesLayout_iff, State.usesPane_iff]
  refine and_congr_right fun _ => ?_
  rw [or_assoc]
  refine or_congr_right ?_
  constructor
  · rintro ⟨ctx, context, ⟨l, uses, differ⟩ | ⟨e, he, p, uses, differ⟩⟩
    · exact .inl ⟨l, ⟨ctx, context, uses⟩, differ⟩
    · exact .inr ⟨p, ⟨ctx, context, e, he, uses⟩, differ⟩
  · rintro (⟨l, ⟨ctx, context, uses⟩, differ⟩ | ⟨p, ⟨ctx, context, e, he, uses⟩, differ⟩)
    · exact ⟨ctx, context, .inl ⟨l, uses, differ⟩⟩
    · exact ⟨ctx, context, .inr ⟨e, he, p, uses, differ⟩⟩

theorem affectedSet_iff (i : Screen) : (affectedSet s t).getLsbD i.val = true ↔ affects s t i := by
  have named : (((List.finRange 4).map fun j => affected s t j).getD i.val false) = affected s t i := by
    rw [List.getD_eq_getElem?_getD, List.getElem?_map, List.getElem?_eq_getElem (by simp), List.getElem_finRange]
    rfl
  rw [affects_iff, affectedSet, BitVec.getLsbD_ofNat, Nat.testBit_eq_decide_div_mod_eq, packBits_bit, named,
    decide_eq_true i.isLt, Bool.true_and, decide_eq_true_iff]
  cases affected s t i <;> decide

theorem affectedSet_eq_zero_iff : affectedSet s t = 0#4 ↔ ∀ i, ¬affects s t i := by
  constructor
  · intro none i h
    have bit := (affectedSet_iff i).2 h
    rw [none] at bit
    simp at bit
  · intro none
    refine BitVec.eq_of_getLsbD_eq fun i hi => ?_
    have bit : (affectedSet s t).getLsbD i = false :=
      Bool.eq_false_of_not_eq_true (mt (affectedSet_iff ⟨i, hi⟩).1 (none ⟨i, hi⟩))
    rw [bit]
    simp

theorem affects_congr {s' t' : State} (screens : s'.screens = s.screens) (layouts : s'.layouts = s.layouts)
    (panes : s'.panes = s.panes) (screens' : t'.screens = t.screens) (layouts' : t'.layouts = t.layouts)
    (panes' : t'.panes = t.panes) (contexts : t'.contexts = t.contexts) (i : Screen) :
    affects s' t' i ↔ affects s t i := by
  unfold affects
  rw [screens, layouts, panes, screens', layouts', panes', contexts]

/-! ### The records applied one by one -/

/-- The part behind the blocks' work on the staged records: a load of LAYOUTS or PANES is stored and has none. -/
def State.rowsApplied (s : State) (e : Engine) : State :=
  match e.load.table with
  | .setup => (List.range e.load.count).foldl
      (fun u n => u.applySetup (setupOf (e.stagedBytes (e.load.first + n)))) s
  | .cameras => (List.range e.load.count).foldl (fun u n =>
      u.applyCamera (Fin.ofNat 16 (e.load.first + n)) (cameraOf (e.stagedBytes (e.load.first + n)))) s
  | .screens => (List.range e.load.count).foldl (fun u n =>
      u.applyScreen (Fin.ofNat 4 (e.load.first + n)) (screenOf (e.stagedBytes (e.load.first + n)))) s
  | .layouts => s
  | .panes => s
  | .doors => (List.range e.load.count).foldl (fun u n =>
      u.applyDoor (Fin.ofNat 12 (e.load.first + n)) (doorOf (e.stagedBytes (e.load.first + n)))) s

theorem Engine.foldl_records {β : Type} (e : Engine) (f : β → Nat × RecordBytes → β) (x : β) : e.records.foldl f x =
    (List.range e.load.count).foldl (fun u n => f u (e.load.first + n, e.stagedBytes (e.load.first + n))) x := by
  unfold Engine.records Engine.stagedBytes
  rw [List.foldl_map]
  simp only [Nat.add_sub_cancel_left]

theorem State.rowsApplied_touches (s : State) (e : Engine) (load : s.engine.load = e.load)
    (buffer : s.engine.buffer = e.buffer) : Touches [.layouts, .panes] (s.rowsApplied e) s.applyLoad := by
  have bytes : s.engine.stagedBytes = e.stagedBytes := by
    unfold Engine.stagedBytes
    rw [load, buffer]
  unfold State.rowsApplied
  rw [← load, ← bytes]
  cases table : s.engine.load.table with
  | setup =>
    rw [State.applyLoad_of_setup table, Engine.foldl_records]
    exact .refl _ _
  | cameras =>
    rw [State.applyLoad_of_cameras table, Engine.foldl_records]
    exact .refl _ _
  | screens =>
    rw [State.applyLoad_of_screens table, Engine.foldl_records]
    exact .refl _ _
  | doors =>
    rw [State.applyLoad_of_doors table, Engine.foldl_records]
    exact .refl _ _
  | layouts =>
    rw [State.applyLoad_of_layouts table]
    exact fun p hp => by cases p <;> first | rfl | exact absurd hp (by decide)
  | panes =>
    rw [State.applyLoad_of_panes table]
    exact fun p hp => by cases p <;> first | rfl | exact absurd hp (by decide)

/-! ### How the COMMIT ends -/

/-- The load applied, and the COMMIT DONE in IDLE. -/
def State.loadEnded (s : State) : State := (s.applyLoad.enter .idle).finishLoad 0x02 .done .none

/-- The load applied, and the COMMIT waiting for the affected screens. -/
def State.loadAwaiting (s : State) : State :=
  s.applyLoad.setEngine { s.applyLoad.engine with
    state := .applying, pending := affectedSet s s.applyLoad, waitStart := s.applyLoad.time }

theorem Applied.ends (h : Applied s t) (done : s.engine.load.table = .setup ∨ s.engine.load.table = .cameras
    ∨ s.engine.load.table = .doors ∨ ∀ i, ¬affects s s.applyLoad i) : t = s.loadEnded := by
  cases h with
  | ended => rfl
  | awaited table =>
    have none : ∀ i, ¬affects s s.applyLoad i := by
      rcases done with h | h | h | none
      · rcases table with k | k | k <;> exact absurd (h.symm.trans k) (by decide)
      · rcases table with k | k | k <;> exact absurd (h.symm.trans k) (by decide)
      · rcases table with k | k | k <;> exact absurd (h.symm.trans k) (by decide)
      · exact none
    exact if_pos (affectedSet_eq_zero_iff.2 none)

theorem Applied.waits {j : Screen} (h : Applied s t) (table : s.engine.load.table = .screens
    ∨ s.engine.load.table = .layouts ∨ s.engine.load.table = .panes) (some : affects s s.applyLoad j) :
    t = s.loadAwaiting := by
  cases h with
  | ended ended =>
    rcases ended with h | h | h
    · rcases table with k | k | k <;> exact absurd (h.symm.trans k) (by decide)
    · rcases table with k | k | k <;> exact absurd (h.symm.trans k) (by decide)
    · rcases table with k | k | k <;> exact absurd (h.symm.trans k) (by decide)
  | awaited => exact if_neg fun none => affectedSet_eq_zero_iff.1 none j some

end

end Sys2Proof.Machine
end

section
/-! O23: a valid COMMIT stores and applies every staged record. -/

namespace Sys2Proof.Machine

set_option Elab.async false

section
variable {s t : State}

/-- The COMMAND_DONE of a COMMIT that ends DONE (R155). -/
def commitDone (e : Engine) (tag : Byte) : Report :=
  .commandDone 0x02 tag .done .none (b8 e.load.table.code) (BitVec.ofNat 16 e.load.first)

theorem State.loadEnded_engine (s : State) : s.loadEnded.engine = { s.engine with
    state := .idle, result := .done, reason := .none, table := b8 s.engine.load.table.code
    index := BitVec.ofNat 16 s.engine.load.first } := by
  show { s.applyLoad.engine with
    state := .idle, result := .done, reason := .none, table := s.applyLoad.engine.loadTable
    index := s.applyLoad.engine.loadFirst } = _
  rw [s.applyLoad_engine]
  rfl

theorem State.loadEnded_logged (s : State) :
    Logged [commitDone s.engine s.engine.lastTag] s.applyLoad s.loadEnded := by
  have report : commitDone s.engine s.engine.lastTag = commitDone s.applyLoad.engine s.applyLoad.engine.lastTag := by
    rw [s.applyLoad_engine]
  rw [report]
  exact (State.setEngine_logged s.applyLoad _).trans (State.finish_logged _ 0x02 .done .none _ _)

theorem State.loadEnded_touches (s : State) : Touches [.mem, .ring, .engine] s.applyLoad s.loadEnded :=
  ((State.enter_effect _ _).trans (State.finishLoad_effect _ _ _ _)).touches.mono (by decide)

/-- A SETUP that changes the report ring has its own COMMAND_DONE at place 0 of the new ring (R181). -/
theorem State.loadEnded_newRing (table : s.engine.load.table = .setup) (valid : s.validate = none)
    (one : s.engine.load.first = 0 ∧ s.engine.load.count = 1) (wf : s.mem.wf = true) (inRange : s.ring.inRange)
    {new : SetupRec} (record : new = setupOf (s.engine.stagedBytes 0))
    (differs : new.ringBase ≠ s.ring.base ∨ new.ringCapacity ≠ s.ring.capacity) :
    let done := (commitDone s.engine s.engine.lastTag).bytes s.time 0
    s.loadEnded.ring = ⟨new.ringBase, new.ringCapacity, true, 1, 0, 0⟩
      ∧ ∀ j (h : j < done.length), s.loadEnded.mem.read (new.ringBase + j) = done[j] := by
  intro done
  have applied : s.applyLoad = s.applySetup new := by
    rw [record]
    exact State.applyLoad_of_one table (by omega) (by omega)
  have ring : s.applyLoad.ring = ⟨new.ringBase, new.ringCapacity, true, 0, 0, 0⟩ := by
    rw [applied]
    refine (s.applySetup_told new).2.2.1 fun same => ?_
    exact differs.elim (fun h => h same.1.symm) fun h => h same.2.symm
  have fits : s.applyLoad.ring.inRange := State.applyLoad_ring_inRange inRange valid
  have big : 64 ≤ new.ringCapacity := by
    rw [ring] at fits
    exact fits.1
  have writable : s.applyLoad.ring.writable = true := by
    rw [ReportRing.writable_iff, ring]
    refine ⟨rfl, fun h => ?_⟩
    rw [show (0 + 1) % new.ringCapacity = 1 from Nat.mod_eq_of_lt (by omega)] at h
    exact Nat.one_ne_zero h
  obtain ⟨mem, ring', -⟩ := s.loadEnded_logged
  have time : s.applyLoad.time = s.time := s.applyLoad_touches.same .time (by rw [table]; decide)
  refine ⟨?_, fun j h => ?_⟩
  · rw [ring', State.emitAll_cons, State.emitAll_nil, State.emit_ring, ReportRing.afterReport_of_writable writable,
    ring]
    show ReportRing.mk _ _ _ ((0 + 1) % new.ringCapacity) _ _ = _
    rw [show (0 + 1) % new.ringCapacity = 1 from Nat.mod_eq_of_lt (by omega)]
  · have place := State.emit_read_place (s := s.applyLoad) (commitDone s.engine s.engine.lastTag) (j := j)
      (State.applyLoad_mem_wf wf) fits writable (by simpa [done] using h)
    simp only [ring, time, Nat.zero_mul, Nat.add_zero] at place
    rw [mem]
    exact place

theorem Applied.toggle (h : Applied s t) : t.engine.toggle = s.engine.toggle := by
  cases h with
  | ended =>
    show s.applyLoad.engine.toggle = _
    rw [s.applyLoad_engine]
  | awaited =>
    rw [State.awaitScreens_engine, s.applyLoad_engine]
    split <;> rfl

/-- What a COMMIT that applies its load leaves in frame memory off the two rings' places. -/
theorem Applied.read (h : Applied s t) (valid : s.validate = none) (inRange : s.ring.inRange)
    (load : 1 ≤ s.engine.load.count ∧ s.engine.load.first + s.engine.load.count ≤ s.engine.load.table.records) {a : Nat}
    (old : s.ring.outsideRing a) (new : t.ring.outsideRing a) : t.mem.read a = s.mem.read a := by
  have fits := State.applyLoad_ring_inRange inRange valid
  have place := h.effect.ringPlace
  have off : s.applyLoad.ring.outsideRing a := by
    unfold ReportRing.outsideRing at new ⊢
    rwa [← place.1, ← place.2]
  refine (h.effect.read_of_outsideRing fits off).trans ?_
  by_cases table : s.engine.load.table = .setup
  · obtain ⟨first, count⟩ := Engine.setup_load table load
    rw [State.applyLoad_of_one table (by omega) (by omega)]
    exact State.applySetup_read inRange old _
  · exact (State.applyLoad_effect table).read_of_outsideRing inRange old

/-- The COMMIT that waits for the affected screens: nothing is reported, and its result stands (R167). -/
theorem State.loadAwaiting_engine (s : State) : s.loadAwaiting.engine = { s.engine with
    state := .applying, pending := affectedSet s s.applyLoad, waitStart := s.applyLoad.time } := by
  show { s.applyLoad.engine with
    state := .applying, pending := affectedSet s s.applyLoad, waitStart := s.applyLoad.time } = _
  rw [s.applyLoad_engine]

theorem State.applyLoad_time (s : State) : s.applyLoad.time = s.time :=
  s.applyLoad_touches.same .time (by cases s.engine.load.table <;> decide)

/-- A ring that holds its first record waits to be read (R181). -/
theorem State.attn_of_first {base capacity : Nat} (running : s.isRunning)
    (ring : s.ring = ⟨base, capacity, true, 1, 0, 0⟩) : s.attn = true := by
  unfold State.attn
  rw [show s.condition = .running from running, ring]
  rfl

/-- The COMMIT that ends DONE in IDLE (R166). -/
theorem Applied.told_ended (h : Applied s t) (done : s.engine.load.table = .setup ∨ s.engine.load.table = .cameras
    ∨ s.engine.load.table = .doors ∨ ∀ i, ¬affects s s.applyLoad i) :
    t.engine.state = .idle ∧ t.engine.result = .done ∧ t.engine.reason = .none
      ∧ t.engine.table = b8 s.engine.load.table.code ∧ t.engine.index = BitVec.ofNat 16 s.engine.load.first
      ∧ Logged [commitDone s.engine s.engine.lastTag] s.applyLoad t := by
  rw [h.ends done, s.loadEnded_engine]
  exact ⟨rfl, rfl, rfl, rfl, rfl, s.loadEnded_logged⟩

/-- The COMMIT that waits for exactly the affected screens (R167). -/
theorem Applied.told_waiting {j : Screen} (h : Applied s t) (table : s.engine.load.table = .screens
    ∨ s.engine.load.table = .layouts ∨ s.engine.load.table = .panes) (some : affects s s.applyLoad j) :
    t.engine.state = .applying ∧ t.engine.waitStart = s.time ∧ t.engine.result = s.engine.result
      ∧ t.engine.reason = s.engine.reason ∧ t.engine.table = s.engine.table ∧ t.engine.index = s.engine.index
      ∧ (∀ i : Screen, t.engine.pending.getLsbD i.val = true ↔ affects s s.applyLoad i)
      ∧ t.mem = s.applyLoad.mem ∧ t.ring = s.applyLoad.ring := by
  rw [h.waits table some, s.loadAwaiting_engine]
  exact ⟨rfl, s.applyLoad_time, rfl, rfl, rfl, rfl, affectedSet_iff, rfl, rfl⟩

end

/-- Settles O23: the tables and the end of the COMMIT from `Applied`, and table by table what one applied record
does. -/
theorem validCommitAppliesEveryRecord : Obligations.ValidCommitAppliesEveryRecord := by
  unfold Obligations.ValidCommitAppliesEveryRecord
  refine ⟨?_, State.applySetup_told, State.applyCamera_told, fun s i new => ?_, fun s d new => ?_⟩
  case refine_2 =>
    obtain ⟨screens, quiet, released⟩ := s.applyScreen_record i new
    refine ⟨screens, quiet, fun on off => ?_⟩
    intro u
    have effect : Effect [.pool, .rings] s u := s.unpinContext_effect i
    rw [released on off]
    have stored : Touches [.screens, .contexts] u ((u.setScreen i new).setContext i none) := fun p hp => by
      cases p <;> first | rfl | exact absurd hp (by decide)
    refine ⟨?_, rfl, rfl, rfl, rfl, (effect.touches.trans stored).mono (by decide)⟩
    exact congrArg (fun v : Vector (Option ScanContext) 4 => upd v i none) (effect.same .contexts)
  case refine_3 =>
    obtain ⟨doors, unit, spots, rs, only, log⟩ := s.applyDoor_told d new
    have formed_eq := doorStateOf_eq new.enable (s.doorUnit.alerts.get d).accepted (s.doorUnit.opens.get d).accepted
    unfold State.doorFormed at unit log
    rw [formed_eq] at unit log
    simp only [levelActive_eq] at spots
    refine ⟨(s.applyDoor_effect d new).touches.mono (by decide), doors, unit, spots, rs, only.kind, ?_⟩
    unfold doorReports at log
    simp only [eq_comm (a := s.doorUnit.states.get d)] at log
    exact log.reported_self
  intro r tag spare s running role inRange range staging complete valid e bytes table first taken rows applied
  have run := exec_commit_staging (tag := tag) (spare := spare) running role staging
  rw [State.stagingCommit_complete (s := s.taken _ tag) complete] at run
  have valid' := (s.validate_taken (commandWord 0x02 tag spare) tag).trans valid
  have outcome := State.commitLoad_of_none valid'
  obtain ⟨one, -, bound, -⟩ := range.1 staging
  have stored := outcome.stored (s := s.taken (commandWord 0x02 tag spare) tag) one bound
  have layered : Touches [.layouts, .panes] applied (s.taken (commandWord 0x02 tag spare) tag).applyLoad :=
    State.rowsApplied_touches _ e rfl rfl
  have touched := (State.taken_touches s (commandWord 0x02 tag spare) tag).trans outcome.touches_commit
  have after := outcome.effect
  obtain ⟨setup, cameras, screens, layouts, panes, doors⟩ := stored
  have staged : e.stages .setup 0 ↔ e.load.table = .setup := ⟨And.left, fun h => by
    obtain ⟨zero, single⟩ := Engine.setup_load (e := e) h ⟨one, bound⟩
    exact ⟨h, by omega, by omega⟩⟩
  have same (i : Screen) : affects s ((s.taken (commandWord 0x02 tag spare) tag).commitLoad.completeWrite r) i
      ↔ affects (s.taken (commandWord 0x02 tag spare) tag) (s.taken (commandWord 0x02 tag spare) tag).applyLoad i :=
    affects_congr rfl rfl rfl (after.same .screens) (after.same .layouts) (after.same .panes) (after.same .contexts) i
  refine ⟨_, run, completed_of_port r (touched.same .port), fun h => setup.trans (if_pos (staged.1 h)),
    fun h => setup.trans (if_neg (mt staged.2 h)), cameras, screens, layouts, panes, doors,
    ((layered.trans after.touches).completeWrite r (by decide)), ?_, ?_, fun done => ?_, fun j table' some => ?_,
    fun isSetup wf differs => ?_, fun a word old new => ?_⟩
  · exact outcome.lastTag
  · exact outcome.toggle
  · have told := outcome.told_ended
      (done.imp_right (Or.imp_right (Or.imp_right fun none i h => none i ((same i).2 h))))
    obtain ⟨state, result, reason, table', index, log⟩ := told
    exact ⟨state, result, reason, table', index,
      ((layered.logged (by decide) (by decide) (by decide)).trans log).reported_self⟩
  · obtain ⟨state, wait, result, reason, table'', index, pending, mem, ring⟩ :=
      outcome.told_waiting table' ((same j).1 some)
    exact ⟨state, wait, result, reason, table'', index, fun i => (pending i).trans (same i).symm,
      mem.trans (layered.same .mem), ring.trans (layered.same .ring)⟩
  · have table' := staged.1 isSetup
    have ended := outcome.ends (.inl table')
    have record := setup.trans (if_pos table')
    obtain ⟨ring, bytes'⟩ := State.loadEnded_newRing (s := s.taken (commandWord 0x02 tag spare) tag) table' valid'
      (Engine.setup_load table' ⟨one, bound⟩) (Memory.wf_writeWord wf) inRange record differs
    rw [← ended] at ring bytes'
    exact ⟨ring, State.attn_of_first ((touched.same .condition).trans running) ring, bytes'⟩
  · refine (outcome.read valid' inRange ⟨one, bound⟩ old new).trans ?_
    exact s.commandMem_read _ word

end Sys2Proof.Machine
end
